-- ==== Sys2Proof/Word.lean ====
section
/-! DEFINITION. The word and byte types, and the finite maps by number that hold the sparse parts of the state. -/

namespace Sys2Proof

/-- A 64-bit word (R88). -/
abbrev Word := BitVec 64

/-- One byte (R4). -/
abbrev Byte := BitVec 8

/-- A finite map from numbers: key and value pairs, looked up by the first key that matches. -/
abbrev Map (α : Type) := List (Nat × α)

/-- The entry of a map at `k`. -/
def Map.get? {α : Type} : Map α → Nat → Option α
  | [], _ => none
  | (k, v) :: m, n => if n = k then some v else Map.get? m n

/-- The entry of a map at `k`, or `d` where it holds none. -/
def Map.get {α : Type} (m : Map α) (d : α) (n : Nat) : α := (Map.get? m n).getD d

/-- The map with `v` at `n`; new keys keep the list in rising order. -/
def Map.set {α : Type} : Map α → Nat → α → Map α
  | [], n, v => [(n, v)]
  | (k, w) :: m, n, v =>
    if n = k then (n, v) :: m
    else if n < k then (n, v) :: (k, w) :: m
    else (k, w) :: Map.set m n v

/-- The map without any entry at `n`. -/
def Map.del {α : Type} (m : Map α) (n : Nat) : Map α := m.filter (fun e => e.1 ≠ n)

end Sys2Proof
end

