-- ==== Sys2Proof/Machine/Bits.lean ====
section
/-! DEFINITION. Bit fields, sign extension and byte order: the helpers that the decoder and the machine share. -/

namespace Sys2Proof

/-- `n` bits of `w` from bit `lo` (R1). -/
def bits (w lo n : Nat) : BitVec n := BitVec.ofNat n (w >>> lo)

/-- Bit `k` of `w`. -/
def bitAt (w k : Nat) : Bool := w >>> k % 2 == 1

/-- The field of `w` from bit `lo` with `n` bits, as a number. -/
def fieldN (w lo n : Nat) : Nat := w >>> lo % 2 ^ n

/-- Fields packed from the least significant bit up; each is a width and a value (R1). -/
def pack : List (Nat × Nat) → Nat
  | [] => 0
  | (n, v) :: fs => v % 2 ^ n + 2 ^ n * pack fs

/-- `w` with the `n`-bit field at `lo` replaced by `v`. -/
def setField (w lo n v : Nat) : Nat := w - (fieldN w lo n) <<< lo + (v % 2 ^ n) <<< lo

/-- The value of an `n`-bit two's-complement code. -/
def signedN (n v : Nat) : Int := if v % 2 ^ n < 2 ^ (n - 1) then ((v % 2 ^ n : Nat) : Int) else ((v % 2 ^ n : Nat) : Int) - 2 ^ n

/-- The `n`-bit two's-complement code of an integer. -/
def codeN (n : Nat) (x : Int) : Nat := (x % (2 ^ n : Nat)).toNat

/-- The little-endian number of a list of bytes (R4). -/
def leNat : List Byte → Nat
  | [] => 0
  | b :: bs => b.toNat + 256 * leNat bs

/-- The `n` little-endian bytes of a number (R4). -/
def leBytes : Nat → Nat → List Byte
  | 0, _ => []
  | n + 1, v => BitVec.ofNat 8 v :: leBytes n (v / 256)

/-- The quotient rounded up. -/
def ceilDiv (a b : Nat) : Nat := if b = 0 then 0 else (a + b - 1) / b

/-- The numbers `lo, lo + 1, …` of a run of length `n`. -/
def span (lo : Nat) : Nat → List Nat
  | 0 => []
  | n + 1 => lo :: span (lo + 1) n

/-- `f` applied `n` times. -/
def iter {α : Type} (f : α → α) : Nat → α → α
  | 0, x => x
  | n + 1, x => iter f n (f x)

/-- The element of a list at `i`, or `d` beyond its end. -/
def nth {α : Type} (d : α) : List α → Nat → α
  | [], _ => d
  | x :: _, 0 => x
  | _ :: xs, n + 1 => nth d xs n

/-- A list cut into chunks of `k` elements; the fuel is the list's own length. -/
def chunks {α : Type} (k : Nat) (l : List α) : List (List α) := go l.length l
where
  go : Nat → List α → List (List α)
    | 0, _ => []
    | _ + 1, [] => []
    | n + 1, x :: xs => ((x :: xs).take k) :: go n ((x :: xs).drop k)

/-- The first element of a list that is best by a strict order `lt` on a rank. -/
def bestBy {α : Type} (better : α → α → Bool) : List α → Option α
  | [] => none
  | x :: xs =>
    match bestBy better xs with
    | none => some x
    | some y => if better y x then some y else some x

end Sys2Proof
end

