-- ==== Sys2Proof/Syntax.lean ====
section
/-! DEFINITION. The syntax of every step of the part: the slot operations of a bundle (chapter 14), the graph records,
and the events of the table of operations and events (chapter 95). -/

namespace Sys2Proof

/-- A guard: the predicate and its sense (R90, R341). -/
structure Guard where
  p   : BitVec 4
  neg : Bool
deriving DecidableEq, Repr

/-- The fields of the VR format (R346, Table 14-6). -/
structure VFields where
  d     : BitVec 6
  a     : BitVec 6
  b     : BitVec 6
  c     : BitVec 6
  ty    : BitVec 3
  rnd   : BitVec 3
  bsel  : Bool
  G     : Guard
  flags : BitVec 4
  imm   : BitVec 16
deriving DecidableEq, Repr

/-- The fields of the MM format (R348, Table 14-7). -/
structure MFields where
  tile : BitVec 11
  gA   : BitVec 6
  gB   : BitVec 6
  gN   : BitVec 6
  mode : BitVec 3
  prod : BitVec 5
  c1   : BitVec 5
  c2   : BitVec 5
  c3   : BitVec 5
  p    : BitVec 4
deriving DecidableEq, Repr

/-- The fields of the LM and WM formats (R349, R350); `d` is the source `s` of a store. -/
structure LMFields where
  d     : BitVec 6
  base  : BitVec 6
  off   : BitVec 16
  size  : BitVec 3
  scope : BitVec 3
  G     : Guard
  vec   : Bool
deriving DecidableEq, Repr

/-- The fields of the LDX format (R349). -/
structure LDXFields where
  d    : BitVec 6
  base : BitVec 6
  off  : BitVec 12
  land : BitVec 12
  size : BitVec 3
  vec  : Bool
deriving DecidableEq, Repr

/-- The fields of the WA format (R350, Table 15-1). -/
structure WAFields where
  d     : BitVec 6
  s     : BitVec 6
  base  : BitVec 6
  off   : BitVec 10
  ty    : BitVec 2
  order : BitVec 2
  scope : BitVec 3
deriving DecidableEq, Repr

/-- The fields of the XC format (R352). -/
structure XFields where
  g1   : BitVec 6
  g2   : BitVec 6
  g3   : BitVec 6
  ch   : BitVec 2
  prod : BitVec 5
  c1   : BitVec 5
  c2   : BitVec 5
  c3   : BitVec 5
deriving DecidableEq, Repr

/-- The fields of the NC format (R352). -/
structure NFields where
  peer : BitVec 8
  g1   : BitVec 6
  g2   : BitVec 6
  g3   : BitVec 6
  prod : BitVec 5
  cons : BitVec 5
  tag  : BitVec 4
deriving DecidableEq, Repr

/-- The frame of a graph record less its opcode (R355, Table 14-15). -/
structure GFields where
  chain  : BitVec 4
  flags  : BitVec 4
  entry  : BitVec 12
  mode   : BitVec 4
  h0     : BitVec 12
  h1     : BitVec 12
  h2     : BitVec 12
  h3     : BitVec 12
  h4     : BitVec 12
  h5     : BitVec 12
  attr   : BitVec 24
  sched  : BitVec 16
  spec16 : BitVec 16
  imm32  : BitVec 32
  spec64 : BitVec 64
deriving DecidableEq, Repr

/-- One step of the part: a constructor for each row of the table of operations and events.
A slot operation acts on the strand whose turn it is, a graph record on the walker whose turn it is, and an
event on the units its operands name. -/
inductive Instr where
  /-- ADD (R379). Adds two g registers and lands the wrapped sum at v + 1. -/
  | add (G : Guard) (w : Bool) (d : BitVec 6) (a : BitVec 6) (b : BitVec 6)
  /-- SUB (R514). Subtracts two g registers with wrap-around. -/
  | sub (G : Guard) (w : Bool) (d : BitVec 6) (a : BitVec 6) (b : BitVec 6)
  /-- MUL (R469). Low half of the product of two g registers, landing at v + 3. -/
  | mul (G : Guard) (w : Bool) (d : BitVec 6) (a : BitVec 6) (b : BitVec 6)
  /-- MULH (R470). High half of the exact signed product. -/
  | mulh (G : Guard) (w : Bool) (d : BitVec 6) (a : BitVec 6) (b : BitVec 6)
  /-- MULHN (R471). High half of the exact unsigned product. -/
  | mulhn (G : Guard) (w : Bool) (d : BitVec 6) (a : BitVec 6) (b : BitVec 6)
  /-- DIV (R411). Signed division truncated toward zero, landing at v + 20. -/
  | div (G : Guard) (w : Bool) (d : BitVec 6) (a : BitVec 6) (b : BitVec 6)
  /-- DIVN (R412). Unsigned division landing at v + 20. -/
  | divn (G : Guard) (w : Bool) (d : BitVec 6) (a : BitVec 6) (b : BitVec 6)
  /-- REM (R485). Signed remainder with the sign of the dividend, landing at v + 20. -/
  | rem (G : Guard) (w : Bool) (d : BitVec 6) (a : BitVec 6) (b : BitVec 6)
  /-- AND (R384). Bitwise AND of two g registers. -/
  | and (G : Guard) (w : Bool) (d : BitVec 6) (a : BitVec 6) (b : BitVec 6)
  /-- OR (R474). Bitwise OR of two g registers. -/
  | or (G : Guard) (w : Bool) (d : BitVec 6) (a : BitVec 6) (b : BitVec 6)
  /-- XOR (R531). Bitwise exclusive OR of two g registers. -/
  | xor (G : Guard) (w : Bool) (d : BitVec 6) (a : BitVec 6) (b : BitVec 6)
  /-- ANDN (R386). Computes g(a) AND NOT g(b). -/
  | andn (G : Guard) (w : Bool) (d : BitVec 6) (a : BitVec 6) (b : BitVec 6)
  /-- SHL (R502). Logical left shift by g(b) modulo the width. -/
  | shl (G : Guard) (w : Bool) (d : BitVec 6) (a : BitVec 6) (b : BitVec 6)
  /-- SHR (R502). Logical right shift by g(b) modulo the width. -/
  | shr (G : Guard) (w : Bool) (d : BitVec 6) (a : BitVec 6) (b : BitVec 6)
  /-- SAR (R490). Arithmetic right shift by g(b) modulo the width. -/
  | sar (G : Guard) (w : Bool) (d : BitVec 6) (a : BitVec 6) (b : BitVec 6)
  /-- ROL (R488). Rotates g(a) left by g(b) modulo the width. -/
  | rol (G : Guard) (w : Bool) (d : BitVec 6) (a : BitVec 6) (b : BitVec 6)
  /-- MIN (R461). Keeps the signed smaller of two g registers. -/
  | min (G : Guard) (w : Bool) (d : BitVec 6) (a : BitVec 6) (b : BitVec 6)
  /-- MAX (R455). Keeps the signed larger of two g registers. -/
  | max (G : Guard) (w : Bool) (d : BitVec 6) (a : BitVec 6) (b : BitVec 6)
  /-- MINN (R462). Keeps the unsigned smaller of two g registers. -/
  | minn (G : Guard) (w : Bool) (d : BitVec 6) (a : BitVec 6) (b : BitVec 6)
  /-- MAXN (R456). Keeps the unsigned larger of two g registers. -/
  | maxn (G : Guard) (w : Bool) (d : BitVec 6) (a : BitVec 6) (b : BitVec 6)
  /-- SEL (R493). Selects g(a) or g(b) by a predicate. -/
  | sel (G : Guard) (w : Bool) (d : BitVec 6) (a : BitVec 6) (b : BitVec 6) (c : BitVec 4)
  /-- CLZ (R401). Counts the leading zero bits of g(a). -/
  | clz (G : Guard) (w : Bool) (d : BitVec 6) (a : BitVec 6)
  /-- CTZ (R410). Counts the trailing zero bits of g(a). -/
  | ctz (G : Guard) (w : Bool) (d : BitVec 6) (a : BitVec 6)
  /-- POPC (R478). Counts the set bits of g(a). -/
  | popc (G : Guard) (w : Bool) (d : BitVec 6) (a : BitVec 6)
  /-- BFX (R393). Extracts a zero-extended bit field of g(a). -/
  | bfx (G : Guard) (w : Bool) (d : BitVec 6) (a : BitVec 6) (lsb : BitVec 6) (width : BitVec 6)
  /-- BFI (R391). Inserts a bit field of g(a) into g(d). -/
  | bfi (G : Guard) (w : Bool) (d : BitVec 6) (a : BitVec 6) (lsb : BitVec 6) (width : BitVec 6)
  /-- SEXT (R496). Sign-extends the low bits of g(a). -/
  | sext (G : Guard) (w : Bool) (d : BitVec 6) (a : BitVec 6) (width : BitVec 6)
  /-- ZEXT (R532). Zero-extends the low bits of g(a). -/
  | zext (G : Guard) (w : Bool) (d : BitVec 6) (a : BitVec 6) (width : BitVec 6)
  /-- CMP (R402). Compares two g registers by a condition and lands a predicate at v + 1. -/
  | cmp (G : Guard) (w : Bool) (pd : BitVec 4) (a : BitVec 6) (b : BitVec 6) (cond : BitVec 4)
  /-- AGEN (R381). Forms g(a) + g(b) × 2^scale as an address without accessing memory. -/
  | agen (G : Guard) (w : Bool) (d : BitVec 6) (a : BitVec 6) (b : BitVec 6) (scale : BitVec 2)
  /-- ADDI (R380). Adds a sign-extended 16-bit immediate to a g register. -/
  | addi (G : Guard) (w : Bool) (d : BitVec 6) (a : BitVec 6) (imm : BitVec 16)
  /-- ANDI (R385). Bitwise AND of a g register with a zero-extended immediate. -/
  | andi (G : Guard) (w : Bool) (d : BitVec 6) (a : BitVec 6) (imm : BitVec 16)
  /-- ORI (R475). Bitwise OR with a zero-extended immediate. -/
  | ori (G : Guard) (w : Bool) (d : BitVec 6) (a : BitVec 6) (imm : BitVec 16)
  /-- XORI (R531). Bitwise exclusive OR with a zero-extended immediate. -/
  | xori (G : Guard) (w : Bool) (d : BitVec 6) (a : BitVec 6) (imm : BitVec 16)
  /-- SHLI (R502). Logical left shift by an immediate. -/
  | shli (G : Guard) (w : Bool) (d : BitVec 6) (a : BitVec 6) (imm : BitVec 16)
  /-- SHRI (R502). Logical right shift by an immediate. -/
  | shri (G : Guard) (w : Bool) (d : BitVec 6) (a : BitVec 6) (imm : BitVec 16)
  /-- SARI (R491). Arithmetic right shift by an immediate. -/
  | sari (G : Guard) (w : Bool) (d : BitVec 6) (a : BitVec 6) (imm : BitVec 16)
  /-- MOVI (R465). Loads a zero-extended immediate with poison clear. -/
  | movi (G : Guard) (w : Bool) (d : BitVec 6) (imm : BitVec 16)
  /-- MOVHI (R464). Inserts a 16-bit immediate into the selected 16-bit field of g(d). -/
  | movhi (G : Guard) (w : Bool) (d : BitVec 6) (sh : BitVec 2) (imm : BitVec 16)
  /-- CMPI (R403). Compares a g register with a sign-extended immediate and writes a predicate. -/
  | cmpi (G : Guard) (w : Bool) (pd : BitVec 4) (a : BitVec 6) (cond : BitVec 4) (imm : BitVec 16)
  /-- SFADD (R497). Scalar floating-point add with one rounding, landing at v + 4. -/
  | sfadd (G : Guard) (d : BitVec 6) (a : BitVec 6) (b : BitVec 6) (ty : BitVec 2) (rnd : BitVec 3)
  /-- SFMUL (R501). Scalar floating-point multiply with one rounding. -/
  | sfmul (G : Guard) (d : BitVec 6) (a : BitVec 6) (b : BitVec 6) (ty : BitVec 2) (rnd : BitVec 3)
  /-- SFFMA (R500). Scalar fused multiply-add with one rounding. -/
  | sffma (G : Guard) (d : BitVec 6) (a : BitVec 6) (b : BitVec 6) (ty : BitVec 2) (rnd : BitVec 3)
  /-- SFCMP (R498). Scalar floating-point compare writing a predicate at v + 4. -/
  | sfcmp (G : Guard) (w : Bool) (pd : BitVec 4) (a : BitVec 6) (b : BitVec 6) (cond : BitVec 4)
  /-- SFCVT (R499). Converts a scalar value between float and 64-bit integer formats. -/
  | sfcvt (G : Guard) (d : BitVec 6) (a : BitVec 6) (sty : BitVec 2) (rnd : BitVec 3) (dty : BitVec 3)
  /-- MFC (R459). Reads a control register into a g register with poison clear. -/
  | mfc (G : Guard) (w : Bool) (d : BitVec 6) (num : BitVec 12)
  /-- MTC (R468). Writes a control register, visible two steps later. -/
  | mtc (G : Guard) (w : Bool) (a : BitVec 6) (num : BitVec 12)
  /-- BR (R394). Unconditional transfer to a displacement target with three delay slots. -/
  | br (disp : BitVec 21)
  /-- BRC (R395). Transfer to a displacement target when the guard is true. -/
  | brc (G : Guard) (disp : BitVec 21)
  /-- BRR (R396). Transfer to the bundle index held in a g register. -/
  | brr (G : Guard) (a : BitVec 6)
  /-- CALL (R397). Calls a subroutine at a displacement target, pushing the return index. -/
  | call (G : Guard) (disp : BitVec 21)
  /-- CALLR (R398). Calls a subroutine at the bundle index held in a g register. -/
  | callr (G : Guard) (a : BitVec 6)
  /-- RET (R486). Returns from a call, or at call depth 0 ends the microprogram. -/
  | ret (G : Guard)
  /-- LOOP (R449). Starts a nest level over the following body bundles with a trip count. -/
  | loop (G : Guard) (level : BitVec 3) (cnt : BitVec 6) (len : BitVec 12)
  /-- NEST (R473). Writes or clears an attachment of a nest level. -/
  | nest (G : Guard) (level : BitVec 3) (kind : BitVec 2) (val : BitVec 6) (addr : BitVec 6)
  /-- CHK (R400). Branches when a g register is poisoned. -/
  | chk (G : Guard) (a : BitVec 6) (disp : BitVec 15)
  /-- ISYNC (R436). Invalidates every line of the issuing core's control store. -/
  | isync (G : Guard)
  /-- FMT (R415). Writes the whole format register, landing at v + 4. -/
  | fmt (G : Guard) (v : BitVec 21)
  /-- TRAP (R516). Takes a software trap of class TRAP with code n. -/
  | trap (G : Guard) (n : BitVec 8)
  /-- SYSRET (R515). Leaves handler mode, restoring the held VCC and reissuing or resuming at TRAPPC. -/
  | sysret
  /-- VADD, VECTOR_ELEMENTWISE_OP in the table (R520). An element-wise or reduction vector operation of Table 18-4 computes a whole AM row and lands it. -/
  | vadd (o : VFields)
  /-- VSUB (R520). Subtracts AM rows lane by lane. -/
  | vsub (o : VFields)
  /-- VMUL (R520). Multiplies AM rows lane by lane. -/
  | vmul (o : VFields)
  /-- VFMA (R520). Fused multiply-add of AM rows, landing at v + 4. -/
  | vfma (o : VFields)
  /-- VFMS (R520). Fused multiply-subtract of AM rows, landing at v + 4. -/
  | vfms (o : VFields)
  /-- VMAX (R520). Lane-wise maximum. -/
  | vmax (o : VFields)
  /-- VMIN (R520). Lane-wise minimum. -/
  | vmin (o : VFields)
  /-- VABS (R520). Lane-wise absolute value. -/
  | vabs (o : VFields)
  /-- VNEG (R520). Lane-wise negation. -/
  | vneg (o : VFields)
  /-- VAND (R520). Lane-wise bitwise AND. -/
  | vand (o : VFields)
  /-- VOR (R520). Lane-wise bitwise OR. -/
  | vor (o : VFields)
  /-- VXOR (R520). Lane-wise bitwise XOR. -/
  | vxor (o : VFields)
  /-- VSHL (R520). Lane-wise left shift of integer lanes. -/
  | vshl (o : VFields)
  /-- VSHR (R520). Lane-wise right shift of integer lanes. -/
  | vshr (o : VFields)
  /-- VCMP (R521). Lane-wise compare producing all-ones or zero masks. -/
  | vcmp (o : VFields)
  /-- VSEL (R520). Selects lanes of a or b by lanes of c. -/
  | vsel (o : VFields)
  /-- VMOV (R520). Copies the bits of a row. -/
  | vmov (o : VFields)
  /-- VBCAST (R521). Broadcasts a lane or a g register to every lane. -/
  | vbcast (o : VFields)
  /-- VIOTA (R521). Writes the lane index plus an immediate into each lane. -/
  | viota (o : VFields)
  /-- VPERM (R526). Permutes lanes by index lanes. -/
  | vperm (o : VFields)
  /-- VRSUM (R130). Sums the lanes of a row by a fixed binary tree into lane 0. -/
  | vrsum (o : VFields)
  /-- VRMAX (R520). Maximum over all lanes into lane 0. -/
  | vrmax (o : VFields)
  /-- VRMIN (R520). Minimum over all lanes into lane 0. -/
  | vrmin (o : VFields)
  /-- VSCAN (R130). Prefix sums in ascending lane order. -/
  | vscan (o : VFields)
  /-- VCVT (R522). Converts lanes between vector types. -/
  | vcvt (o : VFields)
  /-- VQNT (R527). Quantises FP32 lanes into one chunk of an MX operand row. -/
  | vqnt (o : VFields)
  /-- VDQT (R523). Expands one chunk of an MX operand row to FP32 lanes. -/
  | vdqt (o : VFields)
  /-- VTOPK (R528). Selects the k largest lanes in descending order with their indices. -/
  | vtopk (o : VFields)
  /-- CONFT (R288). Combines vocabulary-shard statistics and tests exit confidence into a predicate. -/
  | conft (o : VFields)
  /-- VEXT (R524). Copies one lane into a g register. -/
  | vext (o : VFields)
  /-- VINS (R525). Writes a g register into one lane of a row. -/
  | vins (o : VFields)
  /-- VEXP (R133). Correctly rounded e^x per lane on the special-function unit. -/
  | vexp (o : VFields)
  /-- VLOG (R133). Correctly rounded natural logarithm per lane. -/
  | vlog (o : VFields)
  /-- VRCP (R133). Correctly rounded reciprocal per lane. -/
  | vrcp (o : VFields)
  /-- VRSQ (R133). Correctly rounded reciprocal square root per lane. -/
  | vrsq (o : VFields)
  /-- VTANH (R133). Correctly rounded hyperbolic tangent per lane. -/
  | vtanh (o : VFields)
  /-- MMA (R463). Issues a matrix multiply of an A tile and B panel into an AM tile on the matrix engine queue. -/
  | mma (o : MFields)
  /-- MGV (R460). Issues a matrix-vector multiply served by the HBM4E base die holding the panel. -/
  | mgv (o : MFields)
  /-- MROT (R467). Issues a Hadamard rotation of an FP32 tile in place. -/
  | mrot (o : MFields)
  /-- MZERO (R472). Issues a clear of an AM tile. -/
  | mzero (o : MFields)
  /-- MDRN (R458). Issues a drain of an AM tile through the converter into the scratchpad. -/
  | mdrn (o : MFields)
  /-- MPRI (R466). Changes the base priority of the strand's matrix-engine operations. -/
  | mpri (o : MFields)
  /-- LD (R442). Plain scalar load landing at its fixed latency. -/
  | ld (o : LMFields)
  /-- LDV (R446). Loads a row into a vector register. -/
  | ldv (o : LMFields)
  /-- LDS (R444). Speculative load that lands poisoned zero instead of trapping. -/
  | lds (o : LMFields)
  /-- LDA (R443). Scalar load with acquire at a scope. -/
  | lda (o : LMFields)
  /-- LATCH (R440). Receives the braid's lanyard broadcast into the own scratchpad at v + 3. -/
  | latch (o : LMFields)
  /-- PREF (R479). Prefetches a translated line into L2 and optionally L1. -/
  | pref (o : LMFields)
  /-- LDT (R445). Transient load that does not allocate an L1 line on a miss. -/
  | ldt (o : LMFields)
  /-- KVAD (R285). Maps a sequence position to its K or V record address and lands the entry state predicate. -/
  | kvad (o : LMFields)
  /-- LDX (R447). Timed load landing at an explicit landing offset through the landing buffer. -/
  | ldx (o : LDXFields)
  /-- ST (R509). Plain scalar store. -/
  | st (o : LMFields)
  /-- STV (R512). Stores the first n bytes of an AM row. -/
  | stv (o : LMFields)
  /-- STX (R513). Transient store that does not allocate a line. -/
  | stx (o : LMFields)
  /-- STL (R510). Scalar store with release at a scope. -/
  | stl (o : LMFields)
  /-- STP (R511). Converts the lanes of an AM row to a narrower format and stores them densely. -/
  | stp (o : LMFields)
  /-- AADD (R375). Atomic add to a memory word returning the old word. -/
  | aadd (o : WAFields)
  /-- AMIN (R383). Atomic minimum on a memory word. -/
  | amin (o : WAFields)
  /-- AMAX (R382). Atomic maximum on a memory word. -/
  | amax (o : WAFields)
  /-- AAND (R376). Atomic bitwise AND on a memory word. -/
  | aand (o : WAFields)
  /-- AOR (R387). Atomic bitwise OR on a memory word. -/
  | aor (o : WAFields)
  /-- AXOR (R389). Atomic bitwise XOR on a memory word. -/
  | axor (o : WAFields)
  /-- AXCH (R388). Atomic exchange of a memory word. -/
  | axch (o : WAFields)
  /-- ACAS (R377). Atomic compare-and-swap on a memory word. -/
  | acas (o : WAFields)
  /-- RADD (R481). Reduction add to a memory word, possibly merged in the switches. -/
  | radd (o : WAFields)
  /-- RMAX (R487). Reduction maximum on a memory word. -/
  | rmax (o : WAFields)
  /-- CPY (R406). Issues a contiguous copy on a copy-engine channel. -/
  | cpy (o : XFields)
  /-- CPYN (R409). Writes one level of a channel's copy nest. -/
  | cpyn (o : XFields)
  /-- CPYGO (R408). Issues a six-level nested copy capturing the channel's nest. -/
  | cpygo (o : XFields)
  /-- CPYG (R407). Issues a gather or scatter copy through an index list. -/
  | cpyg (o : XFields)
  /-- DRAIN (R413). Issues a channel drain that completes when earlier copies are visible at a scope. -/
  | drain (o : XFields)
  /-- BCAST (R390). Drives a scratchpad row onto the cluster lanyard. -/
  | bcast (o : XFields)
  /-- MCW (R457). Issues a write of bundles into a cluster microcode store. -/
  | mcw (o : XFields)
  /-- KVCP (R439). Clones a sequence's KV blocks copy-on-write, or releases them. -/
  | kvcp (o : XFields)
  /-- PFXL (R477). Looks up the longest cached prefix and clones it into a descriptor. -/
  | pfxl (o : XFields)
  /-- PFXI (R476). Inserts a sequence's leading chunks into the prefix tree. -/
  | pfxi (o : XFields)
  /-- SEND (R494). Sends a scratchpad range to a braid member at a fixed latency. -/
  | send (o : NFields)
  /-- RECV (R482). Receives a braid member's SEND into the own scratchpad. -/
  | recv (o : NFields)
  /-- RECVA (R483). Receives a SEND and adds each element into its destination. -/
  | recva (o : NFields)
  /-- RTR (R489). Posts a receive buffer for a PUT from a peer module. -/
  | rtr (o : NFields)
  /-- PUT (R480). Writes a local range into a buffer posted by a peer module. -/
  | put (o : NFields)
  /-- CPLN (R405). Launches a collective plan slot. -/
  | cpln (o : NFields)
  /-- KNOT (R437). Braid barrier at which members arrive and leave together. -/
  | knot
  /-- WAITQ (R529). Waits at group start until a token counter falls to a count. -/
  | waitq (q : BitVec 5) (n : BitVec 8)
  /-- FENCE (R414). Full, acquire or release fence at a scope. -/
  | fence (scope : BitVec 3) (kind : BitVec 2)
  /-- ACQH (R378). Acquires a tensor handle's span at a scope. -/
  | acqh (a : BitVec 6) (scope : BitVec 3)
  /-- RELH (R484). Releases a tensor handle's span at a scope. -/
  | relh (a : BitVec 6) (scope : BitVec 3)
  /-- LOCK (R448). Requests a lock word, waiting until granted. -/
  | lock (a : BitVec 6) (b : BitVec 6) (scope : BitVec 3)
  /-- LOCK_TRY (R448). Requests a lock word once and lands a predicate for grant or refusal. -/
  | lockTry (pd : BitVec 4) (a : BitVec 6) (b : BitVec 6) (scope : BitVec 3)
  /-- UNLOCK (R517). Releases a held lock word at a scope. -/
  | unlock (a : BitVec 6) (scope : BitVec 3)
  /-- SPAWN_NB (R504). Places a child task in the cluster pool, or lands false if the pool is full. -/
  | spawnNb (pd : BitVec 4) (a : BitVec 6) (b : BitVec 6)
  /-- SPAWN_B (R504). Places a child task in the cluster pool, parking the parent while the pool is full. -/
  | spawnB (pd : BitVec 4) (a : BitVec 6) (b : BitVec 6)
  /-- CANCEL (R399). Cancels the subtree of a cancel scope. -/
  | cancel (a : BitVec 6) (b : BitVec 6) (q : BitVec 5)
  /-- SCOPE_OPEN (R492). Opens a child of the current cancel scope. -/
  | scopeOpen (pd : BitVec 4) (a : BitVec 6)
  /-- SCOPE_CLOSE (R492). Closes the innermost scope the task opened. -/
  | scopeClose
  /-- SLEEP (R503). Pauses the strand or braid for a number of core cycles. -/
  | sleep (a : BitVec 6) (imm : BitVec 11)
  /-- WAITW (R530). Waits until a memory word meets a condition. -/
  | waitw (a : BitVec 6) (b : BitVec 6) (scope : BitVec 3) (cond : BitVec 2)
  /-- BFQ (R392). Enqueues a backfill job from microcode and lands a status. -/
  | bfq (a : BitVec 6) (b : BitVec 6)
  /-- SETQ (R495). Sets a token counter's count and threshold and clears CANC. -/
  | setq (q : BitVec 5) (g : BitVec 6) (th : BitVec 8)
  /-- G_OP (R427). Calls an operator, issuing its tile tasks to cluster pools. -/
  | gOp (r : GFields)
  /-- G_LOOP (R426). Opens a dimension loop. -/
  | gLoop (r : GFields)
  /-- G_ENDLOOP (R422). Increments a loop index and branches back while below the bound. -/
  | gEndloop (r : GFields)
  /-- G_BR (R419). Branches on a comparison of two dimension registers. -/
  | gBr (r : GFields)
  /-- G_CALL (R420). Pushes the return record and transfers to a target. -/
  | gCall (r : GFields)
  /-- G_RET (R428). Returns from a G.CALL, or at depth 0 waits for all work and ends the context. -/
  | gRet (r : GFields)
  /-- G_TENSOR (R433). Writes a tensor handle descriptor from a template. -/
  | gTensor (r : GFields)
  /-- G_VIEW (R434). Writes a descriptor as a view of another handle. -/
  | gView (r : GFields)
  /-- G_ALLOC (R418). Takes a scratchpad region from a cluster's allocator. -/
  | gAlloc (r : GFields)
  /-- G_FREE (R424). Returns a region to its allocator with buddy merging. -/
  | gFree (r : GFields)
  /-- G_SHARD (R431). Declares the mesh for lowering sharding attributes. -/
  | gShard (r : GFields)
  /-- G_SPAWN (R432). Calls an operator counted in a join counter. -/
  | gSpawn (r : GFields)
  /-- G_JOIN (R425). Waits for join counters or all earlier records, then acquires at CHIP. -/
  | gJoin (r : GFields)
  /-- G_SCOPE_OPEN (R429). Opens a child of WSCOPE and makes it current. -/
  | gScopeOpen (r : GFields)
  /-- G_SCOPE_CLOSE (R429). Closes WSCOPE and returns to its parent. -/
  | gScopeClose (r : GFields)
  /-- G_CANCEL (R421). Cancels a scope as a CANCEL issued by the walker. -/
  | gCancel (r : GFields)
  /-- G_EXIT_TEST (R292). Takes requesting sequences out of the layer stack and queues backfill jobs. -/
  | gExitTest (r : GFields)
  /-- G_EXIT_ADV (R293). Advances each sequence's CUR to its committed length and clears exit flags. -/
  | gExitAdv (r : GFields)
  /-- G_YIELD (R435). Puts the context into state 2 for a time or until a doorbell changes. -/
  | gYield (r : GFields)
  /-- G_SETDIM (R430). Writes a dimension register from an immediate, register or memory word. -/
  | gSetdim (r : GFields)
  /-- EMPTY_BUNDLE (R53). A bundle with no slot present issues and takes one step of VCC. -/
  | emptyBundle
  /-- GROUP_START (R58). A group whose start tests have come to hold after a stall issues its first bundle. -/
  | groupStart (sid : Nat)
  /-- KNOT_DEPART (R77). Two steps after the last member arrives, every member issues its KNOT bundle. -/
  | knotDepart (braid : Nat)
  /-- SLEEP_EXPIRE (R268). The SLEEP count of cycles runs out and the wait ends. -/
  | sleepExpire (sid : Nat)
  /-- WORD_WAIT_RECHECK (R268). A waited word is reread on a write at its home or every 4,096 cycles. -/
  | wordWaitRecheck (sid : Nat)
  /-- LOCK_GRANT (R265). After an UNLOCK's release the lock is handed to the highest-priority waiter. -/
  | lockGrant (addr : Nat)
  /-- LANDING_DATA_ARRIVE (R68). Late data of a landing-buffer entry arrives and lands with the effect of its own step. -/
  | landingDataArrive (sid : Nat) (entry : Nat)
  /-- CONTROL_STORE_FILL (R44). A control-store line fill completes and the stalled strand resumes. -/
  | controlStoreFill (core : Nat) (line : Nat)
  /-- TRANSLATION_RESOLVE (R179). A translation walk resolves or fails and the paused strand continues or traps. -/
  | translationResolve (sid : Nat)
  /-- HELD_WRITE_PERFORM (R236). A write held behind an ordering event leaves the write queue and performs. -/
  | heldWritePerform (sid : Nat)
  /-- ORDERING_EVENT_PERFORM (R234). A release, acquire or fence performs once its conditions hold, freeing held events. -/
  | orderingEventPerform (sid : Nat)
  /-- POD_FLUSH_GATHER (R221). The home gathers all flush markers of a POD release, which then performs. -/
  | podFlushGather (sid : Nat)
  /-- REDUCTION_APPLY (R222). A switch-merged reduction group is applied at its home as one update. -/
  | reductionApply (addr : Nat) (count : Nat)
  /-- MATRIX_OP_START (R146). The idle matrix engine starts the eligible operation of highest effective priority. -/
  | matrixOpStart (core : Nat)
  /-- MATRIX_PASS_END (R146). At a pass boundary the engine may suspend the running operation for a higher-priority one. -/
  | matrixPassEnd (core : Nat)
  /-- MATRIX_OP_COMPLETE (R147). An operation's last pass ends: busy counts fall and its produce counter decrements. -/
  | matrixOpComplete (core : Nat)
  /-- MGV_START (R157). A base die starts an MGV in priority order and translates its panel. -/
  | mgvStart (core : Nat)
  /-- MGV_COMPLETE (R157). The base die returns FP32 results written into the tile at completion. -/
  | mgvComplete (core : Nat)
  /-- COPY_OP_START (R206). A copy channel starts its next operation once Consume holds and the previous requested its last beat. -/
  | copyOpStart (core : Nat) (ch : Nat)
  /-- COPY_BEAT_WRITE (R206). A beat's data arrives and is written to the destination. -/
  | copyBeatWrite (core : Nat) (ch : Nat) (op : Nat)
  /-- COPY_OP_COMPLETE (R206). A copy operation completes the cycle after its last write performs. -/
  | copyOpComplete (core : Nat) (ch : Nat) (op : Nat)
  /-- DRAIN_COMPLETE (R207). A DRAIN completes when earlier channel writes are visible at its scope. -/
  | drainComplete (core : Nat) (ch : Nat)
  /-- TRANSFER_BEAT (R215). A SEND beat is written at the receiver at its step, completing the sides at their steps. -/
  | transferBeat (core : Nat)
  /-- PUT_MATCH (R217). A PUT meets the oldest matching post and begins writing into it. -/
  | putMatch (core : Nat) (op : Nat)
  /-- RENDEZVOUS_COMPLETE (R218). The last byte of a PUT is visible at its home and both counters complete. -/
  | rendezvousComplete (core : Nat) (op : Nat)
  /-- PLAN_ENTRY_START (R220). An eligible plan entry starts when its dependency counter reaches NEED. -/
  | planEntryStart (cluster : Nat) (launch : Nat)
  /-- PLAN_ENTRY_COMPLETE (R220). A plan entry completes and increments its signal counter. -/
  | planEntryComplete (cluster : Nat) (launch : Nat) (entry : Nat)
  /-- TASK_DISPATCH (R251). The sequencer dispatches the ready foreground entry of highest effective priority. -/
  | taskDispatch (cluster : Nat)
  /-- TASK_RESUME (R38). A continuation, evicted task or parked parent resumes on its strands. -/
  | taskResume (cluster : Nat)
  /-- AGE_TICK (R251). A ready entry's age rises after each 4,096 cycles undispatched. -/
  | ageTick (task : Nat)
  /-- BRAID_RESERVATION (R43). The oldest waiting braid task reserves cores after 65,536 cycles. -/
  | braidReservation (cluster : Nat)
  /-- EVICTION_MARK (R269). A starved high-priority entry marks low-priority victims after 4,096 cycles. -/
  | evictionMark (cluster : Nat)
  /-- EVICTION (R270). A marked victim is evicted at its yield or after 16,384 cycles by forced pre-emption. -/
  | eviction (task : Nat)
  /-- BALLAST_DISPATCH (R272). The sequencer dispatches a ballast task onto a free strand while demand stands. -/
  | ballastDispatch (cluster : Nat)
  /-- BALLAST_KILL (R273). A ballast task is killed when its strand is needed or demand falls. -/
  | ballastKill (task : Nat)
  /-- BACKFILL_DISPATCH (R296). A queued backfill job is dispatched on the least-loaded cluster of its die. -/
  | backfillDispatch (die : Nat)
  /-- BACKFILL_RETIRE (R297). A backfill job retires or fails, turning its entry VALID or DROPPED. -/
  | backfillRetire (task : Nat)
  /-- TASK_RETIRE (R39). A task whose microprograms ended and engine operations completed retires and frees its strand. -/
  | taskRetire (task : Nat)
  /-- RECORD_RETIRE (R39). An operator record retires when all its tasks and spawned tasks have retired. -/
  | recordRetire (record : Nat)
  /-- TERMINATION_SAMPLE (R258). The walker samples the module signal and steal counts to detect termination. -/
  | terminationSample (ctx : Nat)
  /-- TERMINATION_DECLARE (R258). Two agreeing samples 64 cycles apart declare termination and retire the spawning record. -/
  | terminationDeclare (ctx : Nat)
  /-- WEIGHT_FETCH (R259). A spawner at weight 1 fetches more weight from its record's walker. -/
  | weightFetch (task : Nat)
  /-- STEAL_TOKEN_PASS (R261). The load-summary token reaches a module, which requests or grants stolen tasks. -/
  | stealTokenPass (module : Nat) (count : Nat)
  /-- STOLEN_TASK_COMPLETION (R261). A completion message for a stolen task arrives and the victim adds it to DONE. -/
  | stolenTaskCompletion (task : Nat)
  /-- CANCEL_TAKE_EFFECT (R309). A CANCEL takes effect at a walker, sequencer, backfill queue or engine. -/
  | cancelTakeEffect (cancel : Nat) (unit : Nat)
  /-- CANCEL_COMPLETE (R311). When the subtree is quiescent the completion word is written and the counter completes. -/
  | cancelComplete (cancel : Nat)
  /-- PREEMPT_SAVE_COMPLETE (R319). After landings and engine operations finish, state is saved and the strand freed. -/
  | preemptSaveComplete (task : Nat)
  /-- HANDLE_REWRITE_PERFORM (R191). A held G.VIEW, G.TENSOR or G.FREE performs when the handle's reader and writer counts reach zero. -/
  | handleRewritePerform (ctx : Nat)
  /-- ALLOC_GRANT (R188). A waiting G.ALLOC is granted when a block frees, in order of arrival. -/
  | allocGrant (cluster : Nat)
  /-- YIELD_TIMER_EXPIRE (R435). The G.YIELD microsecond wait runs out and the context continues. -/
  | yieldTimerExpire (ctx : Nat)
  /-- DOORBELL_CHANGE (R435). A reread doorbell word differs from d(REG) and the wait ends. -/
  | doorbellChange (ctx : Nat)
  /-- RECORD_WAIT_END (R416). A record waiting on a condition (pool, scoreboard, join, queue) takes effect once it holds. -/
  | recordWaitEnd (ctx : Nat)
  /-- CTX_START (R331). CTXCMD action 0 starts a context or resumes its saved state. -/
  | ctxStart (ctx : Nat)
  /-- CTX_STOP (R331). CTXCMD action 1 discards all work and frees the context's regions and root scope. -/
  | ctxStop (ctx : Nat)
  /-- CTX_PREEMPT_KEEP (R331). CTXCMD action 2 saves every task and the walker state. -/
  | ctxPreemptKeep (ctx : Nat)
  /-- CTX_PREEMPT_DISCARD (R331). CTXCMD action 3 kills every unretired work item without a completion word. -/
  | ctxPreemptDiscard (ctx : Nat)
  /-- CTXCMD_COMPLETE (R331). A context command finishes and BUSY clears. -/
  | ctxcmdComplete
  /-- STRANDCMD_RESUME (R315). Reissues the frozen strand's unperformed slots at the held VCC. -/
  | strandcmdResume (target : Nat)
  /-- STRANDCMD_HANDLER (R316). Starts handler mode at HANDLER with the trap state frozen. -/
  | strandcmdHandler (target : Nat) (handler : Nat)
  /-- STRANDCMD_KILL (R315). Kills the frozen task and reports it with the trap's class. -/
  | strandcmdKill (target : Nat)
  /-- STRANDCMD_PREEMPT (R315). Saves the strand or braid under forced pre-emption. -/
  | strandcmdPreempt (target : Nat)
  /-- SPARE_MAP (R334). SPARECMD pre-empts a core and restores it onto a spare of the same die. -/
  | spareMap (die : Nat) (core : Nat)
  /-- TINV_PAGE (R183). Shoot-down of one page of an ASID. -/
  | tinvPage (asid : Nat) (va : Nat) (size : Nat)
  /-- TINV_ASID (R183). Shoot-down of every page of an ASID. -/
  | tinvAsid (asid : Nat)
  /-- TINV_ALL (R183). Shoot-down of every page of every ASID. -/
  | tinvAll
  /-- SHOOTDOWN_COMPLETE (R183). Once operations holding old translations finish, the count is written and BUSY clears. -/
  | shootdownComplete
  /-- FRQHEAD_WRITE (R318). Software advances FRQHEAD, accepted only within one ring of FRQTAIL, freeing held producers. -/
  | frqheadWrite (value : Nat)
  /-- KV_POOL_CONFIG_WRITE (R278). A write to KVPOOLVA, KVPOOLSZ or KVREFVA takes effect only when idle and resets the free lists. -/
  | kvPoolConfigWrite (offset : Nat) (value : Nat)
  /-- PFXVA_WRITE (R278). A write to PFXVA; clearing EN drops every prefix tree node. -/
  | pfxvaWrite (value : Nat)
  /-- PLAN_STORE_WRITE (R219). A write to a plan slot's entries is held while a launch of that slot runs. -/
  | planStoreWrite (cluster : Nat) (offset : Nat) (value : Nat)
  /-- REGISTER_WRITE (R323). A write to a device register with no behaviour of its own. -/
  | registerWrite (offset : Nat) (value : Nat)
  /-- HOST_ACCESS (R329). A PCIe host access through BAR0 or BAR2; writes perform as CHIP releases. -/
  | hostAccess (bar : Nat) (write : Bool) (offset : Nat) (value : Nat)
  /-- FRAME_RECEIVE (R329). An Ethernet port receives a frame into its descriptor ring with time-stamping. -/
  | frameReceive (port : Nat) (bytes : List Byte)
  /-- FRAME_TRANSMIT (R329). An Ethernet port sends a frame from its descriptor ring. -/
  | frameTransmit (port : Nat)
  /-- POWER_ON (R325). The boot ROM verifies flash slots and boots the first that passes, or enters recovery. -/
  | powerOn
  /-- ATTESTATION_REPORT (R328). Produces a signed report of the nonce and the measurement list. -/
  | attestationReport (nonce : List Byte)
  /-- POWER_CONTROL_TICK (R332). Every 10 µs the power controller limits rises, falls and the cap. -/
  | powerControlTick (watts : Nat)
  /-- TELEMETRY_RECORD (R333). At each 1 ms interval end a telemetry record is written to the ring. -/
  | telemetryRecord
  /-- HEARTBEAT (R338). I/O die 0's controllers send a heartbeat every 1 ms. -/
  | heartbeat
  /-- FAILOVER (R338). After 10 ms without a heartbeat I/O die 1 takes over and IOD1 is set. -/
  | failover
  /-- LANE_REPLACE (R336). A failed Hawser lane is replaced by a spare with retransmission. -/
  | laneReplace (link : Nat)
  /-- CORE_RETIRE (R20). Hardware retires a failed core by mapping in a spare or removing it from its cluster. -/
  | coreRetire (die : Nat) (core : Nat)
  /-- SCRUB_PASS (R192). The scrubber reads and corrects words of scratchpad, AM, L2 and HBM4E. -/
  | scrubPass (word : Nat)
  /-- UNCORRECTABLE_ERROR (R317). An uncorrectable error arises in a strand's own state and kills its task with class MCHK. -/
  | uncorrectableError (sid : Nat)
  /-- CHANNEL_RETIRE (R335). Firmware marks an HBM4E channel retired after moving its pages, and RETCH rises by 1. -/
  | channelRetire (channel : Nat)
  /-- FLASH_SLOT_SWITCH (R336). The control cores switch to the other flash slot, one I/O die at a time, so new firmware and keys take effect. -/
  | flashSlotSwitch (die : Nat)
  /-- PTP_LOCK_CHANGE (R333). The PTP clock of the Ethernet ports gains or loses lock, which changes the UNLOCK bit and time-stamp accuracy. -/
  | ptpLockChange (locked : Bool)
  /-- HAWSER_LINK_DOWN (R221). A Hawser link goes down, so its path stops carrying sprayed traffic and INVENTORY.LINKS falls. -/
  | hawserLinkDown (link : Nat)
  /-- HAWSER_LINK_UP (R221). A Hawser link comes up and its path rejoins the paths that are up. -/
  | hawserLinkUp (link : Nat)
  /-- MODULE_REMOVAL (R337). A module is removed from its chassis while the pod keeps running, so accesses to it fail with MCHK. -/
  | moduleRemoval (module : Nat)
deriving DecidableEq, Repr

end Sys2Proof
end

