-- ==== Sys2Proof/Config.lean ====
section
/-! DEFINITION. What an implementation fixes and what the manual leaves free: opaque constants, which no proof can evaluate,
each applied to a counter of the state or to the operands it depends on. -/

namespace Sys2Proof

/-- Who moves next: a slack strand issues a bundle, a braid steps, a cluster's splice chooses its strands for a core cycle, a
graph walker decodes a record, core cycles pass, or an event of the table happens. The rest is what the manual says happens without an
event of the table: the system of a control core sets its address space and where its code lies (R15, R173), or starts a strand of it
at a bundle index; firmware writes the inactive flash slot (R336); a transfer that the walker has made of a sharding attribute takes its
next step (R223, R225); and a consumer takes an entry of a stage queue (R226). -/
inductive Turn where
  | strand (sid : Nat)
  | braid (key : Nat)
  | splice (cluster : Nat)
  | walker (ctx : Nat)
  | cycles (n : Nat)
  | event (i : Instr)
  | ctrlSpace (core asid root code : Nat)
  | ctrlStart (sid index : Nat)
  | flashWrite (die : Nat) (bytes : List (List Byte))
  | lowered (id : Nat)
  | stageTake (ctx : Nat)
deriving DecidableEq, Repr, Inhabited

/-- The turn taken when the agenda is empty (R552: the device may take any permitted time; log entry 6). -/
opaque Config.nextTurn : Nat → Turn

/-- A free number, one for each value of the state's counter of free values. -/
opaque Config.freeNat : Nat → Nat

/-- The SHAKE256 digest of FIPS 202 with an output of `n` bytes (R325, R328); the manual gives it by reference. -/
opaque Config.shake256 : Nat → List Byte → List Byte

/-- ML-DSA-65 verification of FIPS 204: key, message, signature (R325, R326). -/
opaque Config.mldsaVerify : List Byte → List Byte → List Byte → Bool

/-- ML-DSA-65 signing of FIPS 204: private key, message (R328). -/
opaque Config.mldsaSign : List Byte → List Byte → List Byte

/-- ML-DSA-65 key generation of FIPS 204 from a seed: the private key (R327). -/
opaque Config.mldsaKey : List Byte → List Byte

/-- The 256-bit secret that the boot block of a module rebuilds from the power-up state of its SRAM and the helper data (R327). -/
opaque Config.bootSecret : Nat → List Byte → List Byte

/-- The number of records of the graph program that begins at a GBASE: R32 speaks of the program's end, and no rule says how the walker
knows it (log entry 55). A record's index has 32 bits (R25). -/
opaque Config.programRecords : Nat → BitVec 33

/-- The bytes of the graph image, records and pool, that begins at a GBASE: firmware measures the image (R328), and no rule says how long
it is (log entry 55). -/
opaque Config.imageBytes : Nat → Nat

/-- The HBM4E address at which the PCIe window BAR2 begins, which the flash configuration sets (R329). -/
opaque Config.barBase : Nat

/-- The digest of the root public key that mask ROM holds (R325). -/
opaque Config.romDigest : List Byte

end Sys2Proof
end

