-- ==== Sys2Proof/Machine/State.lean ====
section
/-! DEFINITION. The state of the module as plain data: every piece of state the manual gives it, the reasons a step can stop,
and the state right after reset. -/

namespace Sys2Proof.Machine

open Sys2Proof

/-- The trap classes (R313, Table 12-6). -/
inductive TrapClass where
  | illenc | illdep | illslot | illfmt | illshape | pgflt | accv | align | poison | lockself | tokovf
  | cancelled | mchk | trap | preempt
deriving DecidableEq, Repr

/-- The code of a trap class (Table 12-6). -/
def TrapClass.code : TrapClass → Nat
  | .illenc => 1 | .illdep => 2 | .illslot => 3 | .illfmt => 4 | .illshape => 5 | .pgflt => 6 | .accv => 7 | .align => 8
  | .poison => 9 | .lockself => 10 | .tokovf => 11 | .cancelled => 12 | .mchk => 13 | .trap => 14 | .preempt => 15

/-- The address part of a trap: faulting address, access kind and level reached (Table 12-7). -/
structure FaultInfo where
  fva   : Nat := 0
  kind  : Nat := 0
  level : Nat := 0
deriving DecidableEq, Repr

/-- A register value with its poison bit (R88). -/
structure Reg where
  val    : Word
  poison : Bool
deriving DecidableEq, Repr

/-- A token counter (Table 4-1). -/
structure Tok where
  outst  : Nat
  thresh : Nat
  canc   : Bool
deriving DecidableEq, Repr

/-- A result on its way to its landing (R60): the destination and the value. Rows are absolute AM rows, fixed at issue (R93). -/
inductive LandVal where
  | g (r : Nat) (v : Word) (poison : Bool)
  | p (r : Nat) (v : Bool)
  | row (row : Nat) (bytes : List Byte) (poison : List Bool)
  | creg (n : Nat) (v : Word)
  | fmtr (v : BitVec 21)
  | scope (v : Nat)
  | bytes (addr : Nat) (bytes : List Byte) (poison : List Bool)
  | latch (pd addr cell size braid vcc : Nat)
deriving DecidableEq, Repr

/-- A shadow latch entry (R105): the order of issue, slot, landing VCC, the result, and FROZEN while a handler runs (R321). -/
structure Latch where
  id     : Nat
  slot   : Nat
  due    : Nat
  frozen : Bool
  val    : LandVal
deriving DecidableEq, Repr

/-- The extension of a scalar load (Table 14-9). -/
structure LoadForm where
  size   : Nat
  signed : Bool
deriving DecidableEq, Repr

/-- An ordering event kind (Table 9-2). -/
inductive OrdKind where
  | full | acq | rel | acqh | relh | acqLoad
deriving DecidableEq, Repr

/-- An L-slot or W-slot access to an address (R441, R505, R369, R454): what is done there once it is reached. Places and rows
are fixed at issue; `land` is the landing VCC. A LATCH's write is a store of its landing step (R213), with the poison it brings; `desc` is the descriptor read of an ACQH or RELH
(R235). -/
inductive AccOp where
  | load (d : Nat) (form : LoadForm) (land : Nat) (spec acq : Bool)
  | loadRow (row n land : Nat)
  | store (bytes : List Byte) (rel : Bool) (scope : Nat)
  | latch (bytes : List Byte) (poison : List Bool)
  | unlock (scope : Nat)
  | desc (kind : OrdKind) (scope : Nat)
  | atomic (fn ty : Nat) (x cmp : Word) (d land order scope entry : Nat)
  | reduce (fn ty : Nat) (x : Word) (order scope : Nat)
deriving DecidableEq, Repr

/-- An access: its address, size in bytes, slot and effect, and whether a miss fills an L1 line (R445). -/
structure Access where
  addr : Nat
  size : Nat
  slot : Nat
  op   : AccOp
  fill : Bool
deriving DecidableEq, Repr

/-- What a landing buffer entry still waits for: nothing more than its data, a load held behind an ordering event, which is
performed when its data arrives (R236), a release atomic in the write queue (R370), or a KVAD under WAIT (R285). -/
inductive LbReq where
  | data
  | held (a : Access) (pieces : List (Nat × Nat))
  | queued
  | kvad (desc pos layer : Nat) (blk : Bool) (pd : Nat)
deriving DecidableEq, Repr

/-- A landing buffer entry (R67, R106): its landing VCC, its results, whether its data has arrived, and what a late entry has lost
to landings at later steps (R63, R68): destinations with the number of their bytes. -/
structure LandEntry where
  id      : Nat
  due     : Nat
  vals    : List LandVal
  arrived : Bool
  frozen  : Bool
  req     : LbReq
  newer   : List ((Nat × Nat) × Nat)
deriving DecidableEq, Repr

/-- A NEST attachment (Table 3-6): kinds 0 increment, 1 length binding, 2 rewind. -/
structure Attach where
  addr  : Nat
  aux   : Nat
  value : Word
  kind  : Nat
deriving DecidableEq, Repr

/-- A nest level (Table 3-6). -/
structure NestLevel where
  active  : Bool
  counter : Nat
  trip    : Nat
  start   : Nat
  stop    : Nat
  depth   : Nat
  atts    : List Attach
  saved   : List Word
deriving DecidableEq, Repr

/-- A register update that the end of an iteration makes at the next step (R82): an increment, or a rewind. -/
structure NestUpd where
  reg    : Nat
  rewind : Bool
  val    : Word
deriving DecidableEq, Repr

/-- One level of a channel's copy nest (R202). -/
structure CopyLevel where
  count : Nat
  ss    : Word
  ds    : Word
deriving DecidableEq, Repr

/-- A taken transfer whose target has not issued (R65, R85, R374): the step it takes effect, the target, the new call depth,
the return index pushed, if any, and whether it ends the levels whose body it leaves (R83). -/
structure Redirect where
  due    : Nat
  target : Nat
  depth  : Nat
  push   : Option Nat
  leave  : Bool
deriving DecidableEq, Repr

/-- The replay buffer (R106): the held bundle and its performed bits, S at bit 9 down to Y at bit 0 (Table 12-7). -/
structure Replay where
  bundle : Nat
  perf   : Nat
deriving DecidableEq, Repr

/-- The trap a frozen strand holds (R314): class, code, first failing slot, address part, and whether its record and report are
made, which waits for an earlier slot of the bundle that is paused. -/
structure TrapInfo where
  cls    : TrapClass
  code   : Nat
  slot   : Nat
  info   : FaultInfo
  posted : Bool
deriving DecidableEq, Repr

/-- Handler mode (R316): the held MPC and VCC, the held bundle's place in program order, the replay buffer, the frozen redirect and
register updates, and the trap it was entered for. -/
structure Handler where
  hmpc   : Nat
  hvcc   : Nat
  base   : Nat
  replay : Option Replay
  redirect : Option Redirect
  nestUpd : List NestUpd
  trap   : TrapInfo
deriving DecidableEq, Repr

/-- What a bundle reads or writes for the dependence checks (R56): registers, predicates, AM rows, token counters. -/
inductive Res where
  | g (n : Nat) | p (n : Nat) | row (n : Nat)
deriving DecidableEq, Repr

/-- The open group of a strand (R55 to R57): bundles issued so far, what they write, the counters they produce into, the bundle of its
last special function (R64), and the entries of the core's queues that its bundles still to come will take (R58). -/
structure Group where
  fresh  : Bool
  count  : Nat
  writes : List Res
  prods  : List Nat
  sfAt   : Option Nat
  claims : Map Nat
deriving DecidableEq, Repr

/-- A group that has not begun. -/
def Group.new : Group := ⟨true, 0, [], [], none, []⟩

/-- What a strand waits for. `stall` is a failed group-start test (R58); `pass` is set once a wait's condition was met, until
its bundle issues. -/
inductive Wait where
  | none
  | stall
  | late
  | fill (line : Nat)
  | xlat
  | counter (q n : Nat)
  | word (addr va cmp cond : Nat)
  | lock (addr : Nat)
  | sleep (till : Nat)
  | knot
  | idleYield
  | idleEnd
  | queueFull
  | braidFrozen
deriving DecidableEq, Repr

/-- The outcome a wait instruction already has when its bundle issues: a lock decided with the old word, a SLEEP or WAITW over,
a pool entry held for a SPAWN.b, a knot departed. -/
inductive Pass where
  | none
  | lock (old : Nat) (granted : Bool)
  | done
  | pool
deriving DecidableEq, Repr

/-- What an entry of a strand's write queue is (R234, R236): an ordering event (for ACQH and RELH with its span), or a write
with its virtual address and the physical places it goes to. -/
inductive WqKind where
  | order (kind : OrdKind) (scope lo hi : Nat)
  | write (va : Nat) (pieces : List (Nat × Nat)) (op : AccOp)
deriving DecidableEq, Repr

/-- An entry of a strand's write queue: its place in program order, what it is, and whether a POD release has its flush markers
gathered (R221). -/
structure WqItem where
  id       : Nat
  what     : WqKind
  gathered : Bool
deriving DecidableEq, Repr

/-- An engine failure not yet taken (R148, R204): class, address, access kind and translation level. -/
structure EngineFail where
  cls   : TrapClass
  fva   : Nat
  kind  : Nat
  level : Nat
deriving DecidableEq, Repr

/-- A strand with a task bound to it (Table 4-12). `base` is the place of its open bundle in program order, in which slot k has
place base + k (R228), `draws` is SRSTATE as it stood before an STP that is paused for its translation (R116), `timer` the cycle of a SLEEP's first group-start attempt (R268), `opened` counts SCOPE's opens and closes, and
`opens` names the scopes still open, innermost first (R307). -/
structure Strand where
  task     : Nat
  g        : Map Reg
  p        : Map Bool
  q        : Map Tok
  cr       : Map Word
  scopeId  : Nat
  trapRec  : Word
  inherit  : Nat
  fmtr     : BitVec 21
  vcc      : Nat
  mpc      : Nat
  depth    : Nat
  rstack   : List Nat
  nest     : Map NestLevel
  cnest    : Map CopyLevel
  latches  : List Latch
  lb       : List LandEntry
  redirect : Option Redirect
  replay   : Option Replay
  trap     : Option TrapInfo
  handler  : Option Handler
  grp      : Group
  wait     : Wait
  pass     : Pass
  wq       : List WqItem
  fails    : List EngineFail
  xlat     : List Access
  draws    : Option Word
  opened   : Nat
  opens    : List Nat
  bundle   : Nat
  base     : Nat
  timer    : Option Nat
  ending   : Bool
  returning : Bool
  nestUpd  : List NestUpd
  member   : Nat
  braid    : Option Nat
  amBase   : Nat
  amRows   : Nat
deriving DecidableEq, Repr

/-- A strand before any dispatch: R34 with no origin, extent or task. -/
def Strand.idle : Strand where
  task := 0
  g := []
  p := []
  q := []
  cr := []
  scopeId := 0
  trapRec := 0
  inherit := 0
  fmtr := 0x11
  vcc := 0
  mpc := 0
  depth := 0
  rstack := []
  nest := []
  cnest := []
  latches := []
  lb := []
  redirect := none
  replay := none
  trap := none
  handler := none
  grp := Group.new
  wait := .none
  pass := .none
  wq := []
  fails := []
  xlat := []
  draws := none
  opened := 0
  opens := []
  bundle := 0
  base := 0
  timer := none
  ending := false
  returning := false
  nestUpd := []
  member := 0
  braid := none
  amBase := 0
  amRows := 0

/-- What a report says of an engine operation, taken at its issue (Table 12-8): record index, operator entry, home scope, context and
strand of its task. -/
structure Stamp where
  recIdx : Nat
  entry  : Nat
  scope  : Nat
  ctx    : Nat
  strand : Nat
deriving DecidableEq, Repr

/-- The operations of the matrix engine and the MGV queue (R136). -/
inductive MKind where
  | mma | mgv | mrot | mzero | mdrn
deriving DecidableEq, Repr

/-- A matrix engine or MGV operation from its issue to its completion (R145, R157): everything it captured at issue. `since` is the
cycle of its issue or of its last suspension, and while it runs the cycle at which the work of its next pass begins; `waited`
counts its earlier cycles without running; `pages` are an MGV's translated pages. `id` is its place in the order of issue and `pos`
that in its strand's program order; `prio` is its base priority before cycle `turns` and `next` the one from then on (R154). -/
structure MOp where
  id      : Nat
  pos     : Nat
  kind    : MKind
  sid     : Nat
  task    : Nat
  stamp   : Stamp
  vcc     : Nat
  base    : Nat
  n       : Nat
  m       : Nat
  mode    : Nat
  fmtr    : BitVec 21
  aAddr   : Nat
  bAddr   : Nat
  aStride : Nat
  bStride : Nat
  dStride : Nat
  dfmt    : Nat
  ascale  : Nat
  bscale  : Nat
  dscale  : Nat
  r       : Nat
  draws   : List Nat
  prod    : Nat
  cons    : List Nat
  prio    : Nat
  turns   : Nat
  next    : Nat
  waited  : Nat
  started : Bool
  running : Bool
  passes  : Nat
  since   : Nat
  pages   : List (Nat × Nat × Nat)
  fail    : Option EngineFail
  cut     : Bool
deriving DecidableEq, Repr

/-- The kinds of copy engine operation (R199). -/
inductive XKind where
  | copy | mcw | drain (scope : Nat) | kvcp | pfxl | pfxi
deriving DecidableEq, Repr

/-- The innermost copies of an operation, by its parameters (R203, R457). -/
inductive XPlan where
  | none
  | linear (src dst len : Nat)
  | nest (src dst len : Nat) (levels : List CopyLevel)
  | list (src dst esz idx count : Nat) (scatter : Bool)
  | store (src cluster index count : Nat)
deriving DecidableEq, Repr

/-- A copy engine operation (R199 to R207): how many innermost copies it makes, the index of the next, and of that one the places
once its translation is made, the bytes already written, and those read with the last word of a beat and not yet written (R231). -/
structure XOp where
  id      : Nat
  pos     : Nat
  kind    : XKind
  sid     : Nat
  task    : Nat
  stamp   : Stamp
  vcc     : Nat
  a1      : Word
  a2      : Word
  a3      : Word
  plan    : XPlan
  total   : Nat
  next    : Nat
  places  : Option (List (Nat × Nat) × List (Nat × Nat))
  written : Nat
  carry   : List (Byte × Bool)
  prod    : Nat
  cons    : List Nat
  started : Bool
  since   : Nat
  fail    : Option EngineFail
  cut     : Bool
deriving DecidableEq, Repr

/-- A posted receive buffer (R217, R220): the module and tag it waits for, who posted it (a core's operation, or an entry of a
plan launch of a cluster), the buffer and its address space, and a REDUCE's type. -/
structure Post where
  src   : Nat
  tag   : Nat
  plan  : Bool
  core  : Nat
  nop   : Nat
  entry : Nat
  addr  : Nat
  len   : Nat
  asid  : Nat
  root  : Nat
  red   : Option Nat
deriving DecidableEq, Repr

/-- The kinds of communication unit operation (R214). -/
inductive NKind where
  | send | recv | recva (ty : Nat) | rtr | put | cpln (slot : Nat)
deriving DecidableEq, Repr

/-- A communication unit operation from issue to completion (R214 to R220): `issued` is the VCC of its issue, `lat` the steps from
there to its first beat or its completion, `paired` whether a SEND and a RECV match, `post` the post that a PUT met. -/
structure NOp where
  id      : Nat
  pos     : Nat
  kind    : NKind
  sid     : Nat
  task    : Nat
  stamp   : Stamp
  peer    : Nat
  addr    : Nat
  len     : Nat
  key     : Nat
  tag     : Nat
  bases   : List Word
  prod    : Nat
  cons    : Nat
  issued  : Nat
  data    : List Byte
  dataPo  : List Bool
  lat     : Nat
  beats   : Nat
  paired  : Bool
  post    : Option Post
  started : Bool
  cut     : Bool
deriving DecidableEq, Repr

/-- An L1 line (R177): ASID, virtual line, physical line, WR bit. -/
structure L1Line where
  asid : Nat
  va   : Nat
  pa   : Nat
  wr   : Bool
deriving DecidableEq, Repr

/-- A line of a control core's instruction cache (R15, R177): ASID, virtual line, and the bundle in it. -/
structure ILine where
  asid   : Nat
  va     : Nat
  bundle : BitVec 512
deriving DecidableEq, Repr

/-- A compute or control core's state shared by its strands. `codeBase` is the virtual address of a control core's program (log entry
9), and `icache` its instruction cache; `issuedAt` is one more than the cycle of its last issue (Table 13-4). -/
structure Core where
  busy     : Map Nat
  mq       : List MOp
  gq       : List MOp
  chans    : Map (List XOp)
  nq       : List NOp
  cs       : List (Nat × List (BitVec 512))
  l1       : List L1Line
  lastPrim : Map Nat
  sfu      : Nat
  codeBase : Nat
  icache   : List ILine
  removed  : Bool
  issuedAt : Nat
deriving DecidableEq, Repr

def Core.idle : Core := ⟨[], [], [], [], [], [], [], [], 0, 0, [], false, 0⟩

/-- A buddy allocator (R185, R278): free blocks and allocated blocks, each an order and a first unit. -/
structure Buddy where
  free : List (Nat × Nat)
  used : List (Nat × Nat)
deriving DecidableEq, Repr

/-- A running launch of a plan slot (R220), under the number of its CPLN: the entries started, each with its place in the order of
starts, the entries finished, and the one that failed. -/
structure Launch where
  id       : Nat
  core     : Nat
  slot     : Nat
  first    : Nat
  count    : Nat
  bases    : List Word
  counters : Map Nat
  started  : Map Nat
  finished : List Nat
  failed   : Option (Nat × TrapClass)
deriving DecidableEq, Repr

/-- A broadcast on the lanyard (R211, R212): step, driving member, bytes and their poison. -/
structure Bcast where
  vcc    : Nat
  member : Nat
  bytes  : List Byte
  poison : List Bool
deriving DecidableEq, Repr

/-- A cluster's state. `oldest` and `top` are the oldest waiting braid task (R43) and the ready entry of highest EP (R269), each with the
cycle since when; `demand` is the ballast demand (R272). -/
structure Cluster where
  regions   : Buddy
  owners    : Map Nat
  allocWait : List (Nat × Nat)
  plan      : Map (BitVec 128)
  slots     : Map Word
  planHeld  : List (Nat × Word)
  launches  : List Launch
  reserve   : Option Nat
  oldest    : Option (Nat × Nat)
  demand    : Nat
  top       : Option (Nat × Nat)
deriving DecidableEq, Repr

/-- The region allocator before any G.ALLOC: one free 4 MiB block in each of the eight scratchpads (R185). -/
def Buddy.regions : Buddy := ⟨[(10, 0), (10, 1024), (10, 2048), (10, 3072), (10, 4096), (10, 5120), (10, 6144), (10, 7168)], []⟩

def Cluster.idle : Cluster := ⟨Buddy.regions, [], [], [], [], [], [], none, none, 0, none⟩

/-- An active braid (R40): members' strands, collisions lost on each core (R70), the step at which its knot departs (R77), and the
broadcasts that a LATCH may still take (R74, R213). -/
structure Braid where
  task    : Nat
  members : List Nat
  lost    : Map Nat
  depart  : Option Nat
  bcasts  : List Bcast
deriving DecidableEq, Repr

/-- Where a work item stands (R249, R306). -/
inductive TaskStatus where
  | pool | running | yielded | evicted | parked | saved | frozenEnd | ended | away | queued
deriving DecidableEq, Repr

/-- What a task is (R249). -/
inductive TaskKind where
  | op | child | backfill | ballast
deriving DecidableEq, Repr

/-- A microprogram of a task's fusing group (R32): record index, entry, origins, extents, descriptor addresses, handles with their
spans (R51), and the walker's dimension registers as its record issued (R26, R235). -/
structure Micro where
  recIdx  : Nat
  entry   : Nat
  origin  : List Nat
  extent  : List Nat
  descs   : List Word
  spans   : List (Nat × Nat × Nat)
  dims    : Map Word
deriving DecidableEq, Repr

/-- A box of a task on a handle (R190): the handle, its base, the span, and whether the task reads and writes it. -/
structure Box where
  handle : Nat
  base   : Nat
  lo     : Nat
  hi     : Nat
  read   : Bool
  write  : Bool
deriving DecidableEq, Repr

/-- The sequence part of a task (R281, R282) or backfill job (R295): descriptor, layer, count or position, append at retire. -/
structure SeqPart where
  desc  : Nat
  layer : Nat
  count : Nat
  pos   : Nat
  app   : Bool
deriving DecidableEq, Repr

/-- A strand taken off its core (R319): its number, its state, and its AM window with the window's poison. -/
structure Saved where
  sid    : Nat
  strand : Strand
  rows   : List Byte
  marks  : List Bool
deriving DecidableEq, Repr

/-- A work item: a tile task, a spawned child, a backfill job or a ballast task. `args` and `crs` are registers and control
registers that its dispatch gives beside R34; `saving` is the status it takes once a forced pre-emption has saved it; `after` names
the parent and the place in its program order whose earlier writes must be visible (R254); `gang` is a saved braid's line; `hold`
names the member strands for which a pool entry is held, and `asker` the one that parked (R254). -/
structure Task where
  id       : Nat
  kind     : TaskKind
  status   : TaskStatus
  ctx      : Nat
  record   : Nat
  cluster  : Nat
  micros   : List Micro
  at_      : Nat
  ordinal  : Nat
  width    : Nat
  amRows   : Nat
  home     : Nat
  scopeId  : Nat
  prio     : Nat
  steal    : Bool
  args     : Map Word
  crs      : Map Word
  seq      : Option SeqPart
  boxes    : List Box
  region   : Bool
  weight   : Nat
  age      : Nat
  nextAge  : Nat
  readyAt  : Nat
  started  : Nat
  strands  : List Nat
  gang     : Option Braid
  line     : Option Nat
  saved    : List Saved
  saving   : Option TaskStatus
  after    : Option (Nat × Nat)
  marked   : Option Nat
  hold     : List Nat
  asker    : Nat
  victimOf : Nat
  failed   : Option TrapClass
deriving DecidableEq, Repr

/-- An issued operator record that has not retired (R39, R255): its tasks made and returned, the weight it started with and has fetched,
what has returned and what the walker still has to hand out (R259), the join counter it counts in (R432), whether it spawned and its
termination was declared (R258), the sequence table it names (R294), and its handles with their bases (R26, R187). -/
structure OpRecord where
  id       : Nat
  ctx      : Nat
  recIdx   : Nat
  issuing  : Bool
  join     : Option Nat
  spawned  : Bool
  declared : Bool
  seqt     : Nat
  total    : Nat
  returned : Nat
  wTotal   : Nat
  wBack    : Nat
  wLeft    : Nat
  handles  : List (Nat × Nat)
deriving DecidableEq, Repr

/-- What the walker of a context waits for (R416). -/
inductive CtxWait where
  | none
  | record
  | alloc
  | rewrite
  | timer (till : Nat)
  | bell (addr d : Nat)
  | quiescent (cancel : Nat)
deriving DecidableEq, Repr

/-- The walker state of a graph context (R24, R173, R330, R417). -/
structure Walker where
  gpc    : Nat
  gbase  : Nat
  htva   : Nat
  asid   : Nat
  troot  : Nat
  d      : Map Word
  stack  : List Nat
  wscope : Nat
  wopen  : Nat
  root   : Nat
  j      : Map Nat
  mesh   : List Word
deriving DecidableEq, Repr

def Walker.idle : Walker := ⟨0, 0, 0, 0, 0, [], [], 0, 0, 0, [], []⟩

/-- A graph context: its state code (0 stopped, 1 running, 2 waiting, 3 faulted), its walker, its saved copy and the block that
holds it (R24, R331), the tasks of the current record already issued (R32, R249), the sequences it has named (R303), and whether its
work was discarded, or is being saved (R322). -/
structure Ctx where
  state   : Nat
  walker  : Walker
  wait    : CtxWait
  saved   : Option Walker
  block   : Nat
  trap    : Option (TrapClass × Nat × Nat)
  issued  : Nat
  progress : Nat
  seqs    : List Nat
  discarded : Bool
  leaving : Bool
deriving DecidableEq, Repr

def Ctx.idle : Ctx := ⟨0, Walker.idle, .none, none, 0, none, 0, 0, [], false, false⟩

/-- A translation cache entry (R178): die, ASID, page, page size, physical page, permissions. -/
structure TlbEntry where
  die  : Nat
  asid : Nat
  va   : Nat
  size : Nat
  pa   : Nat
  rd   : Bool
  wr   : Bool
deriving DecidableEq, Repr

/-- A scope table entry (Table 12-1); an identifier without one is not valid. -/
structure ScopeEntry where
  live      : Nat
  closed    : Bool
  cancelled : Bool
  depth     : Nat
  ctx       : Nat
  parent    : Nat
deriving DecidableEq, Repr

/-- A CANCEL that has not completed (R308, R311): issuer, counter, completion word, counts, units it has taken effect at. -/
structure CancelOp where
  id      : Nat
  target  : Nat
  void    : Bool
  word    : Nat
  stamp   : Stamp
  sid     : Option Nat
  task    : Nat
  prod    : Nat
  ctx     : Nat
  killed  : Nat
  removed : Nat
  taken   : List Nat
deriving DecidableEq, Repr

/-- A waiter of a lock (R265): its strand, and the order in which it came. -/
structure Waiter where
  sid   : Nat
  since : Nat
deriving DecidableEq, Repr

/-- What the lock unit holds for a lock word (R265, R266): the strand and the task that hold it, those that have released it and
keep what its waiters lend until the hand-off, the waiters, and a hand-off that has begun. -/
structure LockUnit where
  holder  : Option (Nat × Nat)
  giver   : Option (Nat × Nat)
  waiters : List Waiter
  handing : Bool
deriving DecidableEq, Repr

/-- A node of the prefix tree (R300): namespace, chain of chunks from the root, extent (base, stride), last use. -/
structure PfxNode where
  ns     : Nat
  path   : List (List Nat)
  base   : Nat
  stride : Nat
  used   : Nat
deriving DecidableEq, Repr

/-- A kill that waits (R310, R318): for the bundle boundary of its task, or of its control core's strand, and for room in the fault
report queue. `slot` is that of the trap that kills, if one does (R316). -/
structure Doom where
  task : Nat
  sid  : Nat
  cls  : TrapClass
  slot : Option Nat
deriving DecidableEq, Repr

/-- A bundle of a microcode store that 8-byte stores or the beats of a copy have changed in part: where it lies, what it was, and who
has still to make its writes visible (R46, R248): twice its task and a strand, or 1 and a copy operation. A fill takes it as it was. -/
structure PartBundle where
  addr    : Nat
  old     : BitVec 512
  writers : List (Nat × Nat)
deriving DecidableEq, Repr

/-- A fault report entry (Table 12-8). -/
structure Report where
  kind   : Nat
  cls    : TrapClass
  info   : Nat
  recIdx : Nat
  entry  : Nat
  q      : Nat
  index  : Nat
  scope  : Nat
  ctx    : Nat
  strand : Nat
deriving DecidableEq, Repr

/-- A contribution held in the switches (R222): the strand that issued it with its place there and its task, the address, the word,
function, type, operand. -/
structure SwRed where
  sid : Nat
  id : Nat
  task : Nat
  va : Nat
  pa : Nat
  fn : Nat
  ty : Nat
  x  : Nat
deriving DecidableEq, Repr

/-- Work stealing and termination (R257 to R261); `token` is the module that the load-summary token has reached, and when. -/
structure Steal where
  sent    : Map Nat
  done    : Map Nat
  counts  : Map Nat
  request : Option Nat
  token   : Option (Nat × Nat)
  samples : Map (List (Nat × Bool × Nat × Nat))
deriving DecidableEq, Repr

/-- The configuration of a flash slot (R326): repaired rows, spares used per die, retired channels, lanes replaced per link. -/
structure BootConfig where
  repair  : List Nat
  spares  : Map Nat
  retired : List Nat
  lanes   : Map Nat
deriving DecidableEq, Repr

def BootConfig.empty : BootConfig := ⟨[], [], [], []⟩

/-- A flash slot (R325, R326): root key, first-stage image and its signature; the owner keys of its key manifest and its signature; the
configuration with its key and signature; and the stages after it, each with key, image and signature. -/
structure FlashSlot where
  rootKey : List Byte
  image   : List Byte
  sig     : List Byte
  owners  : List (List Byte)
  ownSig  : List Byte
  config  : BootConfig
  confKey : List Byte
  confSig : List Byte
  stages  : List (List Byte × List Byte × List Byte)
deriving DecidableEq, Repr

/-- The boot and security block (R325 to R328, R338). Flash also holds the helper data and the certificate of the identity key (R327);
`held` says that I/O die 1 is held in reset (R325). -/
structure Boot where
  phase    : Nat
  held     : Bool
  slot     : Nat
  flash    : Map FlashSlot
  helper   : List Byte
  cert     : List Byte
  key      : List Byte
  measured : List (Nat × List Byte)
  report   : List Byte
  beats    : Nat
deriving DecidableEq, Repr

/-- Power control (R332, R272): the power of the interval before, the sum and the highest of the samples of this one and their
number, whether dispatch and engine starts are held, and the intervals that have begun since a power register was written. -/
structure Power where
  prev  : Nat
  sum   : Nat
  peak  : Nat
  ticks : Nat
  hold  : Bool
  age   : Nat
deriving DecidableEq, Repr

/-- The counters of the telemetry record (Table 13-4) and of the events the manual says are counted. `holding` says that an engine
operation or a record holds its report for a full ring; `act` and `mact` count the core cycles with an issue and the busy cycles of
matrix engines of this interval, which began at cycle `from_`. -/
structure Telem where
  seq     : Nat
  late    : Nat
  lwait   : Nat
  rampev  : Nat
  ballast : Nat
  ballastCyc : Nat
  cecc    : Nat
  uecc    : Nat
  frqhold : Nat
  holding : Bool
  misses  : Nat
  act     : Nat
  mact    : Nat
  from_   : Nat
deriving DecidableEq, Repr

/-- An Ethernet port (R329): the frames received and the frames sent, each with its time stamp. -/
structure Port where
  rx   : List (Nat × List Byte)
  sent : List (Nat × List Byte)
deriving DecidableEq, Repr

/-- The KV pool's allocator (R278). -/
structure KvPool where
  blocks  : Buddy
deriving DecidableEq, Repr

/-- Service state: links down, retired channels, repaired rows, absent modules, spares used per die (R20, R21, R334 to R337), the context
command in progress with its context and action (R331), and the core that a spare is being mapped in for (R334). -/
structure Service where
  down     : List Nat
  retired  : List Nat
  absent   : List Nat
  spares   : Map Nat
  lanes    : Map Nat
  repair   : List Nat
  ptpLock  : Bool
  removed  : Bool
  command  : Option (Nat × Nat)
  mapping  : Option Nat
deriving DecidableEq, Repr

/-- A descriptor's fields (Table 14-17); sizes as the DIM fields hold them. -/
structure Handle where
  valid   : Bool
  region  : Bool
  base    : Nat
  fmt     : Nat
  rank    : Nat
  layout  : Nat
  shard   : Nat
  dims    : List Nat
  strides : List Int
deriving DecidableEq, Repr

/-- What the walker makes of a handle's sharding attribute (Table 8-6); `release` is the end of what an all-gather brought. -/
inductive Lowering where
  | allGather | release | reduceScatter | allReduce | gather | allToAll | ring
deriving DecidableEq, Repr

/-- A transfer that the walker has made of a sharding attribute for a record (R223 to R225): the context, the record, what it is, the
handle's descriptor and sizes, the dimension that is split, the mesh axis it is split over, how many of its D − 1 steps it has made and
how many blocks it has forwarded, and whether it goes before the record's tasks or after them. -/
structure Lowered where
  id     : Nat
  ctx    : Nat
  record : Nat
  kind   : Lowering
  h      : Handle
  sizes  : List Nat
  dim    : Nat
  axis   : Nat
  step   : Nat
  sent   : Nat
  first  : Bool
deriving DecidableEq, Repr

/-- The module. `agenda` is who moves next and `now` counts core cycles; `cur`, `slot` and `curCtx` name the strand, the slot
and the context that act; `free` counts the free values taken and `nextId` the names given to operations and tasks. These
seven are the model's own. `kvWait` are the requests that wait for a block of the KV pool, in order of arrival: (0, context) or
(1, task) (R279); `stageq` is how many micro-batches stand in a context's stage queue (R226). -/
structure State where
  agenda   : List Turn
  now      : Nat
  free     : Nat
  nextId   : Nat
  cur      : Nat
  slot     : Nat
  curCtx   : Nat
  module   : Nat
  mem      : List Host.Cell
  poison   : List Nat
  strands  : Map Strand
  cores    : Map Core
  parts    : List PartBundle
  clusters : Map Cluster
  braids   : Map Braid
  tasks    : Map Task
  records  : Map OpRecord
  ctxs     : Map Ctx
  ctrl     : Map (Nat × Nat)
  tlb      : List TlbEntry
  scopes   : Map ScopeEntry
  cancels  : Map CancelOp
  locks    : Map LockUnit
  kv       : KvPool
  pfx      : List PfxNode
  backfill : Map (List Nat)
  frqHeld  : List Report
  doomed   : List Doom
  dev      : Map Word
  tinvCount : Nat
  tinvWait : Option (List Nat)
  kvWait   : List (Nat × Nat)
  lowered  : List Lowered
  stageq   : Map Nat
  posts    : List Post
  swRed    : List SwRed
  steal    : Steal
  boot     : Boot
  power    : Power
  telem    : Telem
  ports    : Map Port
  service  : Service
deriving DecidableEq, Repr

/-- Why the machine stops. -/
inductive Fault where
  /-- Raised by every step once MODULE_REMOVAL has taken this module out of its chassis (R337): no part is left to step. Safe:
  no claim about a running module can use it. -/
  | moduleRemoved
deriving DecidableEq, Repr

/-- Why an instruction has no meaning. -/
inductive Refusal where
  /-- Raised by an arm of exec whose instruction has no meaning yet, with its mnemonic. Safe: nothing is claimed of it. -/
  | notModelled (mnemonic : String)
deriving DecidableEq, Repr

/-- The device registers at reset (Tables 7-5, 11-3, 12-5, 13-2, 13-3 and R262); every other register resets to 0. Keys are the
offsets of Table 13-1. -/
def resetRegs : Map Word :=
  [(0x0000, BitVec.ofNat 64 (640 * 2 ^ 40 + 32 * 2 ^ 24 + 36 * 2 ^ 18)),
   (0x0200, BitVec.ofNat 64 (64 * 2 ^ 12 + 4)),
   (0x0510, 10), (0x0610, 2800), (0x0618, 10)]

/-- The module right after reset: every microcode store holds zero with valid check bits (R29), no context is started, no
strand is dispatched, the registers hold their reset values, and nothing is on the agenda but the schedule. -/
def State.reset : State where
  agenda := []
  now := 0
  free := 0
  nextId := 1
  cur := 0
  slot := 0
  curCtx := 0
  module := 0
  mem := []
  poison := []
  strands := []
  cores := []
  parts := []
  clusters := []
  braids := []
  tasks := []
  records := []
  ctxs := []
  ctrl := []
  tlb := []
  scopes := []
  cancels := []
  locks := []
  kv := ⟨⟨[], []⟩⟩
  pfx := []
  backfill := []
  frqHeld := []
  doomed := []
  dev := resetRegs
  tinvCount := 0
  tinvWait := none
  kvWait := []
  lowered := []
  stageq := []
  posts := []
  swRed := []
  steal := ⟨[], [], [], none, none, []⟩
  boot := ⟨0, false, 0, [], [], [], [], [], [], 0⟩
  power := ⟨0, 0, 0, 0, false, 2⟩
  telem := ⟨0, 0, 0, 0, 0, 0, 0, 0, 0, false, 0, 0, 0, 0⟩
  ports := []
  service := ⟨[], [], [], [], [], [], true, false, none, none⟩

end Sys2Proof.Machine
end

