-- ==== Sys2Proof/Machine/Mem.lean ====
section
/-! DEFINITION. Memory: one list of cells in canonical form for the pod physical space (R167, R168), the scratchpads (R162) and
the accumulator memories (R93), and the poison marks of its 64-bit words (R193, R194). -/

namespace Sys2Proof.Machine

open Sys2Proof

/-- The canonical form: addresses strictly rising from `lo` on, and no entry equal to what an unlisted address reads as. -/
def Memory.wfFrom : Nat → List Host.Cell → Bool
  | _, [] => true
  | lo, (a, b) :: m => decide (lo ≤ a) && b != 0 && Memory.wfFrom (a + 1) m

/-- The canonical form of a memory. -/
def Memory.wf (m : List Host.Cell) : Bool := Memory.wfFrom 0 m

/-- The byte an address reads as; an unlisted address reads 0 (log entry 1). -/
def cellGet : List Host.Cell → Nat → Byte
  | [], _ => 0
  | (k, v) :: m, a => if k = a then v else cellGet m a

/-- The memory with byte `b` at `a`; writing 0 removes the entry. -/
def cellSet : List Host.Cell → Nat → Byte → List Host.Cell
  | [], a, b => if b = 0 then [] else [(a, b)]
  | (k, v) :: m, a, b =>
    if a < k then (if b = 0 then (k, v) :: m else (a, b) :: (k, v) :: m)
    else if a = k then (if b = 0 then m else (a, b) :: m)
    else (k, v) :: cellSet m a b

/-- The bytes from `a` on, `n` of them. -/
def cellsGet (m : List Host.Cell) (a : Nat) : Nat → List Byte
  | 0 => []
  | n + 1 => cellGet m a :: cellsGet m (a + 1) n

/-- The memory with a run of bytes written from `a` on. -/
def cellsSet (m : List Host.Cell) (a : Nat) : List Byte → List Host.Cell
  | [] => m
  | b :: bs => cellsSet (cellSet m a b) (a + 1) bs

/-- The memory with the bytes from `lo` up to `hi` zero. -/
def cellsClear (m : List Host.Cell) (lo hi : Nat) : List Host.Cell := m.filter (fun c => decide (c.1 < lo) || decide (hi ≤ c.1))

/-- A number put into a list in rising order, once. -/
def insertOnce (w : Nat) : List Nat → List Nat
  | [] => [w]
  | x :: xs => if w < x then w :: x :: xs else if w = x then x :: xs else x :: insertOnce w xs

/-- The poison marks after one word of a write: a full write clears the mark, and a poisoned byte sets it (R193 to R195). -/
def markWord (p : List Nat) (a n : Nat) (po : List Bool) (w : Nat) : List Nat :=
  let lo := Nat.max a (8 * w)
  let hi := Nat.min (a + n) (8 * w + 8)
  let p1 := if hi - lo = 8 then p.filter (fun x => x ≠ w) else p
  if ((po.drop (lo - a)).take (hi - lo)).any id then insertOnce w p1 else p1

/-- The words that `n` bytes at `a` touch. -/
def wordsOf (a n : Nat) : List Nat := if n = 0 then [] else span (a / 8) ((a + n - 1) / 8 - a / 8 + 1)

namespace State

/-- One byte of memory. -/
def peek (s : State) (a : Nat) : Byte := cellGet s.mem a

/-- `n` bytes of memory. -/
def bytesAt (s : State) (a n : Nat) : List Byte := cellsGet s.mem a n

/-- The little-endian number in `n` bytes of memory (R4). -/
def natAt (s : State) (a n : Nat) : Nat := leNat (s.bytesAt a n)

/-- The 8-byte word at `a`. -/
def wordAt (s : State) (a : Nat) : Word := BitVec.ofNat 64 (s.natAt a 8)

/-- Whether any word that `n` bytes at `a` touch is poisoned (R193). -/
def poisonIn (s : State) (a n : Nat) : Bool := (wordsOf a n).any (fun w => s.poison.contains w)

/-- For each of `n` bytes at `a`, whether its word is poisoned. -/
def poisonAt (s : State) (a n : Nat) : List Bool := (span a n).map (fun x => s.poison.contains (x / 8))

/-- A write of bytes with their poison flags (R194, R195). -/
def write (s : State) (a : Nat) (bs : List Byte) (po : List Bool) : State :=
  { s with
    mem := cellsSet s.mem a bs
    poison := (wordsOf a bs.length).foldl (fun p w => markWord p a bs.length po w) s.poison }

/-- A write of unpoisoned bytes. -/
def writeBytes (s : State) (a : Nat) (bs : List Byte) : State := s.write a bs []

/-- A write of an `n`-byte number. -/
def writeNat (s : State) (a n v : Nat) : State := s.writeBytes a (leBytes n v)

/-- The zero fill of R186: bytes zero and poison clear. -/
def zeroFill (s : State) (lo hi : Nat) : State :=
  { s with
    mem := cellsClear s.mem lo hi
    poison := s.poison.filter (fun w => decide (8 * w < lo) || decide (hi ≤ 8 * w)) }

/-- A word marked poisoned where it lies (R193). -/
def markPoison (s : State) (w : Nat) : State := { s with poison := insertOnce w s.poison }

/-- The next free value (log entry 7) and the state that has taken it. -/
def takeFree (s : State) : Nat × State := (Config.freeNat s.free, { s with free := s.free + 1 })

/-- A new name for an operation, a task or a landing, and the state that has given it. -/
def newId (s : State) : Nat × State := (s.nextId, { s with nextId := s.nextId + 1 })

end State

/-- Where the scratchpad of a core lies in the model's one list of cells: `gid` is 8 × cluster + core (log entry 1). -/
def spadBase (gid : Nat) : Nat := 2 ^ 58 + gid * 2 ^ 22

/-- Where the accumulator memory of a core lies in the model's one list of cells. -/
def amBase (gid : Nat) : Nat := 2 ^ 59 + gid * 2 ^ 20

/-- Where an AM row lies: 512 bytes a row (R93, Table 4-2). -/
def rowBase (gid row : Nat) : Nat := amBase gid + (row % 2048) * 512

/-- Where bundle `i` of a cluster's microcode store lies (Table 7-2, R52). -/
def ucodeBase (module cluster : Nat) : Nat := module * 2 ^ 48 + 0xF00000000000 + cluster * 0x400000

/-- The target of a local physical address (Table 7-2). -/
inductive Target where
  | hbm
  | window
  | ucode (cluster off : Nat)
  | dev (off : Nat)
  | none
deriving DecidableEq, Repr

/-- The row of Table 7-2 that a local physical address lies in. -/
def targetOf (a : Nat) : Target :=
  if a < 2 ^ 40 then .hbm
  else if a < 0x800000000000 then .none
  else if a < 0x800000000000 + 2 ^ 40 then .window
  else if a < 0xF00000000000 then .none
  else if a < 0xF00014000000 then .ucode ((a - 0xF00000000000) / 0x400000) ((a - 0xF00000000000) % 0x400000)
  else if a < 0xFF0000000000 then .none
  else if a < 2 ^ 48 then .dev (a - 0xFF0000000000)
  else .none

/-- The cell that a pod physical address names: a reduction window names the HBM4E word behind it (R171). -/
def homeOf (pa : Nat) : Nat :=
  match targetOf (pa % 2 ^ 48) with
  | .window => pa - 0x800000000000
  | _ => pa

/-- Whether the module of a pod physical address is in the pod and its frame is on a channel in use (R170). -/
def State.reachable (s : State) (pa : Nat) : Bool :=
  decide (pa / 2 ^ 48 < 288) && !(s.service.absent.contains (pa / 2 ^ 48)) &&
  !(pa / 2 ^ 48 == s.module && (targetOf (pa % 2 ^ 48) == .hbm || targetOf (pa % 2 ^ 48) == .window) &&
    s.service.retired.contains (pa / 2 ^ 16 % 512))

end Sys2Proof.Machine
end

