-- ==== Sys2Proof/Machine/Translate.lean ====
section
/-! DEFINITION. Translation: the walk over the tables (R174 to R176, R553), the translation caches (R178) and the L1s' lines
(R177), and the virtual addresses that the device itself uses. -/

namespace Sys2Proof.Machine

open Sys2Proof

/-- The kinds of access (Table 12-7 KIND): 0 load, 1 store, 2 atomic or reduction, 3 fetch. -/
inductive Kind where
  | load | store | atomic | fetch
deriving DecidableEq, Repr

def Kind.code : Kind → Nat
  | .load => 0 | .store => 1 | .atomic => 2 | .fetch => 3

/-- What a translation gives: a page, or the class and the level at which it fails (R176, R180). -/
inductive Walk where
  | page (va size pa : Nat) (rd wr : Bool)
  | fail (cls : TrapClass) (level : Nat)
deriving DecidableEq, Repr

/-- The lowest index bit of a level, which is the size of its leaf page as a power of two (Table 7-3). -/
def levelShift (lvl : Nat) : Nat := if lvl ≤ 1 then 16 else 3 + 9 * lvl

/-- The index of a virtual address at a level (Table 7-3). -/
def levelIndex (lvl va : Nat) : Nat := if lvl ≤ 1 then va / 2 ^ 16 % 32 else va / 2 ^ (3 + 9 * lvl) % 512

/-- Whether a valid translation entry is malformed at a level (R175). -/
def entryMalformed (e lvl : Nat) : Bool :=
  let leaf := bitAt e 1
  let addr := fieldN e 8 49 * 256
  let align := if leaf then levelShift lvl else if lvl ≤ 2 then 8 else 12
  fieldN e 57 7 != 0 || fieldN e 4 4 != 0 || addr % 2 ^ align != 0 || decide (287 < fieldN e 48 9) ||
  (leaf && decide (4 ≤ lvl)) || (!leaf && decide (lvl ≤ 1))

/-- The class with which a read of a table entry fails, if it cannot be made (R553). -/
def State.tableFault (s : State) (ea : Nat) : Option TrapClass :=
  if 288 ≤ ea / 2 ^ 48 then some .pgflt
  else if targetOf (ea % 2 ^ 48) ≠ .hbm then some .pgflt
  else if !s.reachable ea then some .mchk
  else if s.poisonIn ea 8 then some .mchk
  else none

/-- Whether the permissions of a leaf let an access through (R176). -/
def permits (k : Kind) (rd wr : Bool) : Bool :=
  match k with
  | .load => rd
  | .fetch => rd
  | .store => wr
  | .atomic => rd && wr

/-- The walk of R176 over the levels that remain, from the table at `a`. -/
def State.walkFrom (s : State) (va : Nat) (k : Kind) : List Nat → Nat → Walk
  | [], _ => .fail .pgflt 1
  | lvl :: rest, a =>
    let ea := a + levelIndex lvl va * 8
    match s.tableFault ea with
    | some c => .fail c lvl
    | none =>
      let e := s.natAt ea 8
      if !bitAt e 0 || entryMalformed e lvl then .fail .pgflt lvl
      else if bitAt e 1 then
        if permits k (bitAt e 2) (bitAt e 3) then
          .page (va / 2 ^ levelShift lvl * 2 ^ levelShift lvl) (2 ^ levelShift lvl) (fieldN e 8 49 * 256) (bitAt e 2) (bitAt e 3)
        else .fail .accv lvl
      else s.walkFrom va k rest (fieldN e 8 49 * 256)

/-- A walk from the level-5 table (R174). -/
def State.walk (s : State) (root va : Nat) (k : Kind) : Walk := s.walkFrom va k [5, 4, 3, 2, 1] root

/-- The level of a leaf page by its size (Table 7-3). -/
def sizeLevel (size : Nat) : Nat := if size = 2 ^ 30 then 3 else if size = 2 ^ 21 then 2 else 1

/-- The entry of a die's translation cache that maps an address (R178). -/
def State.tlbHit (s : State) (die asid va : Nat) : Option TlbEntry :=
  s.tlb.find? (fun e => e.die == die && e.asid == asid && decide (e.va ≤ va) && decide (va < e.va + e.size))

/-- The translation caches with a new entry of a die; a full cache loses one entry, which one is free (R178, log entry 8). -/
def State.tlbInsert (s : State) (e : TlbEntry) : State :=
  let same := s.tlb.filter (fun x => x.die == e.die)
  if same.length < 65536 then { s with tlb := e :: s.tlb }
  else
    let victim := same[Config.freeNat s.free % 65536]?
    { s with free := s.free + 1, tlb := e :: s.tlb.filter (fun x => some x != victim) }

/-- A translation at the L2 boundary of a die (R178): by the translation cache, or by a walk whose success is cached. -/
def State.translate (s : State) (die asid root va : Nat) (k : Kind) : Walk × State :=
  match s.tlbHit die asid va with
  | some e => (if permits k e.rd e.wr then .page e.va e.size e.pa e.rd e.wr else .fail .accv (sizeLevel e.size), s)
  | none =>
    match s.walk root va k with
    | .page base size pa rd wr => (.page base size pa rd wr, s.tlbInsert ⟨die, asid, base, size, pa, rd, wr⟩)
    | .fail c l => (.fail c l, s)

/-- The physical address under a page. -/
def Walk.pa? (w : Walk) (va : Nat) : Option Nat :=
  match w with
  | .page base _ pa _ _ => some (pa + (va - base))
  | .fail _ _ => none

/-- The address space of a control core: its ASID and TROOT, set by its operating system (R173, log entry 9). -/
def State.ctrlSpace (s : State) (core : Nat) : Nat × Nat := s.ctrl.get (0, 0) core

/-- The physical address of a virtual address that the device itself uses, SCOPEVA, SAVEVA and FRQBASE, in the space of control
core 0 (log entry 9). -/
def State.sysPa (s : State) (va : Nat) (k : Kind) : Option Nat := (s.walk (s.ctrlSpace 0).2 va k).pa? va

/-- A write by the device at a virtual address of its own; nothing is written where it does not translate (log entry 9). -/
def State.sysWrite (s : State) (va : Nat) (bs : List Byte) : State :=
  match s.sysPa va .store with
  | some pa => s.writeBytes pa bs
  | none => s

/-- A list of ranges cut at 64 KiB boundaries, the smallest page: a row may span two pages (R163). -/
def pageCut (va n : Nat) : List (Nat × Nat) :=
  if n = 0 then []
  else
    let head := Nat.min n (65536 - va % 65536)
    let rest := n - head
    (va, head) :: (span 0 (ceilDiv rest 65536)).map (fun i =>
      (va + head + 65536 * i, Nat.min 65536 (rest - 65536 * i)))

/-- An L1 line of a core that holds an address (R177). -/
def Core.l1Hit (c : Core) (asid va : Nat) : Option L1Line :=
  c.l1.find? (fun l => l.asid == asid && l.va == va / 64 * 64)

/-- The L1 with a line filled: a set of four ways, the way replaced being free (R177, log entry 8). -/
def Core.l1Fill (c : Core) (free : Nat) (l : L1Line) : Core :=
  let set := c.l1.filter (fun x => x.va / 64 % 256 == l.va / 64 % 256)
  if set.length < 4 then { c with l1 := l :: c.l1 }
  else
    let victim := set[Config.freeNat free % 4]?
    { c with l1 := l :: c.l1.filter (fun x => some x != victim) }

end Sys2Proof.Machine
end

