-- ==== Sys2Proof/Machine/Ops.lean ====
section
/-! DEFINITION. The named operations over strands, registers, landings, counters, scopes, locks and reports; taking a trap
(R314); and the return from both kinds of frozen state (R315, R316). -/

namespace Sys2Proof.Machine

open Sys2Proof

/-- A strand's number is STRANDID[15:0] (Table 4-5); bit 15 tells a control core. -/
def isCtrl (sid : Nat) : Bool := decide (2 ^ 15 ≤ sid)

/-- The core of a strand: 8 × cluster + core, or 4,096 + control core. -/
def gidOf (sid : Nat) : Nat := sid / 8

/-- The cluster of a strand (R11). -/
def clusterOf (sid : Nat) : Nat := sid / 64

/-- The die of a core: compute dies 0 to 7, then the two I/O dies (R11, R14). -/
def dieOf (gid : Nat) : Nat := if gid < 4096 then gid / 80 else 8 + (gid - 4096) / 32

/-- An entry that names no task. -/
def Task.empty : Task where
  id := 0
  kind := .op
  status := .ended
  ctx := 0
  record := 0
  cluster := 0
  micros := []
  at_ := 0
  ordinal := 0
  width := 1
  amRows := 0
  home := 0
  scopeId := 0
  prio := 0
  steal := false
  args := []
  crs := []
  seq := none
  boxes := []
  region := false
  weight := 0
  age := 0
  nextAge := 0
  readyAt := 0
  started := 0
  strands := []
  gang := none
  line := none
  saved := []
  saving := none
  after := none
  marked := none
  hold := []
  asker := 0
  victimOf := 0
  failed := none

/-- Whether a wait leaves the strand idle in its braid (R75, R77, R78). -/
def Wait.idle : Wait → Bool
  | .knot => true
  | .idleYield => true
  | .idleEnd => true
  | _ => false

/-- The AM regions of 32 rows that an operation's tile occupies (R95, R141). -/
def MOp.regions (o : MOp) : List Nat :=
  let lanes := if o.fmtr.toNat / 256 % 4 = 2 then 64 else 128
  (span 0 (ceilDiv o.n lanes)).map (fun j => (o.base / 32 + j) % 64)

/-- The busy counts with those of an operation's regions fallen by one (R141). -/
def unbusy (busy : Map Nat) (o : MOp) : Map Nat := o.regions.foldl (fun b r => b.set r (b.get 0 r - 1)) busy

/-- Whether an operation of a killed task goes at once: one not started, or a post not matched (Table 12-4). -/
def NOp.goes (o : NOp) : Bool :=
  !o.started || (match o.kind with
    | .rtr => o.post.isNone
    | _ => false)

def NestLevel.idle : NestLevel := ⟨false, 0, 0, 0, 0, 0, [], []⟩

namespace State

def strand (s : State) (sid : Nat) : Strand := s.strands.get Strand.idle sid
def setStrand (s : State) (sid : Nat) (t : Strand) : State := { s with strands := s.strands.set sid t }
def updStrand (s : State) (sid : Nat) (f : Strand → Strand) : State := s.setStrand sid (f (s.strand sid))

/-- The strand that acts. -/
def me (s : State) : Strand := s.strand s.cur
def updMe (s : State) (f : Strand → Strand) : State := s.updStrand s.cur f

def core (s : State) (gid : Nat) : Core := s.cores.get Core.idle gid
def updCore (s : State) (gid : Nat) (f : Core → Core) : State := { s with cores := s.cores.set gid (f (s.core gid)) }
def cluster (s : State) (k : Nat) : Cluster := s.clusters.get Cluster.idle k
def updCluster (s : State) (k : Nat) (f : Cluster → Cluster) : State := { s with clusters := s.clusters.set k (f (s.cluster k)) }
def task (s : State) (id : Nat) : Task := s.tasks.get Task.empty id
def updTask (s : State) (id : Nat) (f : Task → Task) : State :=
  match s.tasks.get? id with
  | some t => { s with tasks := s.tasks.set id (f t) }
  | none => s
def ctx (s : State) (c : Nat) : Ctx := s.ctxs.get Ctx.idle c
def updCtx (s : State) (c : Nat) (f : Ctx → Ctx) : State := { s with ctxs := s.ctxs.set c (f (s.ctx c)) }

/-- A device register by its offset (Table 13-1). -/
def devReg (s : State) (off : Nat) : Nat := (s.dev.get 0 off).toNat
def setDev (s : State) (off v : Nat) : State := { s with dev := s.dev.set off (BitVec.ofNat 64 v) }

/-- The task of a strand. -/
def taskOf (s : State) (sid : Nat) : Task := s.task (s.strand sid).task

/-- The address space of a strand: its context's, or its control core's (R173). -/
def space (s : State) (sid : Nat) : Nat × Nat :=
  if isCtrl sid then s.ctrlSpace (gidOf sid - 4096)
  else ((s.ctx (s.taskOf sid).ctx).walker.asid, (s.ctx (s.taskOf sid).ctx).walker.troot)

/-- The strands that step together with a strand: its braid's members, or itself (R40). -/
def gang (s : State) (sid : Nat) : List Nat :=
  match (s.strand sid).braid with
  | some b => match s.braids.get? b with
    | some x => x.members
    | none => [sid]
  | none => [sid]

/-- STRANDID[24:0] of a strand (Table 4-5). -/
def strandName (s : State) (sid : Nat) : Nat := s.module * 2 ^ 16 + sid

end State

namespace Strand

/-- A general register with its poison bit; g0 reads zero with poison clear (R88). -/
def reg (t : Strand) (r : Nat) : Reg := if r = 0 then ⟨0, false⟩ else t.g.get ⟨0, false⟩ r
def val (t : Strand) (r : Nat) : Word := (t.reg r).val
def pois (t : Strand) (r : Nat) : Bool := (t.reg r).poison

/-- A write of a general register; a write to g0 is discarded (R88). -/
def setReg (t : Strand) (r : Nat) (v : Word) (p : Bool) : Strand := if r = 0 then t else { t with g := t.g.set r ⟨v, p⟩ }

/-- A predicate; p0 reads true (R90). -/
def pred (t : Strand) (p : Nat) : Bool := p == 0 || t.p.get false p

/-- A write of a predicate; a write to p0 is discarded (R90). -/
def setPred (t : Strand) (p : Nat) (v : Bool) : Strand := if p = 0 then t else { t with p := t.p.set p v }

/-- Whether a guard is true (R90, R342). -/
def guard (t : Strand) (G : Guard) : Bool := t.pred G.p.toNat != G.neg

/-- A token counter; q0 is the null token (R91). -/
def tok (t : Strand) (q : Nat) : Tok := if q = 0 then ⟨0, 0, false⟩ else t.q.get ⟨0, 0, false⟩ q
def setTok (t : Strand) (q : Nat) (x : Tok) : Strand := if q = 0 then t else { t with q := t.q.set q x }

/-- Produce(q): one more operation outstanding (R91, R92). -/
def produce (t : Strand) (q : Nat) : Strand := t.setTok q { t.tok q with outst := (t.tok q).outst + 1 }

/-- The completion of an operation that produces into q (R92). -/
def complete (t : Strand) (q : Nat) (canc : Bool) : Strand :=
  t.setTok q ⟨(t.tok q).outst - 1, (t.tok q).thresh, (t.tok q).canc || canc⟩

/-- Consume(q): the counter is at or below its threshold (R91, R208). -/
def consumable (t : Strand) (q : Nat) : Bool := decide ((t.tok q).outst ≤ (t.tok q).thresh)

/-- A level of the nest unit (Table 3-6). -/
def level (t : Strand) (l : Nat) : NestLevel := t.nest.get NestLevel.idle l

/-- The value that a writable control register resets to at dispatch (Table 4-4). -/
def crReset (n : Nat) : Word :=
  match n with
  | 0x100 => 127 | 0x101 => 127 | 0x105 => 127
  | 0x102 => 256 | 0x103 => 256 | 0x104 => 256
  | 0x107 => 1
  | _ => 0

/-- A control register that software writes, as it stands. -/
def cw (t : Strand) (n : Nat) : Word := t.cr.get (crReset n) n
def cwn (t : Strand) (n : Nat) : Nat := (t.cw n).toNat

/-- The bits of a written value that a writable control register keeps (R96, Table 4-4). -/
def crKeep (n : Nat) (v : Word) : Word :=
  let x := v.toNat
  BitVec.ofNat 64 (match n with
    | 0x005 => x % 2 ^ 32
    | 0x006 => x % 2 ^ 11
    | 0x008 => x % 2
    | 0x009 => x / 64 * 64
    | 0x010 => x % 2 ^ 16
    | 0x030 => x % 16
    | 0x046 => x % 128
    | 0x107 => x % 2 ^ 16
    | 0x100 => x % 256
    | 0x101 => x % 256
    | 0x105 => x % 256
    | _ => x % 2 ^ 32)

/-- The base of the vector registers (R93). -/
def vwb (t : Strand) : Nat := t.cwn 0x006

/-- The AM row of a vector register (R93). -/
def vrow (t : Strand) (n : Nat) : Nat := (t.vwb + n) % 2048

/-- Base priority, and effective priority with what locks lend (R99, R266). -/
def prioBase (t : Strand) : Nat := t.cwn 0x030
def eff (t : Strand) : Nat := Nat.max t.prioBase t.inherit

/-- The item of a nest level that NEST7 shows (Table 4-9). -/
def nestItem (t : Strand) (sel : Nat) : Nat :=
  let lv := sel / 16 % 8
  let item := sel % 16
  if 6 ≤ lv then 0
  else
    let n := t.level lv
    if item = 0 then pack [(16, n.start), (16, n.stop), (16, 0), (4, n.depth), (11, 0), (1, n.active.toNat)]
    else if item < 5 then
      match n.atts[item - 1]? with
      | some a => pack [(6, a.addr), (6, a.aux), (2, a.kind), (49, 0), (1, 1)]
      | none => 0
    else if item < 9 then
      match n.atts[item - 5]? with
      | some a => a.value.toNat
      | none => 0
    else if item < 13 then (nth (0 : Word) n.saved (item - 9)).toNat
    else 0

/-- The free entries of the landing buffer (R67). -/
def landFree (t : Strand) : Nat := 32 - t.lb.length

/-- Whether a span read of the strand is held by an ordering event queued before it (Table 9-2). -/
def heldRead (t : Strand) (va n : Nat) : Bool :=
  t.wq.any (fun i => match i.what with
    | .order .full _ _ _ => true
    | .order .acq _ _ _ => true
    | .order .acqLoad _ _ _ => true
    | .order .acqh _ lo hi => decide (va ≤ hi) && decide (lo < va + n)
    | _ => false)

/-- Whether a write of the strand is held by an ordering event queued before it (Table 9-2). -/
def heldWrite (t : Strand) (va n : Nat) : Bool :=
  t.heldRead va n ||
  t.wq.any (fun i => match i.what with
    | .order .rel _ _ _ => true
    | .order .relh _ _ _ => true
    | _ => false)

/-- Whether an engine operation issued as `id` is held by a fence queued before it (R239). -/
def heldEngine (t : Strand) (id : Nat) : Bool :=
  t.wq.any (fun i => match i.what with
    | .order .full sc _ _ => decide (i.id < id) && decide (1 ≤ sc)
    | .order .rel sc _ _ => decide (i.id < id) && decide (1 ≤ sc)
    | _ => false)

end Strand

/-- An address as the strands of the cluster name it: the own scratchpad through its peer window (Table 7-1). Spans are compared so. -/
def peerVa (sid va : Nat) : Nat := if va < 0x400000 then 0x1000000 + gidOf sid % 8 * 0x400000 + va else va

/-- Whether two runs of cells meet. -/
def piecesMeet (a b : List (Nat × Nat)) : Bool :=
  a.any (fun x => b.any (fun y => decide (homeOf x.1 < homeOf y.1 + y.2) && decide (homeOf y.1 < homeOf x.1 + x.2)))

/-- The bytes of a run of places. -/
def piecesSize (ps : List (Nat × Nat)) : Nat := ps.foldl (fun n p => n + p.2) 0

/-- Whether an item of a write queue is a write. -/
def WqItem.isWrite (i : WqItem) : Bool :=
  match i.what with
  | .write _ _ _ => true
  | _ => false

/-- Whether an entry of the landing buffer is a read that has not performed. -/
def LandEntry.unread (e : LandEntry) : Bool := !e.arrived && e.req != .data

/-- An entry put into a write queue at its place in program order (R228). -/
def insertItem (i : WqItem) : List WqItem → List WqItem
  | [] => [i]
  | j :: js => if i.id < j.id then i :: j :: js else j :: insertItem i js

namespace Strand

/-- An ordering event or a write put into the strand's queue (R234, R236). -/
def enqueue (t : Strand) (i : WqItem) : Strand := { t with wq := insertItem i t.wq }

/-- Whether a write to these places waits for an earlier write or an earlier held load of the strand (R232). -/
def behind (t : Strand) (ps : List (Nat × Nat)) : Bool :=
  t.wq.any (fun i => match i.what with
    | .write _ qs _ => piecesMeet ps qs
    | _ => false) ||
  t.lb.any (fun e => match e.req with
    | .held _ qs => !e.arrived && piecesMeet ps qs
    | _ => false)

/-- Whether a read of these places waits for an earlier atomic or reduction that is queued, for an earlier read that is held, and,
when it is an acquire, for an earlier store (R230, R232). -/
def behindRead (t : Strand) (ps : List (Nat × Nat)) (acq : Bool) : Bool :=
  t.wq.any (fun i => match i.what with
    | .write _ qs (.store _ _ _) => acq && piecesMeet ps qs
    | .write _ qs (.latch _ _) => acq && piecesMeet ps qs
    | .write _ qs _ => piecesMeet ps qs
    | _ => false) ||
  t.lb.any (fun e => match e.req with
    | .held _ qs => !e.arrived && piecesMeet ps qs
    | _ => false)

/-- Whether an access of an earlier slot of the open bundle is paused for its translation (R179, R228). -/
def pausedBefore (t : Strand) (slot : Nat) : Bool := t.xlat.any (fun a => decide (a.slot < slot))

/-- A strand as it stands before a place in program order: what it has issued later is left out (R228). -/
def before (t : Strand) (id : Nat) : Strand :=
  { t with
    wq := t.wq.filter (fun i => decide (i.id < id))
    lb := t.lb.filter (fun e => decide (e.id < id))
    xlat := t.xlat.filter (fun a => decide (t.base + a.slot < id)) }

end Strand

/-- What a landing writes, as a key: its kind and its number. -/
def landKey : LandVal → Nat × Nat
  | .g r _ _ => (0, r)
  | .p r _ => (1, r)
  | .row r _ _ => (2, r)
  | .creg n _ => (3, n)
  | .fmtr _ => (4, 0)
  | .scope _ => (5, 0)
  | .bytes a _ _ => (6, a)
  | .latch pd _ _ _ _ _ => (1, pd)

/-- The number of bytes that a row's landing writes from its start; 1 for any other destination. -/
def LandVal.size : LandVal → Nat
  | .row _ bs _ => bs.length
  | _ => 1

/-- Landing-buffer entries that a landing at (due, id) holds over lose its destination, and of a row its bytes (R63, R68). -/
def Strand.supersede (t : Strand) (due id : Nat) (k : Nat × Nat) (n : Nat) : Strand :=
  { t with lb := t.lb.map (fun e =>
      if e.due < due || (e.due == due && decide (e.id < id)) then { e with newer := (k, n) :: e.newer } else e) }

/-- What an entry of core `gid` still lands: not a destination that a later landing holds, and of a row only the bytes after those
(R63, R68). -/
def LandEntry.left (gid : Nat) (e : LandEntry) : List LandVal :=
  e.vals.filterMap (fun v =>
    let n := (e.newer.filter (fun o => o.1 == landKey v)).foldl (fun m o => Nat.max m o.2) 0
    if n = 0 then some v
    else match v with
      | .row r bs po => if bs.length ≤ n then none else some (.bytes (rowBase gid r + n) (bs.drop n) (po.drop n))
      | _ => none)

/-- Insertion by landing step, then by order of issue (R63). -/
def insertDue (x : Nat × Nat × List LandVal) : List (Nat × Nat × List LandVal) → List (Nat × Nat × List LandVal)
  | [] => [x]
  | y :: ys => if x.1 < y.1 || (x.1 == y.1 && decide (x.2.1 < y.2.1)) then x :: y :: ys else y :: insertDue x ys

/-- Whether a latch lands by a VCC. -/
def Latch.lands (v : Nat) (l : Latch) : Bool := !l.frozen && decide (l.due ≤ v)

/-- Whether a landing-buffer entry lands by a VCC. -/
def LandEntry.lands (v : Nat) (e : LandEntry) : Bool := e.arrived && !e.frozen && decide (e.due ≤ v)

/-- What lands by a VCC in a strand of core `gid`, in the order of R63. -/
def Strand.dueList (t : Strand) (gid v : Nat) : List (Nat × Nat × List LandVal) :=
  ((t.latches.filter (Latch.lands v)).map (fun l => (l.due, l.id, [l.val])) ++
   (t.lb.filter (LandEntry.lands v)).map (fun e => (e.due, e.id, e.left gid))).foldl (fun acc x => insertDue x acc) []

/-- The report of an engine operation or of a CANCEL (Table 12-8). -/
def Stamp.report (p : Stamp) (kind : Nat) (cls : TrapClass) (info q index : Nat) : Report :=
  ⟨kind, cls, info, p.recIdx, p.entry, q, index, p.scope, p.ctx, p.strand⟩

namespace State

/-- The place in program order of the slot that acts (R228). -/
def posId (s : State) : Nat := s.me.base + s.slot

/-- What a LATCH receives, written as a store of its landing step (R213, R232, R234). -/
def landLatch (s : State) (sid va cell : Nat) (bs : List Byte) (po : List Bool) : State :=
  let t := s.strand sid
  let va := peerVa sid va
  let ps := [(cell, bs.length)]
  if t.heldWrite va bs.length || t.behind ps then
    { s with
      nextId := s.nextId + 1
      strands := s.strands.set sid (t.enqueue ⟨s.nextId, .write va ps (.latch bs po), false⟩) }
  else s.write cell bs po

/-- The broadcast that a braid drove at a step (R211 to R213). -/
def bcastAt (s : State) (braid vcc : Nat) : Option Bcast :=
  (s.braids.get? braid).bind (fun b => b.bcasts.find? (fun c => c.vcc == vcc))

/-- One result landing in its destination (R60). -/
def applyVal (s : State) (sid : Nat) : LandVal → State
  | .g r v p => s.updStrand sid (fun t => t.setReg r v p)
  | .p r v => s.updStrand sid (fun t => t.setPred r v)
  | .row row bs po => s.write (rowBase (gidOf sid) row) bs po
  | .creg n v => s.updStrand sid (fun t => { t with cr := t.cr.set n v })
  | .fmtr v => s.updStrand sid (fun t => { t with fmtr := v })
  | .scope v => s.updStrand sid (fun t => { t with scopeId := v })
  | .bytes a bs po => s.write a bs po
  | .latch pd va cell n b v =>
    match s.bcastAt b v with
    | some x => (s.landLatch sid va cell (x.bytes.take n) (x.poison.take n)).updStrand sid (fun t => t.setPred pd true)
    | none => s.updStrand sid (fun t => t.setPred pd false)

/-- The landings of a strand due by a VCC delivered (R60, R63, R68). -/
def deliverBy (s : State) (sid v : Nat) : State :=
  let t := s.strand sid
  let s1 := s.setStrand sid { t with
    latches := t.latches.filter (fun l => !l.lands v)
    lb := t.lb.filter (fun e => !e.lands v) }
  (t.dueList (gidOf sid) v).foldl (fun s x =>
    x.2.2.foldl (fun s w => (s.updStrand sid (fun t => t.supersede x.1 x.2.1 (landKey w) w.size)).applyVal sid w) s) s1

/-- The landings due at a strand's VCC delivered (R60). -/
def deliver (s : State) (sid : Nat) : State := s.deliverBy sid (s.strand sid).vcc

/-- What comes late delivered when it comes: every landing due before the strand's VCC (R68). -/
def deliverLate (s : State) (sid : Nat) : State :=
  if (s.strand sid).vcc = 0 then s else s.deliverBy sid ((s.strand sid).vcc - 1)

/-- The register updates of iterations that ended with the step before (R82). A rewind brings a value with no poison: the manual
speaks of poison for increments only (log entry 53). -/
def applyNest (s : State) (sid : Nat) : State :=
  s.updStrand sid (fun t =>
    t.nestUpd.foldl (fun t u =>
      if u.rewind then t.setReg u.reg u.val false
      else t.setReg u.reg (t.val u.reg + u.val) (t.pois u.reg)) { t with nestUpd := [] })

/-- Land(v + k, dest, value) by the slot that acts (R60, R105). -/
def land (s : State) (k : Nat) (v : LandVal) : State :=
  s.updMe (fun t => { t with latches := t.latches ++ [⟨s.posId, s.slot, t.vcc + k, false, v⟩] })

/-- A landing-buffer entry taken by the slot that acts (R67). -/
def landEntry (s : State) (k : Nat) (vals : List LandVal) (arrived : Bool) (req : LbReq) : State :=
  s.updMe (fun t => { t with lb := t.lb ++ [⟨s.posId, t.vcc + k, vals, arrived, false, req, []⟩] })

/-- A control register as MFC reads it (R96, Table 4-4). LANDFREE does not count the entry that an LDX of the MFC's own bundle takes
(log entry 53). -/
def creg (s : State) (sid n : Nat) : Nat :=
  let t := s.strand sid
  if n = 0x001 then t.vcc
  else if n = 0x002 then s.strandName sid
  else if n = 0x003 then
    match t.braid with
    | some b => pack [(2, b % 4), (2, 0), (3, t.member), (1, 1), (3, (s.gang sid).length - 1)]
    | none => 0
  else if n = 0x004 then t.scopeId
  else if n = 0x007 then t.fmtr.toNat
  else if n = 0x011 then t.trapRec.toNat
  else if n = 0x012 then t.mpc
  else if n = 0x020 then t.landFree
  else if n = 0x030 then t.prioBase + 16 * t.eff
  else if 0x040 ≤ n ∧ n < 0x046 then (t.level (n - 0x040)).counter + 2 ^ 32 * (t.level (n - 0x040)).trip
  else if n = 0x047 then t.nestItem (t.cwn 0x046)
  else if 0x080 ≤ n ∧ n < 0x0A0 then
    let q := t.tok (n - 0x080)
    q.outst + 256 * q.thresh + 65536 * q.canc.toNat
  else t.cwn n

/-- The completion of an engine operation at its issuing strand's counter, while that strand still runs its task (R66, R92). -/
def completeTok (s : State) (sid task q : Nat) (canc : Bool) : State :=
  if (s.strand sid).task = task then s.updStrand sid (fun t => t.complete q canc) else s

/-- An engine failure that the issuing strand has still to take (R148, R204). -/
def addFail (s : State) (sid task : Nat) (f : EngineFail) : State :=
  if (s.strand sid).task = task then s.updStrand sid (fun t => { t with fails := t.fails ++ [f] }) else s

/-! The fault report queue (R318). -/

/-- The number of entries of the fault report ring (Table 12-5). -/
def frqSize (s : State) : Nat :=
  let log := s.devReg 0x510 % 32
  2 ^ (if 10 ≤ log ∧ log ≤ 20 then log else 10)

/-- Whether the ring is full: a producer then holds its item (R318). -/
def frqFull (s : State) : Bool := decide ((s.devReg 0x518 + 2 ^ 32 - s.devReg 0x520) % 2 ^ 32 = s.frqSize)

/-- A fault report entry of 32 bytes (Table 12-8). -/
def Report.bits (r : Report) : Nat :=
  pack [(25, r.strand), (13, 0), (6, r.ctx), (4, r.kind), (8, r.cls.code), (8, 0), (16, r.scope), (16, 0), (32, r.index),
    (15, 0), (5, r.q), (12, r.entry), (32, r.recIdx), (64, r.info)]

/-- A report written to the ring (R318). -/
def writeReport (s : State) (r : Report) : State :=
  let base := s.devReg 0x510 / 4096 % 2 ^ 45 * 4096
  let s1 := s.sysWrite (base + 32 * (s.devReg 0x518 % s.frqSize)) (leBytes 32 (Report.bits r))
  s1.setDev 0x518 ((s.devReg 0x518 + 1) % 2 ^ 32)

/-- A report posted, or held while the ring is full (R318). -/
def postReport (s : State) (r : Report) : State :=
  if s.frqFull then { s with frqHeld := s.frqHeld ++ [r] } else s.writeReport r

/-- The microprogram that a task runs (R32). -/
def microOf (k : Task) : Micro :=
  match k.micros[k.at_]? with
  | some m => m
  | none => ⟨0, 0, [], [], [], [], []⟩

/-- A report about an item of a strand (Table 12-8). -/
def reportOf (s : State) (kind : Nat) (cls : TrapClass) (info q index sid task : Nat) : Report :=
  let k := s.task task
  ⟨kind, cls, info, (microOf k).recIdx, (microOf k).entry, q, index, k.home, k.ctx, s.strandName sid⟩

/-- What reports of an operation of a strand will say. -/
def stampOf (s : State) (sid : Nat) : Stamp :=
  let k := s.taskOf sid
  ⟨(microOf k).recIdx, (microOf k).entry, k.home, k.ctx, s.strandName sid⟩

/-! The scope table (R305 to R307). -/

/-- Whether a scope or an ancestor of it is cancelled (R306); at most 16 levels stand (Table 12-1). -/
def scopeCancelledFuel (s : State) : Nat → Nat → Bool
  | 0, _ => false
  | f + 1, n =>
    match s.scopes.get? n with
    | some e => e.cancelled || s.scopeCancelledFuel f e.parent
    | none => false

def scopeCancelled (s : State) (n : Nat) : Bool := n != 0 && s.scopeCancelledFuel 16 n

/-- The units at which a CANCEL takes effect (R309): 80 clusters, 8 backfill queues, 64 walkers. -/
def cancelUnits : List Nat := span 0 152

/-- The units that have taken a new CANCEL of a scope from the start: all of them where the scope was cancelled before and every unit has
taken that (R309). -/
def takenAlready (s : State) (t : Nat) : List Nat :=
  if ((s.scopes.get? t).map (·.cancelled)).getD false && s.cancels.all (fun c => c.2.target != t) then cancelUnits else []

/-- The scope at which a CANCEL that has been marked has not yet reached a unit (R309): its pending CANCELs, none of which the unit
has taken. -/
def cancelPending (s : State) (unit t : Nat) : Bool :=
  let cs := s.cancels.filter (fun c => c.2.target == t)
  !cs.isEmpty && cs.all (fun c => !(c.2.taken.contains unit))

def deadAtFuel (s : State) (unit : Nat) : Nat → Nat → Bool
  | 0, _ => false
  | f + 1, n =>
    match s.scopes.get? n with
    | some e => (e.cancelled && !s.cancelPending unit n) || s.deadAtFuel unit f e.parent
    | none => false

/-- Whether a scope is cancelled as a unit sees it (R306, R309). Units are the 80 clusters, the backfill queues of the 8 dies at 80,
and the 64 walkers at 88. -/
def deadAt (s : State) (unit n : Nat) : Bool := n != 0 && s.deadAtFuel unit 16 n

/-- Whether a scope is `t` or a descendant of it (R308). -/
def scopeUnderFuel (s : State) (t : Nat) : Nat → Nat → Bool
  | 0, _ => false
  | f + 1, n => n == t || (match s.scopes.get? n with
    | some e => e.parent != 0 && s.scopeUnderFuel t f e.parent
    | none => false)

def scopeUnder (s : State) (t n : Nat) : Bool := s.scopeUnderFuel t 17 n

/-- A scope table entry of 16 bytes (Table 12-1). -/
def scopeBits (e : Option ScopeEntry) : Nat :=
  match e with
  | none => 0
  | some e => pack [(16, e.parent), (32, 0), (6, e.ctx), (4, e.depth), (3, 0), (1, e.cancelled.toNat), (1, e.closed.toNat),
      (1, 1), (32, 0), (32, e.live)]

/-- The scope unit writes an entry of the table in HBM4E (R305). -/
def scopeSync (s : State) (n : Nat) : State :=
  s.sysWrite (s.devReg 0x500 / 2 ^ 20 % 2 ^ 37 * 2 ^ 20 + 16 * n) (leBytes 16 (scopeBits (s.scopes.get? n)))

def setScope (s : State) (n : Nat) (e : ScopeEntry) : State := ({ s with scopes := s.scopes.set n e } : State).scopeSync n

/-- An entry of the table freed. A CANCEL whose scope is freed has no work left to reach (R311). -/
def scopeDrop (s : State) (n : Nat) : State :=
  ({ s with
    scopes := s.scopes.del n
    cancels := s.cancels.map (fun c => if c.2.target = n then (c.1, { c.2 with target := 0 }) else c) } : State).scopeSync n

/-- Free(n) of R307. -/
def scopeFreeFuel (s : State) : Nat → Nat → State
  | 0, _ => s
  | f + 1, n =>
    match s.scopes.get? n with
    | none => s
    | some e =>
      if 0 < e.depth ∧ e.closed = true ∧ e.live = 0 then
        match (s.scopes.del n).get? e.parent with
        | none => s.scopeDrop n
        | some p => ((s.scopeDrop n).setScope e.parent { p with live := p.live - 1 }).scopeFreeFuel f e.parent
      else s

def scopeFree (s : State) (n : Nat) : State := s.scopeFreeFuel 16 n

/-- A work item bound to a scope (R306). -/
def scopeBind (s : State) (n : Nat) : State :=
  match s.scopes.get? n with
  | some e => s.setScope n { e with live := e.live + 1 }
  | none => s

/-- A work item that retires or is removed (R306, R307). -/
def scopeUnbind (s : State) (n : Nat) : State :=
  match s.scopes.get? n with
  | some e => (s.setScope n { e with live := e.live - 1 }).scopeFree n
  | none => s

/-- The innermost open scope of a strand closed (R307 close). -/
def scopeCloseAt (s : State) (n : Nat) : State :=
  match s.scopes.get? n with
  | some e => (s.setScope n { e with closed := true }).scopeFree n
  | none => s

/-- Every scope that a task's strands still have open closed, innermost first (R307). -/
def scopeCloseAll (s : State) (ts : List Strand) : State := ts.foldl (fun s t => t.opens.foldl (fun s n => s.scopeCloseAt n) s) s

/-! Locks (R263 to R266). -/

def lockUnit (s : State) (w : Nat) : LockUnit := s.locks.get ⟨none, none, [], false⟩ w

/-- The lock unit's record of a word; an idle one is dropped. -/
def setLock (s : State) (w : Nat) (u : LockUnit) : State :=
  if u.holder.isNone && u.waiters.isEmpty && !u.handing then { s with locks := s.locks.del w }
  else { s with locks := s.locks.set w u }

/-- The locks a strand and task hold. -/
def locksOf (s : State) (sid task : Nat) : List Nat :=
  (s.locks.filter (fun e => e.2.holder == some (sid, task))).map (·.1)

/-- The state of a strand of a task, on its strand or saved (R250). -/
def strandOrSaved (s : State) (sid task : Nat) : Strand :=
  if (s.strand sid).task = task then s.strand sid
  else match ((s.task task).saved.find? (fun x => x.sid == sid)) with
    | some x => x.strand
    | none => Strand.idle

/-- What the waiters on a strand's locks lend it, on one that it has released until the hand-off (R266). -/
def lentTo (s : State) (sid task : Nat) : Nat :=
  s.locks.foldl (fun m e => if e.2.holder == some (sid, task) || e.2.giver == some (sid, task) then
    e.2.waiters.foldl (fun m w => Nat.max m (s.strand w.sid).eff) m else m) 0

/-- The inherited priority of one holder recomputed, on its strand or in its saved copy (R250, R266). -/
def lend (s : State) (sid task : Nat) : State :=
  let p := s.lentTo sid task
  if (s.strand sid).task = task then s.updStrand sid (fun t => { t with inherit := p })
  else s.updTask task (fun k => { k with saved := k.saved.map (fun x => if x.sid = sid then { x with strand := { x.strand with inherit := p } } else x) })

/-- Inherited priorities recomputed for every holder, once for each lock so that chains settle (R266). -/
def inheritAll (s : State) : State :=
  let holders := s.locks.filterMap (fun e => e.2.holder) ++ s.locks.filterMap (fun e => e.2.giver)
  iter (fun s => holders.foldl (fun s h => s.lend h.1 h.2) s) holders.length
    (s.strands.foldl (fun s e => if e.2.inherit = 0 then s else s.updStrand e.1 (fun t => { t with inherit := 0 })) s)

/-- A killed holder's lock: HELD 0, ABANDONED 1, and handed on (R265, Table 12-2). -/
def lockAbandon (s : State) (w : Nat) (sid : Nat) : State :=
  let u := s.lockUnit w
  (s.writeNat w 8 (2 ^ 62 + s.strandName sid)).setLock w { u with holder := none, giver := none, handing := !u.waiters.isEmpty }

/-- A strand leaves every waiter list (Table 12-2). -/
def lockLeave (s : State) (sid : Nat) : State :=
  { s with locks := s.locks.map (fun e =>
      let left := e.2.waiters.filter (fun w => w.sid != sid)
      (e.1, { e.2 with waiters := left, handing := e.2.handing && !left.isEmpty })) }

/-! Traps (R313, R314). -/

/-- The handle of the lowest position whose span holds the faulting address (R51). -/
def handleAt (k : Task) (fva : Nat) : Nat :=
  if fva = 0 then 0
  else match (microOf k).spans.find? (fun x => decide (x.2.1 ≤ fva) && decide (fva ≤ x.2.2)) with
    | some x => x.1
    | none => 0

/-- The virtual address of a strand's save area (R320). The areas of the control cores' strands, whose trap records R15 names, follow
those of the compute cores (log entry 10). -/
def saveArea (s : State) (sid : Nat) : Nat :=
  s.devReg 0x508 / 2 ^ 16 % 2 ^ 41 * 2 ^ 16 + (if isCtrl sid then 5120 + (sid - 2 ^ 15) else sid) * 0x110000

/-- A trap record of 128 bytes (Table 12-7). -/
def trapRecord (s : State) (sid : Nat) (t : Strand) (tr : TrapInfo) (perf wout : Nat) : Nat :=
  let k := s.task t.task
  pack [(25, s.strandName sid), (1, t.braid.isSome.toNat), (4, tr.slot), (10, perf), (8, tr.code), (8, tr.cls.code), (7, 0), (1, 1),
    (64, t.vcc), (32, (microOf k).recIdx), (12, (microOf k).entry), (20, 0), (16, t.mpc), (8, 0), (12, handleAt k tr.info.fva),
    (12, 0), (6, k.ctx), (10, 0),
    (32, (t.level 0).counter), (32, (t.level 1).counter), (32, (t.level 2).counter), (32, (t.level 3).counter),
    (32, (t.level 4).counter), (32, (t.level 5).counter),
    (57, tr.info.fva), (7, 0), (3, 0), (2, tr.info.kind), (3, tr.info.level), (8, 0), (32, wout), (16, 0), (32, k.ordinal),
    (3, t.member)]

/-- The other members of a braid held at the same VCC with every slot performed (R314); an idle member holds no bundle (R78). -/
def holdGang (s : State) (sid : Nat) : State :=
  (s.gang sid).foldl (fun s m => if m = sid then s else s.updStrand m (fun t =>
    if t.replay.isNone && !t.wait.idle then { t with replay := some ⟨t.bundle, 0x3FF⟩ } else t)) s

/-- The trap record of a frozen strand written to its save area, with the performed bits as they stand (R314). -/
def syncTrap (s : State) (sid : Nat) : State :=
  let t := s.strand sid
  match t.trap with
  | some tr =>
    let va := s.saveArea sid
    let perf := match t.replay with
      | some r => r.perf
      | none => 0x3FF
    (s.sysWrite va (leBytes 128 (s.trapRecord sid t tr perf 0))).updStrand sid (fun t => { t with trapRec := BitVec.ofNat 64 va })
  | none => s

/-- The record and the report of a frozen strand's trap made (R314). -/
def postTrap (s : State) (sid : Nat) : State :=
  let t := s.strand sid
  match t.trap with
  | none => s
  | some tr =>
    let s1 := s.setStrand sid { t with trap := some { tr with posted := true } }
    ((s1.syncTrap sid).holdGang sid).postReport (s.reportOf 0 tr.cls (s.saveArea sid) 0 0 sid t.task)

/-- TAKING A TRAP (R314): the strand freezes with its bundle in the replay buffer, the trap record is written to its save area,
TRAPREC names it, and a report of kind 0 is posted. -/
def freeze (s : State) (sid : Nat) (cls : TrapClass) (code slot perf : Nat) (info : FaultInfo) (held : Bool) : State :=
  let t := s.strand sid
  (s.setStrand sid { t with
    trap := some ⟨cls, code, slot, info, false⟩
    replay := if held then some ⟨t.bundle, perf⟩ else none }).postTrap sid

/-- Whether a trap of a strand kills its task: in handler mode (R316), and that of a backfill job (R297) or a ballast task (R273). -/
def trapKills (s : State) (sid : Nat) : Bool :=
  (s.strand sid).handler.isSome || (!isCtrl sid && ((s.taskOf sid).kind == .backfill || (s.taskOf sid).kind == .ballast))

/-- Whether a kill of a task, or of a control core's strand, waits (R310, R318). -/
def isDoomed (s : State) (task sid : Nat) : Bool := s.doomed.any (fun d => d.task == task && d.sid == sid)

/-- A kill put down for the bundle boundary; of two traps of one bundle the first in program order gives the class (R314, R316). -/
def doom (s : State) (d : Doom) : State :=
  if s.isDoomed d.task d.sid then
    { s with doomed := s.doomed.map (fun x => if x.task = d.task ∧ x.sid = d.sid then
        (match x.slot, d.slot with
          | some a, some b => if b < a then d else x
          | _, _ => x) else x) }
  else { s with doomed := s.doomed ++ [d] }

/-- The kill of a strand's task by a trap of its bundle, which is over before the kill (R310, R316). -/
def doomStrand (s : State) (sid : Nat) (cls : TrapClass) (slot : Nat) : State :=
  s.doom (if isCtrl sid then ⟨0, sid, cls, some slot⟩ else ⟨(s.strand sid).task, 0, cls, some slot⟩)

/-- The performed bits with one slot clear: S is bit 9, Y bit 0 (Table 12-7). -/
def perfBut (perf slot : Nat) : Nat := perf - (if bitAt perf (9 - slot) then 2 ^ (9 - slot) else 0)

/-- The trap record of a strand brought up to its performed bits, once it has been made. -/
def resync (s : State) (sid : Nat) : State :=
  match (s.strand sid).trap with
  | some tr => if tr.posted then s.syncTrap sid else s
  | none => s

/-- The first trap of a bundle: record and report are made at once, or when no earlier slot of the bundle is paused any more, which
could still be the first failing slot (R314). -/
def firstTrap (s : State) (cls : TrapClass) (code perf : Nat) (info : FaultInfo) : State :=
  if s.me.pausedBefore s.slot then s.updMe (fun t => { t with
    trap := some ⟨cls, code, s.slot, info, false⟩
    replay := some ⟨t.bundle, perf⟩ })
  else s.freeze s.cur cls code s.slot perf info true

/-- A slot that fails at its issue (R314): it is left unperformed; the record names the first failing slot in program order. -/
def raiseAt (s : State) (cls : TrapClass) (info : FaultInfo) : State :=
  if s.trapKills s.cur then s.doomStrand s.cur cls s.slot
  else match s.me.trap with
  | some tr =>
    (s.updMe (fun t => { t with
      trap := some (if s.slot < tr.slot then { tr with cls := cls, slot := s.slot, info := info } else tr)
      replay := t.replay.map (fun r => { r with perf := perfBut r.perf s.slot }) })).resync s.cur
  | none => s.firstTrap cls 0 (perfBut 0x3FF s.slot) info

/-- A software trap (R314, R516): the slot stands performed, and CODE holds n beside whatever else fails in the bundle. -/
def softTrap (s : State) (n : Nat) : State :=
  if s.trapKills s.cur then s.doomStrand s.cur .trap s.slot
  else match s.me.trap with
  | some tr =>
    (s.updMe (fun t => { t with
      trap := some (if s.slot < tr.slot then { tr with cls := .trap, slot := s.slot, info := {}, code := n }
        else { tr with code := n }) })).resync s.cur
  | none => s.firstTrap .trap n 0x3FF {}

def raise (s : State) (cls : TrapClass) : State := s.raiseAt cls {}

/-- A trap at an address (R180). -/
def raiseVa (s : State) (cls : TrapClass) (va : Nat) (k : Kind) (level : Nat) : State := s.raiseAt cls ⟨va, k.code, level⟩

/-- A trap whose class the manual does not name: the class is a free value (R316, log entry 11). -/
def raiseFree (s : State) : State :=
  let x := s.takeFree
  let cs : List TrapClass := [.illenc, .illdep, .illslot, .illfmt, .illshape, .accv, .align, .trap]
  x.2.raise (nth .illenc cs (x.1 % 8))

/-- Whether a strand, or a member of its braid, is frozen by a trap (R314). -/
def frozen (s : State) (sid : Nat) : Bool := (s.gang sid).any (fun m => (s.strand m).trap.isSome)

/-- THE RETURN FROM A TRAP (R86, R315 action 0): the gang holds its bundles, which reissue their unperformed slots as a group
start at the held VCC. -/
def resumeGang (s : State) (sid : Nat) : State :=
  (s.gang sid).foldl (fun s m => s.updStrand m (fun t =>
    { t with
      trap := none
      wait := if t.wait.idle then t.wait else .none
      pass := .none
      grp := Group.new })) s

/-- Handler mode entered at a bundle index (R316): what the strand holds stays frozen, VCC counts on. -/
def enterHandler (s : State) (sid h : Nat) : State :=
  s.updStrand sid (fun t =>
    match t.trap with
    | none => t
    | some tr =>
      { t with
        cr := t.cr.set 0x010 (BitVec.ofNat 64 t.mpc)
        handler := some ⟨t.mpc, t.vcc, t.base, t.replay, t.redirect, t.nestUpd, tr⟩
        nestUpd := []
        redirect := none
        trap := none
        replay := none
        latches := t.latches.map (fun l => { l with frozen := true })
        lb := t.lb.map (fun e => { e with frozen := true })
        mpc := h
        wait := .none
        pass := .none
        grp := Group.new })

end State

end Sys2Proof.Machine
end

