-- ==== Sys2Proof/Machine/SeqUnit.lean ====
section
/-! DEFINITION. The sequence unit (R274 to R280, R299, R303): sequence descriptors, entry states, the KV pool's buddy allocator and
its reference counts, and the buddy rules that the region allocator shares (R185). -/

namespace Sys2Proof.Machine

open Sys2Proof

/-! The buddy rules (R185, R186). -/

/-- Whether a free block is the better choice: the least order, then the lowest address (R186). -/
def blockBefore (a b : Nat × Nat) : Bool := decide (a.1 < b.1) || (a.1 == b.1 && decide (a.2 < b.2))

/-- A block of order `i` at unit `u` split down to order `j`, its lower half kept at each split: the upper halves. -/
def splitBlock (u j : Nat) : Nat → List (Nat × Nat)
  | 0 => []
  | i + 1 => if j ≤ i then (i, u + 2 ^ i) :: splitBlock u j i else []

/-- A block of order `j` taken, if one is free: its first unit and the allocator after it (R186). -/
def Buddy.take (b : Buddy) (j : Nat) : Option (Nat × Buddy) :=
  match bestBy blockBefore (b.free.filter (fun x => decide (j ≤ x.1))) with
  | none => none
  | some x => some (x.2, ⟨splitBlock x.2 j x.1 ++ b.free.filter (fun y => y != x), (j, x.2) :: b.used⟩)

/-- A free block merged with its buddy for as long as that is free, up to order `top` (R185). -/
def mergeBlock (free : List (Nat × Nat)) (top : Nat) : Nat → Nat → Nat → List (Nat × Nat)
  | 0, j, u => (j, u) :: free
  | n + 1, j, u =>
    let mate := if u / 2 ^ j % 2 = 0 then u + 2 ^ j else u - 2 ^ j
    if j < top ∧ free.contains (j, mate) then
      mergeBlock (free.filter (fun x => x != (j, mate))) top n (j + 1) (Nat.min u mate)
    else (j, u) :: free

/-- An allocated block given back (R185). -/
def Buddy.give (b : Buddy) (top : Nat) (x : Nat × Nat) : Buddy :=
  ⟨mergeBlock b.free top top x.1 x.2, b.used.filter (fun y => y != x)⟩

/-- The allocated block that holds a unit. -/
def Buddy.holding (b : Buddy) (u : Nat) : Option (Nat × Nat) :=
  b.used.find? (fun x => decide (x.2 ≤ u) && decide (u < x.2 + 2 ^ x.1))

/-! Reads and writes of the unit in a context's space (R277). -/

namespace State

/-- The physical places of a virtual range for the unit, or the class with which it cannot be reached; a read through the reduction
window reads the word that the address names (R171). -/
def vplaces (s : State) (root : Nat) (k : Kind) : List (Nat × Nat) → Except TrapClass (List (Nat × Nat))
  | [] => .ok []
  | (va, n) :: rest =>
    match s.walk root va k with
    | .fail c _ => .error c
    | .page b _ pa _ _ =>
      let p := pa + (va - b)
      if !s.reachable p then .error .mchk
      else
        let here := match targetOf (p % 2 ^ 48) with
          | .hbm => true
          | .window => k == .load
          | _ => false
        if !here then .error .accv
        else match s.vplaces root k rest with
          | .ok ps => .ok ((homeOf p, n) :: ps)
          | .error c => .error c

/-- The bytes of a virtual range. -/
def vbytes (s : State) (root va n : Nat) : Except TrapClass (List Byte) :=
  if va < 2 ^ 32 ∨ 2 ^ 57 < va + n then .error .accv
  else match s.vplaces root .load (pageCut va n) with
    | .ok ps => .ok (ps.foldr (fun p acc => s.bytesAt p.1 p.2 ++ acc) [])
    | .error c => .error c

/-- A number in virtual memory. -/
def vnat (s : State) (root va n : Nat) : Except TrapClass Nat := (s.vbytes root va n).map leNat

/-- Bytes written at a virtual address of the unit; nothing is written where it cannot be reached. -/
def vwrite (s : State) (root va : Nat) (bs : List Byte) : State :=
  if va < 2 ^ 32 ∨ 2 ^ 57 < va + bs.length then s
  else match s.vplaces root .store (pageCut va bs.length) with
    | .ok ps => (ps.foldl (fun (acc : State × List Byte) p => (acc.1.writeBytes p.1 (acc.2.take p.2), acc.2.drop p.2)) (s, bs)).1
    | .error _ => s

/-- A number written at a virtual address. -/
def vput (s : State) (root va n v : Nat) : State := s.vwrite root va (leBytes n v)

end State

/-! Sequence descriptors (R274, R275). -/

/-- An extent entry: its base, its length in positions, its stride. -/
structure Extent where
  base   : Nat
  len    : Nat
  stride : Nat
deriving DecidableEq, Repr

/-- A sequence descriptor as read (Table 11-1). -/
structure SeqDesc where
  va     : Nat
  exited : Bool
  exreq  : Bool
  mask   : Bool
  extord : Nat
  layers : Nat
  rb     : Nat
  cur    : Nat
  stride : Nat
  hwm    : Nat
  exits  : Nat
  cap    : Nat
  exts   : List Extent
deriving DecidableEq, Repr

namespace SeqDesc

/-- The positions that the extents hold. -/
def length (d : SeqDesc) : Nat := d.exts.foldl (fun n e => n + e.len) 0

/-- The extent that holds position `p`, and the position within it. -/
def find (p : Nat) : List Extent → Option (Extent × Nat)
  | [] => none
  | e :: es => if p < e.len then some (e, p) else find (p - e.len) es

/-- The address of a position's slot (R275, R285). -/
def slot (d : SeqDesc) (p : Nat) : Option Nat := (find p d.exts).map (fun x => x.1.base + x.2 * x.1.stride)

/-- Where the state words of a slot begin (R275). -/
def stateOff (d : SeqDesc) : Nat := 128 * d.layers * d.rb

/-- The least stride that holds a position (R275). -/
def minStride (d : SeqDesc) : Nat := d.stateOff + 8 * ceilDiv d.layers 32

/-- The positions of a new extent (R279). -/
def newLen (d : SeqDesc) : Nat := 2 ^ d.extord * 65536 / d.stride / 16 * 16

end SeqDesc

/-- A descriptor's fields from its 320 bytes (Table 11-1). -/
def descOf (va v : Nat) : SeqDesc :=
  { va := va
    exited := bitAt v 63
    exreq := bitAt v 62
    mask := bitAt v 61
    extord := fieldN v 52 4
    layers := fieldN v 40 11 + 1
    rb := fieldN v 32 8
    cur := fieldN v 0 32
    stride := fieldN v 64 32
    hwm := fieldN v 128 64
    exits := fieldN v 192 64
    cap := fieldN v 256 32
    exts := (span 0 (fieldN v 56 5)).map (fun i =>
      ⟨fieldN v (512 + 128 * i) 64, fieldN v (576 + 128 * i) 32, fieldN v (608 + 128 * i) 32⟩) }

/-- Whether a descriptor breaks R274 or R275, but for the place of its extents. What reserved bits hold is ignored (R6). -/
def descBad (d : SeqDesc) : Bool :=
  d.va % 64 != 0 || d.extord == 15 || decide (16 < d.exts.length) || d.rb == 0 || d.hwm % 64 != 0 || d.exits % 64 != 0 ||
  d.stride % 64 != 0 || decide (d.stride < d.minStride) ||
  d.exts.any (fun e => e.base % 64 != 0 || e.len % 16 != 0 || e.stride % 64 != 0 || decide (e.stride < d.minStride))

namespace State

/-- A descriptor read by the unit: the class of a failed read, or ILLSHAPE for a malformed one. -/
def seqDesc (s : State) (root va : Nat) : Except TrapClass SeqDesc :=
  match s.vnat root va 320 with
  | .error c => .error c
  | .ok v => if descBad (descOf va v) then .error .illshape else .ok (descOf va v)

/-- A bit of word 0 of a descriptor written (R283, R292, R293). -/
def seqFlag (s : State) (root : Nat) (d : SeqDesc) (bit : Nat) (b : Bool) : State :=
  match s.vnat root d.va 8 with
  | .ok v => s.vput root d.va 8 (setField v bit 1 b.toNat)
  | .error _ => s

/-- A field of word 0 of a descriptor written. -/
def seqField (s : State) (root : Nat) (d : SeqDesc) (lo n v : Nat) : State :=
  match s.vnat root d.va 8 with
  | .ok w => s.vput root d.va 8 (setField w lo n v)
  | .error _ => s

/-- The high-water mark of a layer (R276). -/
def hwmOf (s : State) (root : Nat) (d : SeqDesc) (l : Nat) : Nat :=
  match s.vnat root (d.hwm + 4 * l) 4 with
  | .ok v => v
  | .error _ => 0

def setHwm (s : State) (root : Nat) (d : SeqDesc) (l v : Nat) : State := s.vput root (d.hwm + 4 * l) 4 v

/-- The committed length: the least high-water mark (R276). -/
def committed (s : State) (root : Nat) (d : SeqDesc) : Nat :=
  (span 1 (d.layers - 1)).foldl (fun n l => Nat.min n (s.hwmOf root d l)) (s.hwmOf root d 0)

/-- The address of the state word of an entry and its bit (R275). -/
def stateAt (d : SeqDesc) (p l : Nat) : Option (Nat × Nat) :=
  (d.slot p).map (fun a => (a + d.stateOff + 8 * (l / 32), 2 * (l % 32)))

/-- The state of an entry: 0 EMPTY, 1 VALID, 2 PENDING, 3 DROPPED (Table 11-2). -/
def kvState (s : State) (root : Nat) (d : SeqDesc) (p l : Nat) : Except TrapClass Nat :=
  match stateAt d p l with
  | none => .ok 0
  | some x => (s.vnat root x.1 8).map (fun v => fieldN v x.2 2)

/-- The state, with EMPTY where it cannot be read. -/
def kvStateOr (s : State) (root : Nat) (d : SeqDesc) (p l : Nat) : Nat :=
  match s.kvState root d p l with
  | .ok v => v
  | .error _ => 0

/-- A change of an entry's state, which performs as a release at CHIP (R244, R277). -/
def setKvState (s : State) (root : Nat) (d : SeqDesc) (p l st : Nat) : State :=
  match stateAt d p l with
  | none => s
  | some x =>
    match s.vnat root x.1 8 with
    | .ok v => s.vput root x.1 8 (setField v x.2 2 st)
    | .error _ => s

/-! The KV pool (R278). -/

def poolBase (s : State) : Nat := s.devReg 0x400
def poolSize (s : State) : Nat := s.devReg 0x408 % 2 ^ 11 * 2 ^ 30

/-- The block that an extent's base lies in, none outside the pool: the allocated block, or, where the unit allocated none (R278 gives
no way there), the one 64 KiB block at that place (log entry 14). -/
def blockOf (s : State) (base : Nat) : Option (Nat × Nat) :=
  if s.poolBase ≤ base ∧ base < s.poolBase + s.poolSize then
    some ((s.kv.blocks.holding ((base - s.poolBase) / 65536)).getD (0, (base - s.poolBase) / 65536))
  else none

/-- A block's reference count word (R278). -/
def refWord (s : State) (b : Nat × Nat) : Nat := s.devReg 0x410 + 8 * b.2

/-- Whether a descriptor names an extent outside the KV pool, which R274 does not allow. -/
def extentOut (s : State) (d : SeqDesc) : Bool := d.exts.any (fun e => (s.blockOf e.base).isNone)

/-- A descriptor read by the unit for microcode: an extent outside the pool makes it malformed too (R274, R275). -/
def seqUse (s : State) (root va : Nat) : Except TrapClass SeqDesc :=
  match s.seqDesc root va with
  | .error c => .error c
  | .ok d => if s.extentOut d then .error .illshape else .ok d

def refCount (s : State) (root : Nat) (b : Nat × Nat) : Nat :=
  match s.vnat root (s.refWord b) 8 with
  | .ok v => v
  | .error _ => 0

/-- A block brought to a count of 0 returns to the pool (R278). -/
def refSet (s : State) (root : Nat) (b : Nat × Nat) (n : Nat) : State :=
  let s1 := s.vput root (s.refWord b) 8 n
  if n = 0 ∧ b ∈ s1.kv.blocks.used then { s1 with kv := ⟨s1.kv.blocks.give 14 b⟩ } else s1

/-- RefAdd (R299) on the block of an extent. -/
def refUp (s : State) (root base : Nat) : State :=
  match s.blockOf base with
  | some b => s.refSet root b (s.refCount root b + 1)
  | none => s

def refDown (s : State) (root base : Nat) : State :=
  match s.blockOf base with
  | some b => s.refSet root b (s.refCount root b - 1)
  | none => s

/-- The cells of the state words of every position of a new block emptied (R279): page by page of the block. -/
def emptyStates (s : State) (root base pages : Nat) (d : SeqDesc) : State :=
  (span 0 pages).foldl (fun s k =>
    match s.walk root (base + 65536 * k) .store with
    | .fail _ _ => s
    | .page b _ pa _ _ =>
      let p := pa + (base + 65536 * k - b)
      let isState (a : Nat) : Bool :=
        let o := (65536 * k + (a - p)) % d.stride
        decide (p ≤ a) && decide (a < p + 65536) && decide (65536 * k + (a - p) < d.newLen * d.stride) &&
        decide (d.stateOff ≤ o) && decide (o < d.minStride)
      { s with
        mem := s.mem.filter (fun c => !isState c.1)
        poison := s.poison.filter (fun w => !isState (8 * w)) }) s

/-- A page's cells copied over another page's, marks and all (R280). -/
def copyPage (s : State) (src dst : Nat) : State :=
  let s1 := s.zeroFill dst (dst + 65536)
  let cells := s.mem.filter (fun c => decide (src ≤ c.1) && decide (c.1 < src + 65536))
  let marks := s.poison.filter (fun w => decide (src / 8 ≤ w) && decide (w < src / 8 + 8192))
  { s1 with
    mem := cells.foldl (fun m c => cellSet m (dst + (c.1 - src)) c.2) s1.mem
    poison := marks.foldl (fun p w => insertOnce (dst / 8 + (w - src / 8)) p) s1.poison }

end State

/-- What a request of the unit gives: done, a wait for a free block, a wait for a PENDING entry (R280), or a failure (R279). -/
inductive SeqRes where
  | ok (s : State)
  | wait
  | busy
  | fail (c : TrapClass)

/-- What follows a request that is done. -/
def SeqRes.andThen (r : SeqRes) (f : State → SeqRes) : SeqRes :=
  match r with
  | .ok s => f s
  | r => r

namespace State

/-- An extent appended to a descriptor (R279). -/
def appendExtent (s : State) (root : Nat) (d : SeqDesc) : SeqRes :=
  if s.poolSize = 0 then .fail .accv
  else if d.newLen = 0 then .fail .illshape
  else if d.exts.length = 16 then .fail .accv
  else if s.extentOut d then .fail .accv
  else match s.kv.blocks.take d.extord with
    | none => .wait
    | some (u, b) =>
      let base := s.poolBase + 65536 * u
      let i := d.exts.length
      let s1 := ({ s with kv := ⟨b⟩ } : State).emptyStates root base (2 ^ d.extord) d
      let s2 := (s1.vput root (d.va + 64 + 16 * i) 16 (base + 2 ^ 64 * d.newLen + 2 ^ 96 * d.stride)).seqField root d 56 5 (i + 1)
      .ok (s2.vput root (s2.refWord (d.extord, u)) 8 1)

/-- Extents appended until a position is held (R279). -/
def reachPos (s : State) (root va q : Nat) : Nat → SeqRes
  | 0 => .fail .accv
  | n + 1 =>
    match s.seqDesc root va with
    | .error c => .fail c
    | .ok d =>
      if q < d.length then .ok s
      else (s.appendExtent root d).andThen (fun s1 => s1.reachPos root va q n)

/-- Whether any entry of a block is PENDING (R280): of every slot of the block, whichever sequences name it, laid out with the stride of
the extent that this descriptor has in it. -/
def pendingIn (s : State) (root : Nat) (d : SeqDesc) (b : Nat × Nat) (stride : Nat) : Bool :=
  (span 0 (2 ^ b.1 * 65536 / stride / 16 * 16)).any (fun k =>
    let slot := s.poolBase + 65536 * b.2 + k * stride
    (span 0 d.layers).any (fun l => match s.vnat root (slot + d.stateOff + 8 * (l / 32)) 8 with
      | .ok v => fieldN v (2 * (l % 32)) 2 == 2
      | .error _ => false))

/-- The copy-on-write of the block that holds a position (R280). -/
def cowPos (s : State) (root va q : Nat) : SeqRes :=
  match s.seqDesc root va with
  | .error c => .fail c
  | .ok d =>
    match SeqDesc.find q d.exts with
    | none => .fail .accv
    | some x =>
      match s.blockOf x.1.base with
      | none => .fail .accv
      | some b =>
        if s.refCount root b ≤ 1 then .ok s
        else if s.pendingIn root d b x.1.stride then .busy
        else match s.kv.blocks.take b.1 with
          | none => .wait
          | some (u, k) =>
            let old := s.poolBase + 65536 * b.2
            let new := s.poolBase + 65536 * u
            let s1 : State := { s with kv := ⟨k⟩ }
            let s2 := (span 0 (2 ^ b.1)).foldl (fun s i =>
              match s.walk root (old + 65536 * i) .load, s.walk root (new + 65536 * i) .store with
              | .page b1 _ p1 _ _, .page b2 _ p2 _ _ =>
                s.copyPage (p1 + (old + 65536 * i - b1)) (p2 + (new + 65536 * i - b2))
              | _, _ => s) s1
            let s3 := (d.exts.zip (span 0 16)).foldl (fun s e =>
              if old ≤ e.1.base ∧ e.1.base < old + 65536 * 2 ^ b.1 then s.vput root (va + 64 + 16 * e.2) 8 (new + (e.1.base - old))
              else s) s2
            .ok ((s3.vput root (s3.refWord (b.1, u)) 8 1).refSet root b (s3.refCount root b - 1))

/-- A position made ready for a write into its block (R279, R280). -/
def readyPos (s : State) (root va q : Nat) : SeqRes :=
  match s.reachPos root va q 17 with
  | .ok s1 => s1.cowPos root va q
  | r => r

/-- A run of positions made ready, in ascending order. -/
def readyRun (s : State) (root va q : Nat) : Nat → SeqRes
  | 0 => .ok s
  | n + 1 =>
    match s.readyPos root va q with
    | .ok s1 => s1.readyRun root va (q + 1) n
    | r => r

/-- An append at retire (R283): entries made VALID where EMPTY, and the mark raised, once every block that it writes is the sequence's
own (R280). -/
def appendRun (s : State) (root va l p n : Nat) : SeqRes :=
  match s.readyRun root va p n with
  | .ok s0 =>
    (match s0.seqDesc root va with
    | .error c => .fail c
    | .ok d =>
      let s1 := (span p n).foldl (fun s q => if s.kvStateOr root d q l = 0 then s.setKvState root d q l 1 else s) s0
      .ok (s1.setHwm root d l (Nat.max (s0.hwmOf root d l) (p + n))))
  | r => r

/-- A request out of the line of those that wait for a block. -/
def kvLeave (s : State) (who : Nat × Nat) : State := { s with kvWait := s.kvWait.filter (fun x => x != who) }

/-- A request that finds no free block joins the line, unless it stands there (R279). -/
def kvJoin (s : State) (who : Nat × Nat) : State := if s.kvWait.contains who then s else { s with kvWait := s.kvWait ++ [who] }

/-- A request taken in its turn (R279): one that takes a block waits while another stands before it in the line. -/
def inTurn (s : State) (who : Nat × Nat) (r : SeqRes) : SeqRes :=
  match r with
  | .ok s1 => if s1.kv != s.kv && (match s.kvWait with
      | w :: _ => w != who
      | [] => false) then .wait else .ok (s1.kvLeave who)
  | r => r

/-- The trim of R303. Removing the backfill jobs of emptied entries is the caller's. -/
def trimSeq (s : State) (root va : Nat) : State :=
  match s.seqDesc root va with
  | .error _ => s
  | .ok d =>
    let c := s.committed root d
    let s1 := (span (c + 1) (d.length - (c + 1))).foldl (fun s p =>
      (span 0 d.layers).foldl (fun s l => s.setKvState root d p l 0) s) s
    let s2 := (span 0 d.layers).foldl (fun s l => s.setHwm root d l (Nat.min (s.hwmOf root d l) (c + 1))) s1
    ((s2.seqField root d 0 32 c).seqFlag root d 63 false).seqFlag root d 62 false

/-- The release form of KVCP (R299). -/
def seqRelease (s : State) (root : Nat) (d : SeqDesc) : State :=
  let s1 := d.exts.foldl (fun s e => s.refDown root e.base) s
  let s2 := (s1.seqField root d 56 5 0).seqField root d 0 32 0
  (span 0 d.layers).foldl (fun s l => s.setHwm root d l 0) s2

/-- The fields and extents that a clone writes into its destination (R299): 128-bit entries from byte 64. -/
def seqFill (s : State) (root : Nat) (src dst : SeqDesc) (exts : List Extent) : State :=
  let s1 := (((s.seqField root dst 40 11 (src.layers - 1)).seqField root dst 32 8 src.rb).seqField root dst 52 4 src.extord).seqField
    root dst 56 5 exts.length
  let s2 := s1.vput root (dst.va + 8) 4 src.stride
  let s3 := (exts.zip (span 0 16)).foldl (fun s e =>
    (s.vput root (dst.va + 64 + 16 * e.2) 16 (e.1.base + 2 ^ 64 * e.1.len + 2 ^ 96 * e.1.stride)).refUp root e.1.base) s2
  (s3.seqFlag root dst 63 false).seqFlag root dst 62 false

/-- The extents that start below a position (R299). -/
def extentsBelow (p : Nat) : Nat → List Extent → List Extent
  | _, [] => []
  | start, e :: es => if start < p then e :: extentsBelow p (start + e.len) es else []

/-- The clone form of KVCP (R299), of two descriptors that are not malformed; none where it must be reported failed: the destination has
extents, or P is beyond the source. -/
def seqClone (s : State) (root : Nat) (a b : SeqDesc) (p : Nat) : Option State :=
  if b.exts.length ≠ 0 ∨ a.length < p then none
  else
    let s1 := s.seqFill root a b (extentsBelow p 0 a.exts)
    let s2 := (span 0 a.layers).foldl (fun s l => s.setHwm root b l (Nat.min (s.hwmOf root a l) p)) s1
    some (s2.seqField root b 0 32 (Nat.min a.cur p))

/-- A sequence that a context has named (R303). -/
def nameSeqOf (s : State) (c va : Nat) : State :=
  s.updCtx c (fun x => if x.seqs.contains va then x else { x with seqs := x.seqs ++ [va] })

end State

end Sys2Proof.Machine
end

