-- ==== Sys2Proof/Machine/Device.lean ====
section
/-! DEFINITION. The device registers as a control core, the PCIe host or a register write reaches them (R323, R324): what a read
returns, which bits a write keeps, and the commands that a GO bit starts. -/

namespace Sys2Proof.Machine

open Sys2Proof

/-- The bits that a plain write of a device register keeps; none for a register with a behaviour of its own, a read-only one, or an
unlisted offset (R323 and the tables it names). -/
def devKeep (off v : Nat) : Option Nat :=
  match off with
  | 0x0108 => some (fieldN v 12 45 * 2 ^ 12)
  | 0x0200 => some (fieldN v 0 24 + fieldN v 34 14 * 2 ^ 34)
  | 0x0308 => some (fieldN v 16 41 * 2 ^ 16)
  | 0x0310 => some (fieldN v 3 61 * 8)
  | 0x0600 => some (v % 2 ^ 16)
  | 0x0608 => some (v % 2 ^ 16)
  | 0x0610 => some (if v % 4096 < 400 then 400 else if 2800 < v % 4096 then 2800 else v % 4096)
  | 0x0618 => some (fieldN v 12 45 * 2 ^ 12 + v % 32)
  | _ => none

/-- The bits that a write of a register which takes effect only while the module is idle keeps (R278, R318). -/
def idleKeep (off v : Nat) : Option Nat :=
  match off with
  | 0x0400 => some (fieldN v 30 27 * 2 ^ 30)
  | 0x0408 => some (v % 2 ^ 11)
  | 0x0410 => some (fieldN v 6 51 * 64)
  | 0x0500 => some (fieldN v 20 37 * 2 ^ 20)
  | 0x0508 => some (fieldN v 16 41 * 2 ^ 16)
  | 0x0510 => some (fieldN v 12 45 * 2 ^ 12 + v % 32)
  | _ => none

/-- The command that a write with GO set starts: its event, from the register's fields (Tables 7-5, 12-5, 13-2). -/
def devCommand (s : State) (off v : Nat) : Option Instr :=
  if !bitAt v 63 && off != 0x300 then none
  else match off with
  | 0x0100 => some (match fieldN v 56 2 with
      | 0 => .ctxStart (v % 64)
      | 1 => .ctxStop (v % 64)
      | 2 => .ctxPreemptKeep (v % 64)
      | _ => .ctxPreemptDiscard (v % 64))
  | 0x0110 => some (.spareMap (fieldN v 7 3) (v % 128))
  | 0x0300 =>
    if !bitAt v 62 then none
    else some (match fieldN v 18 2 with
      | 0 => .tinvPage (v % 65536) (s.devReg 0x308) (fieldN v 16 2)
      | 1 => .tinvAsid (v % 65536)
      | 2 => .tinvAll
      | _ => .tinvPage (v % 65536) (s.devReg 0x308) 3)
  | 0x0528 => some (match fieldN v 56 2 with
      | 0 => .strandcmdResume (v % 2 ^ 25)
      | 1 => .strandcmdHandler (v % 2 ^ 25) (fieldN v 40 16)
      | 2 => .strandcmdKill (v % 2 ^ 25)
      | _ => .strandcmdPreempt (v % 2 ^ 25))
  | _ => none

/-- The writable fields of a command register, and the bit that shows BUSY (Tables 7-5, 12-5, 13-2). DESIGN CHOICE (log entry 21): no rule
says when a GO bit that was set clears, and none is stored: GO reads 0 at once. -/
def commandKeep (off v : Nat) : Option (Nat × Nat) :=
  match off with
  | 0x0100 => some (fieldN v 56 2 * 2 ^ 56 + v % 64, 62)
  | 0x0110 => some (v % 1024, 62)
  | 0x0300 => some (v % 2 ^ 20, 63)
  | 0x0528 => some (fieldN v 40 18 * 2 ^ 40 + v % 2 ^ 25, 62)
  | _ => none

namespace State

/-- Whether a graph context runs: it has started and has not stopped. -/
def ctxRuns (s : State) (c : Nat) : Bool := (s.ctx c).state != 0

/-- Whether the work of a context goes on: it is not being saved (R322). -/
def ctxLive (s : State) (c : Nat) : Bool := s.ctxRuns c && !(s.ctx c).leaving

/-- Whether any graph context runs. -/
def anyRuns (s : State) : Bool := s.ctxs.any (fun e => e.2.state != 0)

/-- A report held for a full ring goes out (R318). -/
def drainReports (s : State) : Nat → State
  | 0 => s
  | n + 1 =>
    match s.frqHeld with
    | [] => s
    | r :: rs => if s.frqFull then s else (({ s with frqHeld := rs } : State).writeReport r).drainReports n

/-- A write of FRQHEAD (R318): accepted only within one ring of FRQTAIL; held producers then go on. -/
def writeFrqHead (s : State) (v : Nat) : State :=
  let h := v % 2 ^ 32
  if (s.devReg 0x518 + 2 ^ 32 - h) % 2 ^ 32 ≤ s.frqSize then
    let s1 := (s.setDev 0x520 h).drainReports s.frqHeld.length
    if s1.frqFull then s1 else { s1 with telem := { s1.telem with holding := false } }
  else s

/-- Whether the pool registers may change (R278). -/
def poolIdle (s : State) : Bool :=
  s.ctxs.all (fun e => e.2.state == 0 && e.2.saved.isNone) &&
  s.backfill.all (fun e => e.2.isEmpty) && s.tasks.all (fun e => e.2.kind != .backfill) &&
  s.cores.all (fun e => e.2.chans.all (fun c => c.2.all (fun o => match o.kind with
    | .kvcp => false
    | .pfxl => false
    | .pfxi => false
    | _ => true)))

/-- Every block of a pool of `gib` GiB free: 1 GiB blocks of order 14 (R278). -/
def poolFree (gib : Nat) : Buddy := ⟨(span 0 gib).map (fun i => (14, i * 2 ^ 14)), []⟩

/-- A write of KVPOOLVA, KVPOOLSZ or KVREFVA (R278). -/
def writePool (s : State) (off v : Nat) : State :=
  if !s.poolIdle then s
  else match idleKeep off v with
  | some x =>
    let s1 := s.setDev off x
    if off = 0x408 then ({ s1 with kv := ⟨poolFree x⟩ } : State) else s1
  | none => s

/-- A write of PFXVA: clearing EN drops every node of the prefix tree and its reference, with the pool mapped as in control core 0's
space (R278, R302, log entry 9). -/
def writePfx (s : State) (v : Nat) : State :=
  let s1 := s.setDev 0x418 (fieldN v 16 41 * 2 ^ 16 + v % 2)
  if v % 2 = 0 then
    let s2 := s.pfx.foldl (fun (s : State) n => s.refDown (s.ctrlSpace 0).2 n.base) s1
    { s2 with pfx := [] }
  else s1

/-- Whether a launch of a slot that holds a plan entry runs (R219). -/
def planBusy (s : State) (cl e : Nat) : Bool :=
  (s.cluster cl).launches.any (fun l => decide (l.first ≤ e) && decide (e < l.first + l.count))

/-- A write of eight bytes into a cluster's plan store (R324). -/
def storePlan (s : State) (cl o v : Nat) : State :=
  if o < 0x10000 then
    let old := ((s.cluster cl).plan.get 0 (o / 16)).toNat
    let new := setField old (64 * (o / 8 % 2)) 64 v
    s.updCluster cl (fun c => { c with plan := c.plan.set (o / 16) (BitVec.ofNat 128 new) })
  else if o < 0x10080 then
    let w : Word := BitVec.ofNat 64 (fieldN v 16 12 * 2 ^ 16 + v % 2 ^ 13)
    s.updCluster cl (fun c => { c with slots := c.slots.set ((o - 0x10000) / 8) w })
  else s

/-- PLAN_STORE_WRITE's effect (R219): a write to the entries of a running launch's slot is held until the launch completes. -/
def writePlan (s : State) (cl o v : Nat) : State :=
  if 80 ≤ cl then s
  else if decide (o < 0x10000) && s.planBusy cl (o / 16) then
    s.updCluster cl (fun c => { c with planHeld := c.planHeld ++ [(o, BitVec.ofNat 64 v)] })
  else s.storePlan cl o v

/-- The held plan store writes that a finished launch lets through (R219). -/
def releasePlan (s : State) (cl : Nat) : State :=
  let held := (s.cluster cl).planHeld
  held.foldl (fun s x => s.writePlan cl x.1 x.2.toNat) (s.updCluster cl (fun c => { c with planHeld := [] }))

/-- A read of a device register (R323, R324): an unlisted offset reads 0. SAVED is that of the context named. -/
def readDev (s : State) (off : Nat) : Nat :=
  if 0x100000 ≤ off then
    let cl := (off - 0x100000) / 0x20000
    let o := (off - 0x100000) % 0x20000
    if 80 ≤ cl then 0
    else if o < 0x10000 then fieldN ((s.cluster cl).plan.get 0 (o / 16)).toNat (64 * (o / 8 % 2)) 64
    else if o < 0x10080 then ((s.cluster cl).slots.get 0 ((o - 0x10000) / 8)).toNat
    else 0
  else if off = 0x100 then
    setField (s.devReg 0x100) 60 1 (s.ctx (s.devReg 0x100 % 64)).saved.isSome.toNat
  else s.devReg off

/-- A write of a device register (R323): a command register keeps its fields, and GO puts the command next on the agenda. While BUSY is set
GO is ignored, and of TINVCMD and STRANDCMD the whole write (Tables 7-5, 12-5, 13-2). A power register starts the settling of R332. -/
def writeDev (s : State) (off v : Nat) : State :=
  if 0x100000 ≤ off then s.writePlan ((off - 0x100000) / 0x20000) ((off - 0x100000) % 0x20000) v
  else if off = 0x520 then s.writeFrqHead v
  else if off = 0x208 then
    s.setDev off ((span 0 64).foldl (fun x c => if s.ctxRuns c then setField x c 1 (fieldN (s.devReg off) c 1) else x) v)
  else match commandKeep off v with
  | some (keep, busy) =>
    let busyNow := bitAt (s.devReg off) busy
    if busyNow && (off == 0x300 || off == 0x528) then s
    else
      let go := bitAt v 63 && (off == 0x100 || off == 0x110)
      let s1 := s.setDev off (keep + fieldN (s.devReg off) 60 2 * 2 ^ 60 + (busyNow || go).toNat * 2 ^ busy)
      match (if busyNow then none else devCommand s off v) with
      | some e => { s1 with agenda := .event e :: s1.agenda }
      | none => s1
  | none =>
    if off = 0x418 then s.writePfx v
    else if 0x400 ≤ off ∧ off < 0x418 then s.writePool off v
    else match idleKeep off v with
    | some x => if s.anyRuns then s else s.setDev off x
    | none => match devKeep off v with
      | some x =>
        let s1 := s.setDev off x
        if off < 0x618 && decide (0x600 ≤ off) then { s1 with power := { s1.power with age := 0 } } else s1
      | none => s

end State

end Sys2Proof.Machine
end

