-- ==== Sys2Proof/Machine/Float.lean ====
section
/-! DEFINITION. Number formats and exact arithmetic (R107 to R122, R129): values as exact dyadic numbers, one rounding each, the
integer targets, and the special functions (R133) by exact integer bounds refined until the rounding is decided. -/

namespace Sys2Proof.Machine

open Sys2Proof

/-- A floating-point format: exponent and mantissa widths, and whether it has no infinity (Table 5-1). -/
structure Fmt where
  e     : Nat
  m     : Nat
  noInf : Bool
deriving DecidableEq, Repr

def Fmt.fp64 : Fmt := ⟨11, 52, false⟩
def Fmt.fp32 : Fmt := ⟨8, 23, false⟩
def Fmt.bf16 : Fmt := ⟨8, 7, false⟩
def Fmt.fp16 : Fmt := ⟨5, 10, false⟩
def Fmt.e5m2 : Fmt := ⟨5, 2, false⟩
def Fmt.e4m3 : Fmt := ⟨4, 3, true⟩

namespace Fmt

def width (f : Fmt) : Nat := 1 + f.e + f.m
def bias (f : Fmt) : Nat := 2 ^ (f.e - 1) - 1
/-- The code of the largest finite magnitude (Table 5-1). -/
def maxCode (f : Fmt) : Nat := if f.noInf then 2 ^ (f.e + f.m) - 2 else (2 ^ f.e - 1) * 2 ^ f.m - 1
/-- The canonical NaN (R108). -/
def nan (f : Fmt) : Nat := if f.noInf then 2 ^ (f.e + f.m) - 1 else (2 ^ f.e - 1) * 2 ^ f.m + 2 ^ (f.m - 1)
/-- The code of an infinity; a format without one gives its NaN (R120). -/
def inf (f : Fmt) (neg : Bool) : Nat :=
  if f.noInf then f.nan else (2 ^ f.e - 1) * 2 ^ f.m + (if neg then 2 ^ (f.e + f.m) else 0)
def signed (f : Fmt) (neg : Bool) (code : Nat) : Nat := code + (if neg then 2 ^ (f.e + f.m) else 0)

end Fmt

/-- The value of a code: a NaN, an infinity, or (−1)^neg × mag × 2^exp. -/
inductive FVal where
  | nan
  | inf (neg : Bool)
  | fin (neg : Bool) (mag : Nat) (exp : Int)
deriving DecidableEq, Repr

/-- The exact value of a code (R107, R118). -/
def Fmt.read (f : Fmt) (c : Nat) : FVal :=
  let neg := bitAt c (f.e + f.m)
  let E := fieldN c f.m f.e
  let M := fieldN c 0 f.m
  if f.noInf && E == 2 ^ f.e - 1 && M == 2 ^ f.m - 1 then .nan
  else if !f.noInf && E == 2 ^ f.e - 1 then (if M = 0 then .inf neg else .nan)
  else if E = 0 then .fin neg M (1 - (f.bias : Int) - f.m)
  else .fin neg (2 ^ f.m + M) ((E : Int) - f.bias - f.m)

/-- How a rounding is made: the mode (R114), the draw for SR (R115), SAT (R120) and FTZ (R119). -/
structure Rnd where
  mode : Nat
  draw : Nat
  sat  : Bool
  ftz  : Bool
deriving DecidableEq, Repr

/-- Round to nearest even with nothing else set. -/
def Rnd.rne (ftz : Bool) : Rnd := ⟨0, 0, false, ftz⟩

/-- Whether a magnitude `lo` + rem / 2^sh between neighbours goes away from zero (R114, R115). -/
def roundAway (r : Rnd) (neg : Bool) (lo rem sh : Nat) : Bool :=
  if rem = 0 then false
  else match r.mode with
    | 0 => decide (2 ^ sh < 2 * rem) || (2 * rem == 2 ^ sh && lo % 2 == 1)
    | 1 => false
    | 2 => !neg
    | 3 => neg
    | 4 => decide (2 ^ sh ≤ 2 * rem)
    | _ => decide (r.draw < rem * 65536 / 2 ^ sh)

/-- A magnitude mag × 2^exp as a whole number of 2^q, rounded (R114). -/
def roundUnits (r : Rnd) (neg : Bool) (mag : Nat) (exp q : Int) : Nat :=
  if q ≤ exp then mag * 2 ^ (exp - q).toNat
  else
    let sh := (q - exp).toNat
    let lo := mag / 2 ^ sh
    if roundAway r neg lo (mag % 2 ^ sh) sh then lo + 1 else lo

/-- The code of a rounded finite value (R114, R119, R120). -/
def Fmt.round (f : Fmt) (r : Rnd) (neg : Bool) (mag : Nat) (exp : Int) : Nat :=
  if mag = 0 then f.signed neg 0
  else
    let qmin : Int := 1 - (f.bias : Int) - f.m
    let q : Int := Max.max qmin (exp + Nat.log2 mag - f.m)
    let code := roundUnits r neg mag exp q + (q - qmin).toNat * 2 ^ f.m
    if f.maxCode < code then
      if r.sat || r.mode == 1 || (r.mode == 2 && neg) || (r.mode == 3 && !neg) then f.signed neg f.maxCode else f.inf neg
    else if r.ftz && decide (code < 2 ^ f.m) then f.signed neg 0
    else f.signed neg code

/-- The code of a value rounded or converted (R108, R120). -/
def Fmt.write (f : Fmt) (r : Rnd) : FVal → Nat
  | .nan => f.nan
  | .inf neg => if r.sat then f.signed neg f.maxCode else f.inf neg
  | .fin neg mag exp => f.round r neg mag exp

namespace FVal

def isNan : FVal → Bool
  | .nan => true
  | _ => false

def neg : FVal → FVal
  | .nan => .nan
  | .inf s => .inf (!s)
  | .fin s m e => .fin (!s) m e

def isZero : FVal → Bool
  | .fin _ m _ => m == 0
  | _ => false

def sign : FVal → Bool
  | .nan => false
  | .inf s => s
  | .fin s _ _ => s

/-- The exact product (R124): an infinite factor times a zero is a NaN. -/
def mul (a b : FVal) : FVal :=
  match a, b with
  | .nan, _ => .nan
  | _, .nan => .nan
  | .inf s, y => if y.isZero then .nan else .inf (s != y.sign)
  | x, .inf s => if x.isZero then .nan else .inf (x.sign != s)
  | .fin s m e, .fin t n g => .fin (s != t) (m * n) (e + g)

/-- A value as an integer count of 2^q, for q at or below its exponent. -/
def units (q : Int) : FVal → Int
  | .fin s m e => (if s then -1 else 1) * ((m * 2 ^ (e - q).toNat : Nat) : Int)
  | _ => 0

def expOf : FVal → Int
  | .fin _ _ e => e
  | _ => 0

/-- The exact sum of a list of values; a zero sum is −0 when every addend is −0, or when `rdn` says that the rounding is RDN
(R122, R124). -/
def sum (rdn : Bool) (vs : List FVal) : FVal :=
  if vs.any isNan || (vs.any (fun v => v == .inf false) && vs.any (fun v => v == .inf true)) then .nan
  else if vs.any (fun v => v == .inf false) then .inf false
  else if vs.any (fun v => v == .inf true) then .inf true
  else
    let q : Int := vs.foldl (fun q v => Min.min q v.expOf) 0
    let n := vs.foldl (fun n v => n + v.units q) (0 : Int)
    if n = 0 then .fin (rdn || (!vs.isEmpty && vs.all (fun v => v.isZero && v.sign))) 0 0
    else .fin (decide (n < 0)) n.natAbs q

/-- A value times a power of two. -/
def scale (k : Int) : FVal → FVal
  | .fin s m e => .fin s m (e + k)
  | v => v

/-- The order of two values, none when either is a NaN; −0 equals +0 (R344). -/
def cmp (a b : FVal) : Option Ordering :=
  match a, b with
  | .nan, _ => none
  | _, .nan => none
  | .inf s, .inf t => some (if s = t then .eq else if s then .lt else .gt)
  | .inf s, .fin _ _ _ => some (if s then .lt else .gt)
  | .fin _ _ _, .inf t => some (if t then .gt else .lt)
  | x, y =>
    let q : Int := Min.min x.expOf y.expOf
    some (compare (x.units q) (y.units q))

/-- Whether `a` is below `b` for VMAX and VMIN, which order −0 below +0 (R129). -/
def below (a b : FVal) : Bool :=
  match cmp a b with
  | some .lt => true
  | some .eq => a.sign && !b.sign
  | _ => false

end FVal

/-- An integer nearest to a value by a rounding mode (R114, R121); a NaN gives 0 and an infinity a bound beyond every range. -/
def roundToInt (r : Rnd) : FVal → Int
  | .nan => 0
  | .inf s => (if s then -1 else 1) * ((2 ^ 200 : Nat) : Int)
  | .fin s m e => (if s then -1 else 1) * ((roundUnits r s m e 0 : Nat) : Int)

/-- Saturation to a range (R121). -/
def clampInt (lo hi x : Int) : Int := if x < lo then lo else if hi < x then hi else x

/-- The value of an integer. -/
def ofInt (x : Int) : FVal := .fin (decide (x < 0)) x.natAbs 0

/-- One element-wise operation rounded once in a format (R129). -/
def Fmt.add (f : Fmt) (r : Rnd) (a b : Nat) : Nat := f.write r (FVal.sum (r.mode == 3) [f.read a, f.read b])
def Fmt.sub (f : Fmt) (r : Rnd) (a b : Nat) : Nat := f.write r (FVal.sum (r.mode == 3) [f.read a, (f.read b).neg])
def Fmt.mul (f : Fmt) (r : Rnd) (a b : Nat) : Nat := f.write r ((f.read a).mul (f.read b))
def Fmt.fma (f : Fmt) (r : Rnd) (a b c : Nat) : Nat :=
  f.write r (FVal.sum (r.mode == 3) [(f.read a).mul (f.read b), f.read c])
def Fmt.fms (f : Fmt) (r : Rnd) (a b c : Nat) : Nat :=
  f.write r (FVal.sum (r.mode == 3) [(f.read a).mul (f.read b), (f.read c).neg])
/-- VMAX and VMIN: the canonical NaN if either is a NaN, −0 below +0 (R129). -/
def Fmt.max (f : Fmt) (a b : Nat) : Nat :=
  if (f.read a).isNan || (f.read b).isNan then f.nan else if (f.read a).below (f.read b) then b else a
def Fmt.min (f : Fmt) (a b : Nat) : Nat :=
  if (f.read a).isNan || (f.read b).isNan then f.nan else if (f.read b).below (f.read a) then b else a

/-- A conversion between formats (R114, R120). -/
def convert (src dst : Fmt) (r : Rnd) (c : Nat) : Nat := dst.write r (src.read c)

/-! Special functions (R133). -/

/-- The integer square root, bit by bit from bit `k` down. -/
def isqrtBits (n : Nat) : Nat → Nat → Nat
  | 0, r => if (r + 1) * (r + 1) ≤ n then r + 1 else r
  | k + 1, r => isqrtBits n k (if (r + 2 ^ (k + 1)) * (r + 2 ^ (k + 1)) ≤ n then r + 2 ^ (k + 1) else r)

/-- A truncated value with a last bit that tells whether anything was cut off, which decides every rounding. -/
def sticky (neg : Bool) (q : Nat) (inexact : Bool) (exp : Int) : FVal := .fin neg (2 * q + inexact.toNat) (exp - 1)

/-- 1/x of a nonzero value, exact or with a sticky bit. -/
def recip (s : Bool) (m : Nat) (e : Int) : FVal :=
  let k := Nat.log2 m + 130
  sticky s (2 ^ k / m) (2 ^ k % m != 0) (-e - k)

/-- 1/√x of a positive value, exact or with a sticky bit. -/
def recipSqrt (m : Nat) (e : Int) : FVal :=
  let odd := e % 2 != 0
  let m' := if odd then 2 * m else m
  let h : Int := (if odd then e - 1 else e) / 2
  let k := Nat.log2 m' + 130
  let n := 2 ^ (2 * k) / m'
  let r := isqrtBits n (k + 1) 0
  sticky false r (r * r * m' != 2 ^ (2 * k)) (-h - k)

/-- ln 2 in units of 2^-p, by 2 × Σ 3^-(2i+1) / (2i+1). -/
def ln2Sum (p : Nat) : Nat → Nat → Nat → Nat → Nat
  | 0, _, _, acc => acc
  | n + 1, i, pw, acc => ln2Sum p n (i + 1) (pw / 9) (acc + pw / (2 * i + 1))

def ln2Fixed (p : Nat) : Nat := 2 * ln2Sum p p 0 (2 ^ p / 3) 0

/-- The Taylor sum of e^r in units of 2^-p. -/
def expSum (p r : Nat) : Nat → Nat → Nat → Nat → Nat
  | 0, _, _, acc => acc
  | n + 1, i, term, acc => expSum p r n (i + 1) (term * r / 2 ^ p / i) (acc + term)

/-- e^x for x = X × 2^-p as a count of 2^(k − p): the count and k; its error is below 2^24 units. -/
def expFixed (p : Nat) (X : Int) : Nat × Int :=
  let l := ln2Fixed p
  let k := X / (l : Int)
  let r := (X - k * l).toNat
  (expSum p r (p / 2 + 8) 1 (2 ^ p) 0, k)

/-- A value in units of 2^-p, rounded down. -/
def fixedOf (p : Nat) (s : Bool) (m : Nat) (e : Int) : Int :=
  let u : Nat := if -(p : Int) ≤ e then m * 2 ^ (e + p).toNat else m / 2 ^ (-(p : Int) - e).toNat
  if s then -(u : Int) else u

/-- Bounds refined until both round alike (R133); the last precision is never reached by these functions' values. -/
def refine (f : Fmt) (r : Rnd) (neg : Bool) (bounds : Nat → (Nat × Nat × Int)) : List Nat → Nat
  | [] => f.nan
  | p :: ps =>
    let b := bounds p
    let lo := f.round r neg b.1 b.2.2
    let hi := f.round r neg b.2.1 b.2.2
    if lo = hi then lo else refine f r neg bounds ps

/-- The precisions tried, in bits. -/
def precisions : List Nat := [256, 512, 1024, 2048]

/-- e^x (Table 5-4). -/
def Fmt.exp (f : Fmt) (ftz : Bool) (c : Nat) : Nat :=
  let r := Rnd.rne ftz
  match f.read c with
  | .nan => f.nan
  | .inf true => 0
  | .inf false => f.inf false
  | .fin s m e =>
    if m = 0 then f.round r false 1 0
    else if 11 ≤ e + Nat.log2 m then f.round r false 1 (if s then -5000 else 5000)
    else refine f r false (fun p =>
      let x := expFixed p (fixedOf p s m e)
      (x.1 - 2 ^ 24, x.1 + 2 ^ 24, x.2 - p)) precisions

/-- The sum of atanh z in units of 2^-p, for z² = q: Σ z^(2i+1) / (2i+1). -/
def atanhSum (p q : Nat) : Nat → Nat → Nat → Nat → Nat
  | 0, _, _, acc => acc
  | n + 1, i, pw, acc => atanhSum p q n (i + 1) (pw * q / 2 ^ p) (acc + pw / (2 * i + 1))

/-- ln of m × 2^e in units of 2^-p, with error below 2^24 units. -/
def lnFixed (p m : Nat) (e : Int) : Int :=
  let lg := Nat.log2 m
  let big := decide (3 * 2 ^ lg ≤ 2 * m)
  let k : Int := e + lg + (if big then 1 else 0)
  let one := if big then 2 ^ (lg + 1) else 2 ^ lg
  let num : Nat := if big then one - m else m - one
  let z := num * 2 ^ p / (m + one)
  let a := 2 * atanhSum p (z * z / 2 ^ p) p 0 z 0
  k * (ln2Fixed p : Int) + (if big then -(a : Int) else a)

/-- ln x (Table 5-4). -/
def Fmt.ln (f : Fmt) (ftz : Bool) (c : Nat) : Nat :=
  let r := Rnd.rne ftz
  match f.read c with
  | .nan => f.nan
  | .inf true => f.nan
  | .inf false => f.inf false
  | .fin s m e =>
    if m = 0 then f.inf true
    else if s then f.nan
    else if (FVal.fin s m e).cmp (.fin false 1 0) = some .eq then 0
    else
      let neg := decide ((FVal.fin s m e).cmp (.fin false 1 0) = some .lt)
      refine f r neg (fun p =>
        let x := (lnFixed p m e).natAbs
        (x - 2 ^ 24, x + 2 ^ 24, -(p : Int))) precisions

/-- 1/x (Table 5-4). -/
def Fmt.rcp (f : Fmt) (ftz : Bool) (c : Nat) : Nat :=
  match f.read c with
  | .nan => f.nan
  | .inf s => f.signed s 0
  | .fin s m e => if m = 0 then f.inf s else f.write (Rnd.rne ftz) (recip s m e)

/-- 1/√x (Table 5-4). -/
def Fmt.rsq (f : Fmt) (ftz : Bool) (c : Nat) : Nat :=
  match f.read c with
  | .nan => f.nan
  | .inf true => f.nan
  | .inf false => 0
  | .fin s m e => if m = 0 then f.inf s else if s then f.nan else f.write (Rnd.rne ftz) (recipSqrt m e)

/-- tanh x (Table 5-4): a small x rounds as x less a little, and elsewhere (e^2x − 1) / (e^2x + 1). -/
def Fmt.tanh (f : Fmt) (ftz : Bool) (c : Nat) : Nat :=
  let r := Rnd.rne ftz
  match f.read c with
  | .nan => f.nan
  | .inf s => f.round r s 1 0
  | .fin s m e =>
    if m = 0 then f.signed s 0
    else if 6 ≤ e + Nat.log2 m then f.round r s 1 0
    else if e + Nat.log2 m < -30 then f.round r s (m * 2 ^ 200 - 1) (e - 200)
    else refine f r s (fun p =>
      let x := expFixed p (fixedOf p false m (e + 1))
      let E := x.1 * 2 ^ x.2.toNat
      let d := 2 ^ 24 * 2 ^ x.2.toNat
      ((E - d - 2 ^ p) * 2 ^ p / (E - d + 2 ^ p), (E + d - 2 ^ p) * 2 ^ p / (E + d + 2 ^ p) + 1, -(p : Int))) precisions

/-! The stochastic rounding generator (R117). -/

/-- One draw: the value and the generator after it. -/
def srDraw (st : Nat) : Nat × Nat :=
  let s0 := if st % 2 ^ 32 = 0 then 1 else st % 2 ^ 32
  let s1 := s0 ^^^ (s0 <<< 13 % 2 ^ 32)
  let s2 := s1 ^^^ (s1 >>> 17)
  let s3 := s2 ^^^ (s2 <<< 5 % 2 ^ 32)
  (s3 / 65536, s3)

/-- A run of draws in order. -/
def srDraws : Nat → Nat → List Nat × Nat
  | 0, st => ([], st)
  | n + 1, st =>
    let d := srDraw st
    let r := srDraws n d.2
    (d.1 :: r.1, r.2)

/-- The seed at dispatch (R117). -/
def srSeed (ordinal member : Nat) : Nat := (0x6A09E667 + 0x9E3779B9 * (ordinal % 2 ^ 32) + 0x85EBCA6B * member) % 2 ^ 32

end Sys2Proof.Machine
end

