-- ==== Sys2Proof/Machine/Handles.lean ====
section
/-! DEFINITION. Tensor handle descriptors (R189, R358, R359), the spans they reach (R190, R235), and region identifiers (R187). -/

namespace Sys2Proof.Machine

open Sys2Proof

/-- A descriptor's fields from its 512 bits (Table 14-17). -/
def handleOf (v : Nat) : Handle where
  valid := bitAt v 128
  region := bitAt v 129
  base := v % 2 ^ 64
  fmt := fieldN v 130 4
  rank := fieldN v 134 3
  layout := fieldN v 137 4
  shard := fieldN v 141 11
  dims := (span 0 6).map (fun i => fieldN v (152 + 24 * i) 24)
  strides := (span 0 6).map (fun i => signedN 36 (fieldN v (296 + 36 * i) 36))

/-- The size of a dimension, with dimension registers as they stand (R359). -/
def dimSize (d : Map Word) (raw : Nat) : Nat := if bitAt raw 23 then (d.get 0 (raw % 64)).toNat else raw % 2 ^ 23

/-- Whether a DIM field is malformed or its register's size too large (R359). -/
def dimBad (d : Map Word) (raw : Nat) : Bool := bitAt raw 23 && (fieldN raw 6 17 != 0 || decide (2 ^ 40 ≤ (d.get 0 (raw % 64)).toNat))

/-- The sizes of the dimensions below the rank (R26). -/
def Handle.sizes (h : Handle) (d : Map Word) : List Nat := (h.dims.take h.rank).map (dimSize d)

/-- The bits of an element of a format (Tables 4-10, 5-1, 5-2). -/
def fmtBits (code : Nat) : Nat :=
  match code with
  | 0 => 64 | 1 => 32 | 2 => 16 | 3 => 16 | 10 => 6 | 11 => 4
  | _ => 8

/-- The K elements of an operand row (Table 5-3). -/
def fmtK (code : Nat) : Nat := 1536 / fmtBits code

/-- Whether a format is an MX format (R111). -/
def isMx (code : Nat) : Bool := code == 6 || code == 7 || code == 9 || code == 10 || code == 11

/-- The base of a region in its cluster's windows (R187). -/
def regionBase (id : Nat) : Nat := 0x1000000 + fieldN id 10 3 * 0x400000 + id % 1024 * 0x1000

/-- The cluster of a region (R187). -/
def regionCluster (id : Nat) : Nat := fieldN id 13 7

/-- The address that a handle is based on (R187, R189). -/
def Handle.origin (h : Handle) : Nat := if h.region then regionBase (h.base % 2 ^ 21) else h.base

/-- The offset of an index vector by the strides. -/
def strideSum : List Nat → List Int → Int
  | i :: is, st :: ss => i * st + strideSum is ss
  | _, _ => 0

/-- The lowest and the highest offset that the strides reach over sizes that are not zero. -/
def strideSpan : List Nat → List Int → Int × Int
  | n :: ns, st :: ss =>
    let r := strideSpan ns ss
    let far := ((n - 1 : Nat) : Int) * st
    (r.1 + Min.min 0 far, r.2 + Max.max 0 far)
  | _, _ => (0, 0)

/-- The last byte of an operand row that element `p` of it reaches: of its code, or its scale byte (R112, R113). -/
def rowEnd (code p : Nat) : Nat := if isMx code then 192 + p / 32 else (p * fmtBits code + fmtBits code - 1) / 8

/-- The lowest and the highest byte, from the first row's, that elements `a` to `b` along K reach in operand rows a stride apart (R112,
R189): an operand row in between is taken whole. -/
def rowsSpan (code a b : Nat) (st : Int) : Int × Int :=
  let k := fmtK code
  let lo := a / k
  let hi := b / k
  let ends (r : Nat) : Int × Int :=
    (r * st + (if r = lo then a % k * fmtBits code / 8 else 0 : Nat), r * st + (rowEnd code (if r = hi then b % k else k - 1) : Nat))
  [Nat.min (lo + 1) hi, Nat.max lo (hi - 1), hi].foldl (fun (x : Int × Int) r => (min x.1 (ends r).1, max x.2 (ends r).2)) (ends lo)

/-- The span of a box of a handle: from its lowest to its highest byte (R190, R235); none when it holds no element. -/
def Handle.boxSpan (h : Handle) (sizes origin extent : List Nat) : Option (Nat × Nat) :=
  let n := sizes.length
  let o := origin.take n
  let last (l : List Nat) : Nat := nth 0 l (n - 1)
  let row (l : List Nat) : Nat := nth 0 l (n - 2)
  let top := (o.zip extent).map (fun x => x.1 + x.2 - 1)
  let k := fmtK h.fmt
  let at_ (x : Int) : Nat := codeN 64 (h.origin + x)
  let lanes := if h.fmt = 0 then 64 else 128
  let cell (r c : Nat) : Int := (((c / lanes * 32 + r) * 512 + c % lanes * (512 / lanes) : Nat) : Int)
  let outer (m : Nat) : Int × Int :=
    let base := strideSum (o.take m) h.strides
    let far := strideSpan (extent.take m) h.strides
    (base + far.1, base + far.2)
  if (extent.take n).any (· == 0) then none
  else some (match h.layout with
    | 0 => (at_ (outer n).1, at_ ((outer n).2 + ceilDiv (fmtBits h.fmt) 8 - 1))
    | 1 =>
      let x := rowsSpan h.fmt (last o) (last top) (nth 0 h.strides (n - 1))
      (at_ ((outer (n - 1)).1 + x.1), at_ ((outer (n - 1)).2 + x.2))
    | 2 => (at_ ((outer (n - 2)).1 + cell (row o) (last o)), at_ ((outer (n - 2)).2 + cell (row top) (last top) + (512 / lanes : Nat) - 1))
    | _ =>
      let cols := (sizes.take (n - 1)).foldl (fun p x => p * x) 1
      let col (i : List Nat) : Nat := ((sizes.zip i).take (n - 1)).foldl (fun c x => c * x.1 + x.2) 0
      (at_ (((last o / k * cols + col o) * 256 + last o % k * fmtBits h.fmt / 8 : Nat) : Int),
       at_ (((last top / k * cols + col top) * 256 + rowEnd h.fmt (last top % k) : Nat) : Int)))

/-- The span of a whole handle (R190, R235); none when it holds no element. -/
def Handle.span (h : Handle) (sizes : List Nat) : Option (Nat × Nat) := h.boxSpan sizes (sizes.map (fun _ => 0)) sizes

/-- The address of the first byte of a tile: that of the element at an origin, each coordinate kept below its size (R36, R189). In
layout 1 a K coordinate beyond one operand row takes a step of the last dimension's stride for each further row, which no rule gives
(log entry 22). -/
def Handle.at (h : Handle) (sizes origin : List Nat) : Nat :=
  let idx := (sizes.zip (origin ++ List.replicate 6 0)).map (fun x => Nat.min x.2 (x.1 - 1))
  let n := sizes.length
  let last := nth 0 idx (n - 1)
  let k := fmtK h.fmt
  match h.layout with
  | 0 => codeN 64 (h.origin + strideSum idx h.strides)
  | 1 => codeN 64 (h.origin + strideSum (idx.take (n - 1) ++ [last / k]) h.strides + (last % k * fmtBits h.fmt / 8 : Nat))
  | 2 =>
    let lanes := if h.fmt = 0 then 64 else 128
    let row := nth 0 idx (n - 2)
    codeN 64 (h.origin + strideSum (idx.take (n - 2)) h.strides +
      ((last / lanes * 32 + row) * 512 + last % lanes * (512 / lanes) : Nat))
  | _ =>
    let cols := (sizes.take (n - 1)).foldl (fun p x => p * x) 1
    let col := ((sizes.zip idx).take (n - 1)).foldl (fun c x => c * x.1 + x.2) 0
    codeN 64 (h.origin + ((last / k * cols + col) * 256 : Nat))

/-- Whether a descriptor's layout 2 breaks the limits of R189. -/
def Handle.amBad (h : Handle) (sizes : List Nat) : Bool :=
  h.layout == 2 && (h.rank == 1 || !(h.fmt == 0 || h.fmt == 1) ||
    nth 1 sizes (sizes.length - 2) == 0 || decide (32 < nth 1 sizes (sizes.length - 2)) ||
    nth 1 sizes (sizes.length - 1) == 0 || decide (512 < nth 1 sizes (sizes.length - 1)))

end Sys2Proof.Machine
end

