-- ==== Sys2Proof/Machine/Operands.lean ====
section
/-! DEFINITION. The operand forms: widths and immediates of the scalar slot (R373), addresses (R162, R163, R441), register
targets (R374), and the guard (R90). -/

namespace Sys2Proof.Machine

open Sys2Proof

/-- The outcome of every meaning: a next state. -/
abbrev Result := Host.Outcome State Fault Refusal

/-- The width that w selects (R88, R373). -/
def opWidth (w : Bool) : Nat := if w then 32 else 64

/-- A scalar source: the register, or its low 32 bits with w = 1 (R373). -/
def Strand.src (t : Strand) (w : Bool) (r : Nat) : Nat := (t.val r).toNat % 2 ^ opWidth w

/-- A scalar result: reduced to the width and zero-extended (R88, R373). -/
def sized (w : Bool) (x : Nat) : Word := BitVec.ofNat 64 (x % 2 ^ opWidth w)

/-- A sign-extended immediate of `n` bits as a 64-bit code (R373). -/
def sextTo64 (n v : Nat) : Nat := codeN 64 (signedN n v)

namespace State

/-- A slot with a guard: a false guard performs nothing (R54, R90). -/
def guarded (s : State) (G : Guard) (f : State → State) : State := if s.me.guard G then f s else s

/-- A slot whose use of a register raises POISON when it is poisoned (Table 7-6). -/
def clean (s : State) (rs : List Nat) (f : State → State) : State :=
  if rs.any (fun r => s.me.pois r) then s.raise .poison else f s

/-- A scalar operation of two registers whose result lands at v + k with the poison of both (R60, R89, R373). -/
def alu2 (s : State) (G : Guard) (w : Bool) (d a b : BitVec 6) (k : Nat) (f : Nat → Nat → Nat → Nat) : State :=
  s.guarded G (fun s => s.land k (.g d.toNat (sized w (f (opWidth w) (s.me.src w a.toNat) (s.me.src w b.toNat)))
    (s.me.pois a.toNat || s.me.pois b.toNat)))

/-- A scalar operation of one register (R373). -/
def alu1 (s : State) (G : Guard) (w : Bool) (d a : BitVec 6) (f : Nat → Nat → Nat) : State :=
  s.guarded G (fun s => s.land 1 (.g d.toNat (sized w (f (opWidth w) (s.me.src w a.toNat))) (s.me.pois a.toNat)))

/-- A compare: POISON for a poisoned source, and the predicate lands at v + k (R89, R402). -/
def compare (s : State) (G : Guard) (pd : BitVec 4) (rs : List Nat) (k : Nat) (f : State → Bool) : State :=
  s.guarded G (fun s => s.clean rs (fun s => s.land k (.p pd.toNat (f s))))

end State

/-- An effective address: a base register and a sign-extended offset, modulo 2^64 (R441, R505, R368). -/
def effAddr (base : Word) (n off : Nat) : Nat := codeN 64 ((base.toNat : Int) + signedN n off)

/-- The places of Table 7-1, each range on its own (R162 to R166). -/
inductive Place where
  | own (cell : Nat)
  | peer (cell : Nat)
  | am (row cell : Nat)
  | translated
  | none
deriving DecidableEq, Repr

/-- The place of an access of `n` bytes at `a` by a strand; a range whose bytes do not all lie in one place is none (R163). -/
def State.place (s : State) (sid a n : Nat) : Place :=
  let gid := gidOf sid
  if 2 ^ 32 ≤ a then (if a + n ≤ 2 ^ 57 then .translated else .none)
  else if isCtrl sid then .none
  else if a < 0x400000 then (if a + n ≤ 0x400000 then .own (spadBase gid + a) else .none)
  else if a < 0x1000000 then .none
  else if a < 0x3000000 then
    let c := (a - 0x1000000) / 0x400000
    let o := (a - 0x1000000) % 0x400000
    let g := clusterOf sid * 8 + c
    if 0x400000 < o + n || (s.core g).removed then .none
    else if g = gid then .own (spadBase gid + o)
    else .peer (spadBase g + o)
  else if a < 0x8000000 then .none
  else if a < 0x8100000 then
    if a + n ≤ 0x8100000 then .am ((a - 0x8000000) / 512) (amBase gid + (a - 0x8000000)) else .none
  else .none

/-- Whether an AM row lies in a strand's window (R94). -/
def Strand.inWindow (t : Strand) (row : Nat) : Bool := decide (t.amBase ≤ row) && decide (row < t.amBase + t.amRows)

/-- The scalar size of a load code: bytes and sign (Table 14-9). -/
def loadForm (size : Nat) : LoadForm :=
  match size with
  | 0 => ⟨1, false⟩ | 1 => ⟨2, false⟩ | 2 => ⟨4, false⟩ | 3 => ⟨8, false⟩
  | 4 => ⟨1, true⟩ | 5 => ⟨2, true⟩ | 6 => ⟨4, true⟩ | _ => ⟨8, false⟩

/-- The row size of a code: 64, 128, 256 or 512 bytes (Table 14-9). -/
def rowBytes (size : Nat) : Nat := 64 * 2 ^ (size % 4)

/-- A loaded value extended to 64 bits (Table 14-9). -/
def LoadForm.extend (f : LoadForm) (bs : List Byte) : Word :=
  if f.signed then BitVec.ofNat 64 (codeN 64 (signedN (8 * f.size) (leNat bs))) else BitVec.ofNat 64 (leNat bs)

end Sys2Proof.Machine
end

