-- ==== Sys2Proof/Machine/Access.lean ====
section
/-! DEFINITION. An access of a strand to an address (R163, R179, R180, R441, R505, R369, R454): its place, its translation, the
checks at its target, and what it does there, at once or from the write queue (R236). -/

namespace Sys2Proof.Machine

open Sys2Proof

/-- The kind of access for the permissions of R176. -/
def AccOp.kind : AccOp → Kind
  | .load _ _ _ _ _ => .load
  | .loadRow _ _ _ => .load
  | .store _ _ _ => .store
  | .latch _ _ => .store
  | .unlock _ => .atomic
  | .desc _ _ => .load
  | .atomic _ _ _ _ _ _ _ _ _ => .atomic
  | .reduce _ _ _ _ _ => .store

/-- The KIND of a trap record (Table 12-7). -/
def AccOp.trapKind : AccOp → Kind
  | .reduce _ _ _ _ _ => .atomic
  | o => o.kind

/-- Whether an access is a load. -/
def AccOp.isLoad : AccOp → Bool
  | .load _ _ _ _ _ => true
  | .loadRow _ _ _ => true
  | _ => false

/-- The access with its landing VCC (R61, R67, R370). -/
def AccOp.landAt (o : AccOp) (v : Nat) : AccOp :=
  match o with
  | .load d f _ sp aq => .load d f v sp aq
  | .loadRow r n _ => .loadRow r n v
  | .atomic fn ty x c d _ o sc e => .atomic fn ty x c d v o sc e
  | o => o

/-- The landing VCC of an access. -/
def AccOp.landing : AccOp → Nat
  | .load _ _ v _ _ => v
  | .loadRow _ _ v => v
  | .atomic _ _ _ _ _ v _ _ _ => v
  | _ => 0

/-- The fixed latencies of an access: own scratchpad, peer window, elsewhere (R61, R67, R370). -/
def AccOp.latency : AccOp → Nat × Nat × Nat
  | .load _ _ _ _ _ => (4, 10, 4)
  | _ => (6, 12, 6)

/-- The class with which a reached place refuses an access (R168, R170 to R172, R323, R368, R454, R506). -/
def targetFault (s : State) (ctrl : Bool) (o : AccOp) (pa n : Nat) : Option TrapClass :=
  if !s.reachable pa then some .mchk
  else match targetOf (pa % 2 ^ 48) with
  | .hbm => none
  | .window => match o with
    | .load _ _ _ _ _ => none
    | .loadRow _ _ _ => none
    | .desc _ _ => none
    | .reduce _ _ _ _ _ => none
    | _ => some .accv
  | .ucode _ off => match o with
    | .load _ _ _ _ _ => none
    | .loadRow _ _ _ => none
    | .desc _ _ => none
    | .store _ _ _ => if 8 ≤ n && (ctrl || decide (0x20000 ≤ off)) then none else some .accv
    | _ => some .accv
  | .dev _ => match o with
    | .load _ _ _ _ _ => if ctrl && n == 8 then none else some .accv
    | .store _ _ _ => if ctrl && n == 8 then none else some .accv
    | _ => some .accv
  | .none => some .accv

/-- The function of an atomic or a reduction (Tables 15-2 and R454); none where ACAS makes no write. -/
def atomicFn (fn ty old x cmp : Nat) : Option Nat :=
  let n := if ty % 2 = 0 then 32 else 64
  let f := if ty = 2 then Fmt.fp32 else Fmt.fp64
  match fn with
  | 0x10 => some (if ty < 2 then (old + x) % 2 ^ n else f.add (Rnd.rne false) old x)
  | 0x11 => some (if ty < 2 then (if signedN n x < signedN n old then x else old) else f.min old x)
  | 0x12 => some (if ty < 2 then (if signedN n old < signedN n x then x else old) else f.max old x)
  | 0x13 => some (old &&& x)
  | 0x14 => some (old ||| x)
  | 0x15 => some (old ^^^ x)
  | 0x16 => some x
  | 0x17 => if old = cmp then some x else none
  | 0x18 => some (if ty < 2 then (old + x) % 2 ^ n else f.add (Rnd.rne false) old x)
  | _ => some (if ty < 2 then (if signedN n old < signedN n x then x else old) else f.max old x)

/-- The bytes of an atomic's type (Table 15-1). -/
def typeBytes (ty : Nat) : Nat := if ty % 2 = 0 then 4 else 8

namespace State

/-- The bytes of a run of places: a device register read gives its value, and another module's registers a free value. -/
def readPieces (s : State) (ps : List (Nat × Nat)) : List Byte :=
  ps.foldr (fun p acc =>
    (match targetOf (p.1 % 2 ^ 48) with
      | .dev off =>
        if p.1 < 2 ^ 57 then leBytes p.2 (if p.1 / 2 ^ 48 = s.module then s.readDev off else Config.freeNat s.free)
        else s.bytesAt p.1 p.2
      | _ => s.bytesAt (homeOf p.1) p.2) ++ acc) []

def poisonPieces (s : State) (ps : List (Nat × Nat)) : List Bool :=
  ps.foldr (fun p acc => s.poisonAt (homeOf p.1) p.2 ++ acc) []

/-- Bytes written to a run of places (R507); a store to this module's device registers is a register write (R323). -/
def writePieces (s : State) : List (Nat × Nat) → List Byte → State
  | [], _ => s
  | p :: ps, bs =>
    let s1 := match targetOf (p.1 % 2 ^ 48) with
      | .dev off =>
        if p.1 < 2 ^ 57 then (if p.1 / 2 ^ 48 = s.module then s.writeDev off (leNat (bs.take p.2)) else s)
        else s.writeBytes p.1 (bs.take p.2)
      | _ => s.writeBytes (homeOf p.1) (bs.take p.2)
    s1.writePieces ps (bs.drop p.2)

/-- Bytes in place over a run of places, as the strand that queued them sees them. -/
def overlay (s : State) (ps : List (Nat × Nat)) (bs : List Byte) (po : List Bool) : State :=
  (ps.foldl (fun (a : State × List Byte × List Bool) p =>
    (a.1.write (homeOf p.1) (a.2.1.take p.2) (a.2.2.take p.2), a.2.1.drop p.2, a.2.2.drop p.2)) (s, bs, po)).1

/-- Memory as a strand sees it with its own queued stores in place (R232). -/
def withQueued (s : State) (wq : List WqItem) : State :=
  wq.foldl (fun s i => match i.what with
    | .write _ ps (.store bs _ _) => s.overlay ps bs []
    | .write _ ps (.latch bs po) => s.overlay ps bs po
    | _ => s) s

/-- The results of a load, as its destination takes them (R195, R197, R441, R446). -/
def loadVals (s : State) (wq : List WqItem) (o : AccOp) (ps : List (Nat × Nat)) : List LandVal :=
  let m := s.withQueued wq
  match o with
  | .load d f _ spec _ =>
    let po := (m.poisonPieces ps).any id
    [if spec && po then .g d 0 true else .g d (f.extend (m.readPieces ps)) po]
  | .loadRow row _ _ => [.row row (m.readPieces ps) (m.poisonPieces ps)]
  | _ => []

/-- The effect of an atomic at its word as one step (R233, R369): the old word, its poison, and memory after it. -/
def doAtomic (s : State) (fn ty : Nat) (x cmp : Word) (ps : List (Nat × Nat)) : Nat × Bool × State :=
  match ps with
  | [] => (0, false, s)
  | p :: _ =>
    let a := homeOf p.1
    let n := typeBytes ty
    let old := s.natAt a n
    if s.poisonIn a n then (old, true, s)
    else match atomicFn fn ty old (x.toNat % 2 ^ (8 * n)) (cmp.toNat % 2 ^ (8 * n)) with
      | some v => (old, false, s.writeNat a n v)
      | none => (old, false, s)

/-- A reduction at its home (R454), or held in the switches when it names a reduction window (R171, R222). -/
def doReduce (s : State) (sid id va fn ty : Nat) (x : Word) (ps : List (Nat × Nat)) : State :=
  match ps with
  | [] => s
  | p :: _ =>
    match targetOf (p.1 % 2 ^ 48) with
    | .window =>
      if p.1 < 2 ^ 57 then { s with swRed := s.swRed ++ [⟨sid, id, (s.strand sid).task, va, p.1, fn, ty, x.toNat % 2 ^ (8 * typeBytes ty)⟩] }
      else (s.doAtomic fn ty x 0 ps).2.2
    | _ => (s.doAtomic fn ty x 0 ps).2.2

/-- An UNLOCK's release (R265): the word freed, and the hand-off begun when a waiter stands; until it is made, the releaser keeps what
the waiters lend it (R266). -/
def doUnlock (s : State) (sid : Nat) (ps : List (Nat × Nat)) : State :=
  match ps with
  | [] => s
  | p :: _ =>
    let u := s.lockUnit p.1
    (s.writeNat p.1 8 (s.strandName sid)).setLock p.1 { u with holder := none, giver := u.holder, handing := !u.waiters.isEmpty }

/-- A landing entry filled by a queued atomic that has performed (R370). -/
def fillEntry (s : State) (sid id : Nat) (vals : List LandVal) : State :=
  s.updStrand sid (fun t => { t with lb := t.lb.map (fun e =>
    if e.id = id then { e with vals := vals, arrived := true, req := .data } else e) })

/-- A strand with its task, as a writer of a microcode store. -/
def writer (s : State) (sid : Nat) : Nat × Nat := (2 * (s.strand sid).task, sid)

/-- A bundle of a microcode store noted before a write of `n` bytes at `a` touches it: a write of a part of it keeps what it was for
the fills to come, and a write of all of it leaves nothing to keep (R46, R248). -/
def notePart (s : State) (who : Nat × Nat) (a n bundle : Nat) : State :=
  let rest := s.parts.filter (fun p => p.addr != bundle)
  if a ≤ bundle ∧ bundle + 64 ≤ a + n then { s with parts := rest }
  else match s.parts.find? (fun p => p.addr == bundle) with
    | some p => { s with parts := rest ++ [{ p with writers := who :: p.writers.erase who }] }
    | none => { s with parts := rest ++ [⟨bundle, BitVec.ofNat 512 (s.natAt bundle 64), [who]⟩] }

/-- The bundles that a write to a run of places touches, noted (R46). -/
def noteParts (s : State) (who : Nat × Nat) (ps : List (Nat × Nat)) : State :=
  ps.foldl (fun s p => match targetOf (p.1 % 2 ^ 48) with
    | .ucode _ _ =>
      if p.1 < 2 ^ 57 ∧ 0 < p.2 then
        (span (p.1 / 64) ((p.1 + p.2 - 1) / 64 - p.1 / 64 + 1)).foldl (fun s b => s.notePart who p.1 p.2 (64 * b)) s
      else s
    | _ => s) s

/-- The writes of a writer to the microcode stores, or to one cluster's, made visible (R248): a bundle that no other writer keeps is
fetched as it is. -/
def releaseParts (s : State) (who : Nat × Nat) (cluster : Option Nat) : State :=
  let mine (p : PartBundle) : Bool := p.writers.contains who && (match cluster with
    | some c => decide (ucodeBase s.module c ≤ p.addr) && decide (p.addr < ucodeBase s.module (c + 1))
    | none => true)
  { s with parts := (s.parts.map (fun p => (mine p, if mine p then { p with writers := p.writers.erase who } else p))).filterMap (fun x =>
      if x.1 && x.2.writers.isEmpty then none else some x.2) }

/-- A writer that has gone without making its writes visible: what it has changed in part is fetched as it was, until the bundle is
written again (R46, R246). -/
def abandonParts (s : State) (who : Nat × Nat) : State :=
  { s with parts := s.parts.map (fun p => { p with writers := p.writers.erase who }) }

/-- A write of a strand, at a place of its program order, performed (R236). -/
def performWrite (s : State) (sid id va : Nat) (ps : List (Nat × Nat)) (o : AccOp) : State :=
  match o with
  | .store bs _ _ => (s.noteParts (s.writer sid) ps).writePieces ps bs
  | .latch bs po => (ps.foldl (fun (a : State × List Byte × List Bool) p =>
      (a.1.write p.1 (a.2.1.take p.2) (a.2.2.take p.2), a.2.1.drop p.2, a.2.2.drop p.2)) (s, bs, po)).1
  | .unlock _ => s.doUnlock sid ps
  | .atomic fn ty x cmp d _ _ _ e =>
    let r := s.doAtomic fn ty x cmp ps
    r.2.2.fillEntry sid e [.g d (BitVec.ofNat 64 r.1) r.2.1]
  | .reduce fn ty x _ _ => s.doReduce sid id va fn ty x ps
  | _ => s

end State

/-- Whether an access's order makes it an acquire or a release at a scope wider than the strand (R234, R368). -/
def AccOp.acquires : AccOp → Bool
  | .load _ _ _ _ acq => acq
  | .atomic _ _ _ _ _ _ o sc _ => o % 2 == 1 && sc != 0
  | _ => false

def AccOp.releases : AccOp → Bool
  | .store _ rel sc => rel && sc != 0
  | .unlock _ => true
  | .atomic _ _ _ _ _ _ o sc _ => decide (2 ≤ o) && sc != 0
  | .reduce _ _ _ o sc => decide (2 ≤ o) && sc != 0
  | _ => false

namespace State

/-- An ordering event or a write put into the acting strand's queue, at its slot's place in program order (R228, R234, R236). -/
def enqueue (s : State) (w : WqKind) : State := s.updMe (fun t => t.enqueue ⟨s.posId, w, false⟩)

/-- The span of the handle whose descriptor an ACQH or RELH names, with the dimensions as they stood when the task's record issued
(R26, R235). -/
def handleSpan (s : State) (va : Nat) (h : Handle) : Option (Nat × Nat) :=
  let k := s.taskOf s.cur
  let w := (s.ctx k.ctx).walker
  let sp := match (microOf k).spans.find? (fun x => w.htva + 64 * x.1 == va) with
    | some x => some x.2
    | none => h.span (h.sizes (microOf k).dims)
  sp.map (fun x => if x.2 < 0x400000 then (peerVa s.cur x.1, peerVa s.cur x.2) else x)

/-- What follows once the places of an access are known (R228, R236, R370, R441): performed, or held behind the strand's ordering
events and behind what it has issued earlier. `entry` asks for a landing-buffer entry, and `timely` says that the data is there by
the landing. -/
def reach (s : State) (a : Access) (ps : List (Nat × Nat)) (entry timely : Bool) : State :=
  let t := s.me.before s.posId
  let va := peerVa s.cur a.addr
  let k := a.op.landing - s.me.vcc
  match a.op with
  | .load _ _ _ _ acq =>
    if t.heldRead va a.size || t.behindRead ps acq then
      let s1 := s.landEntry k [] false (.held a ps)
      if acq then s1.enqueue (.order .acqLoad 0 0 0) else s1
    else if entry then s.landEntry k (s.loadVals t.wq a.op ps) timely .data
    else (s.loadVals t.wq a.op ps).foldl (fun s v => s.land k v) s
  | .loadRow _ _ _ =>
    if t.heldRead va a.size || t.behindRead ps false then s.landEntry k [] false (.held a ps)
    else if entry then s.landEntry k (s.loadVals t.wq a.op ps) timely .data
    else (s.loadVals t.wq a.op ps).foldl (fun s v => s.land k v) s
  | .desc kind scope =>
    let h := handleOf (leNat (s.readPieces ps))
    if 4 ≤ h.layout then s.raise .illshape
    else if scope = 0 then s
    else
      let sp := (s.handleSpan a.addr h).getD (1, 0)
      s.enqueue (.order kind scope sp.1 sp.2)
  | .unlock _ =>
    let w := leNat (s.readPieces ps)
    let again := t.wq.any (fun i => match i.what with
      | .write _ qs (.unlock _) => piecesMeet ps qs
      | _ => false)
    if !bitAt w 63 || w % 2 ^ 25 != s.strandName s.cur || again then s.raiseVa .accv a.addr .atomic 0
    else s.enqueue (.write va ps a.op)
  | .atomic fn ty x cmp d l o sc _ =>
    if a.op.releases || t.heldRead va a.size || t.heldWrite va a.size || t.behind ps || s.me.pausedBefore s.slot then
      let s1 := if d = 0 then s else s.landEntry k [] false .queued
      let s2 := s1.enqueue (.write va ps (.atomic fn ty x cmp d l o sc s.posId))
      if a.op.acquires then s2.enqueue (.order .acqLoad 0 0 0) else s2
    else
      let r := s.doAtomic fn ty x cmp ps
      if d = 0 then r.2.2 else r.2.2.landEntry k [.g d (BitVec.ofNat 64 r.1) r.2.1] timely .data
  | o =>
    if o.releases || t.heldWrite va a.size || t.behind ps || s.me.pausedBefore s.slot then s.enqueue (.write va ps o)
    else s.performWrite s.cur s.posId va ps o

/-- A failed access (R180, R197): an LDS lands a poisoned zero, anything else traps. -/
def failAccess (s : State) (a : Access) (cls : TrapClass) (va level : Nat) : State :=
  match a.op with
  | .load d _ v true _ => s.land (v - s.me.vcc) (.g d 0 true)
  | o => s.raiseVa cls va o.trapKind level

/-- The translations of an access's pages, lower first (R163, R176, R178): the places with their levels, or the first failure. -/
def transAll (die asid root : Nat) (k : Kind) : List (Nat × Nat) → State →
    State × Except (TrapClass × Nat × Nat) (List (Nat × Nat × Nat × Nat))
  | [], s => (s, .ok [])
  | (va, n) :: rest, s =>
    let r := s.translate die asid root va k
    match r.1 with
    | .fail c l => (r.2, .error (c, va, l))
    | .page b size pa _ _ =>
      let q := transAll die asid root k rest r.2
      match q.2 with
      | .error e => (q.1, .error e)
      | .ok ps => (q.1, .ok ((pa + (va - b), n, va, sizeLevel size) :: ps))

/-- Whether an address's page may be written by a strand's space, for the WR bit of an L1 line (R177). -/
def pageWr (s : State) (die asid va : Nat) : Bool :=
  match s.tlbHit die asid va with
  | some e => e.wr
  | none => false

/-- The L1 lines of a load filled after a miss (R177, R445), each with the WR bit of its own page; lines of another module's memory are
not held (R243). -/
def fillL1 (s : State) (sid asid : Nat) (ps : List (Nat × Nat × Nat × Nat)) : State :=
  ps.foldl (fun s p =>
    if targetOf (p.1 % 2 ^ 48) = .hbm ∧ p.1 / 2 ^ 48 = s.module then
      (span (p.2.2.1 / 64) ((p.2.2.1 + p.2.1 - 1) / 64 - p.2.2.1 / 64 + 1)).foldl (fun s line =>
        let c := s.core (gidOf sid)
        match c.l1Hit asid (64 * line) with
        | some _ => s
        | none =>
          let pa := p.1 / 64 * 64 + 64 * (line - p.2.2.1 / 64)
          let wr := s.pageWr (dieOf (gidOf sid)) asid (64 * line)
          let s1 := s.updCore (gidOf sid) (fun c => c.l1Fill s.free ⟨asid, 64 * line, pa, wr⟩)
          { s1 with free := s1.free + 1 }) s
    else s) s

/-- A translated access once its translation is due (R179, R180): the acting strand goes on or traps. -/
def finish (s : State) (a : Access) : State :=
  let sp := s.space s.cur
  let die := dieOf (gidOf s.cur)
  let r := transAll die sp.1 sp.2 a.op.kind (pageCut a.addr a.size) s
  match r.2 with
  | .error (c, va, l) => r.1.failAccess a c va l
  | .ok ps =>
    match ps.findSome? (fun p => (targetFault r.1 (isCtrl s.cur) a.op p.1 p.2.1).map (fun c => (c, p.2.2.1, p.2.2.2))) with
    | some (c, va, l) => r.1.failAccess a c va l
    | none =>
      let s1 := if a.op.isLoad && a.fill then r.1.fillL1 s.cur sp.1 ps else r.1
      s1.reach a (ps.map (fun p => (p.1, p.2.1))) true false

/-- The places of an access that the L1 serves without a translation (R177). -/
def l1Places (s : State) (a : Access) : Option (List (Nat × Nat)) :=
  let sp := s.space s.cur
  let c := s.core (gidOf s.cur)
  let serve := match a.op with
    | .load _ _ _ _ _ => some false
    | .loadRow _ _ _ => some false
    | .desc _ _ => some false
    | .store _ _ _ => some true
    | _ => none
  match serve with
  | none => none
  | some wr =>
    (span (a.addr / 64) ((a.addr + a.size - 1) / 64 - a.addr / 64 + 1)).foldr (fun line acc =>
      match acc, c.l1Hit sp.1 (64 * line) with
      | some ps, some l =>
        if wr && !l.wr then none
        else
          let lo := Nat.max a.addr (64 * line)
          let hi := Nat.min (a.addr + a.size) (64 * line + 64)
          some ((l.pa + (lo - 64 * line), hi - lo) :: ps)
      | _, _ => none) (some [])

/-- A translated access at its issue (R177 to R179): served by the L1, by the translation cache, or paused for a walk. -/
def translated (s : State) (a : Access) : State :=
  match s.l1Places a with
  | some ps => s.reach a ps true false
  | none =>
    let sp := s.space s.cur
    if (pageCut a.addr a.size).all (fun x => (s.tlbHit (dieOf (gidOf s.cur)) sp.1 x.1).isSome) then s.finish a
    else s.updMe (fun t => { t with xlat := t.xlat ++ [a] })

/-- An access whose POISON and ALIGN tests have passed (R162 to R166, R441, R506, R368): by its place. `am` lets it read the AM
window, and `off` is the landing offset of an LDX. -/
def issueAccess (s : State) (addr size : Nat) (op : AccOp) (am fill : Bool) (off : Option Nat) : State :=
  let v := s.me.vcc
  let lat := op.latency
  let acc (k : Nat) : Access := ⟨addr, size, s.slot, op.landAt (v + off.getD k), fill⟩
  let at' (k cell : Nat) (entry : Bool) : State :=
    s.reach (acc k) [(cell, size)] (entry || off.isSome) (decide (k ≤ off.getD k))
  match s.place s.cur addr size with
  | .own c => at' lat.1 c false
  | .peer c => at' lat.2.1 c false
  | .am row c =>
    if am && s.me.inWindow row && s.me.inWindow ((addr + size - 1 - 0x8000000) / 512) then at' lat.2.2 c true
    else s.failAccess (acc lat.2.2) .accv addr 0
  | .translated => s.translated (acc lat.2.2)
  | .none => s.failAccess (acc lat.2.2) .accv addr 0

/-- The places of an 8-byte word that the acting strand reaches in one step, as a lock, a word wait or a descriptor read needs it;
the pause for its translation is not a step (R179). -/
def reachNow (s : State) (addr size : Nat) (op : AccOp) : State × Except (TrapClass × Nat × Nat) (List (Nat × Nat)) :=
  match s.place s.cur addr size with
  | .own c => (s, .ok [(c, size)])
  | .peer c => (s, .ok [(c, size)])
  | .translated =>
    let sp := s.space s.cur
    let r := transAll (dieOf (gidOf s.cur)) sp.1 sp.2 op.kind (pageCut addr size) s
    match r.2 with
    | .error e => (r.1, .error e)
    | .ok ps =>
      match ps.findSome? (fun p => (targetFault r.1 (isCtrl s.cur) op p.1 p.2.1).map (fun c => (c, p.2.2.1, p.2.2.2))) with
      | some e => (r.1, .error e)
      | none => (r.1, .ok (ps.map (fun p => (p.1, p.2.1))))
  | _ => (s, .error (.accv, addr, 0))

end State

/-! The L and W slots. -/

/-- The effective address of an LM or WM access (R441, R505). -/
def lmAddr (o : LMFields) (t : Strand) : Nat := effAddr (t.val o.base.toNat) 16 o.off.toNat

namespace State

/-- An access with its tests in order: POISON of the registers it uses, ALIGN, then the rest (R163, R371, R441, R508). -/
def checked (s : State) (rs : List Nat) (addr align : Nat) (k : Kind) (f : State → State) : State :=
  s.clean rs (fun s => if addr % align ≠ 0 then s.raiseVa .align addr k 0 else f s)

/-- A scalar load (R441). -/
def scalarLoad (s : State) (o : LMFields) (acq am fill : Bool) : State :=
  s.guarded o.G (fun s =>
    let f := loadForm o.size.toNat
    let a := lmAddr o s.me
    s.checked [o.base.toNat] a f.size .load (fun s => s.issueAccess a f.size (.load o.d.toNat f 0 false acq) am fill none))

/-- Whether an AM row holds a poisoned word (Table 7-6). -/
def rowPoison (s : State) (row : Nat) : Bool := s.poisonIn (rowBase (gidOf s.cur) row) 512

/-- A scalar or row store (R505 to R508). -/
def anyStore (s : State) (o : LMFields) (rel : Bool) (scope : Nat) : State :=
  s.guarded o.G (fun s =>
    let a := lmAddr o s.me
    if o.vec then
      let n := rowBytes o.size.toNat
      let row := s.me.vrow o.d.toNat
      s.clean [o.base.toNat] (fun s =>
        if s.rowPoison row then s.raise .poison
        else s.checked [] a 64 .store (fun s =>
          s.issueAccess a n (.store (s.bytesAt (rowBase (gidOf s.cur) row) n) rel scope) false false none))
    else
      let n := (loadForm o.size.toNat).size
      s.checked [o.base.toNat, o.d.toNat] a n .store (fun s =>
        s.issueAccess a n (.store (leBytes n (s.me.val o.d.toNat).toNat) rel scope) false false none))

/-- An atomic or a reduction (R368 to R371, R454). -/
def anyAtomic (s : State) (o : WAFields) (fn : Nat) : State :=
  let a := effAddr (s.me.val o.base.toNat) 10 o.off.toNat
  let n := typeBytes o.ty.toNat
  let op : AccOp := if fn < 0x18 then
      .atomic fn o.ty.toNat (s.me.val o.s.toNat) (s.me.val o.d.toNat) o.d.toNat 0 o.order.toNat o.scope.toNat 0
    else .reduce fn o.ty.toNat (s.me.val o.s.toNat) o.order.toNat o.scope.toNat
  s.checked ([o.base.toNat, o.s.toNat] ++ (if fn = 0x17 then [o.d.toNat] else [])) a n .atomic (fun s =>
    s.issueAccess a n op false false none)

end State

/-- LD (R442). -/
def execLd (o : LMFields) (s : State) : Result := .next (s.scalarLoad o false true true)

/-- LDA (R443): the AM window raises ACCV. -/
def execLda (o : LMFields) (s : State) : Result := .next (s.scalarLoad o (o.scope.toNat != 0) false true)

/-- LDT (R445). -/
def execLdt (o : LMFields) (s : State) : Result := .next (s.scalarLoad o false false false)

/-- LDS (R197, R444): never traps for its access. -/
def execLds (o : LMFields) (s : State) : Result :=
  .next (s.guarded o.G (fun s =>
    let f := loadForm o.size.toNat
    let a := lmAddr o s.me
    if s.me.pois o.base.toNat || a % f.size != 0 then
      let k := match s.place s.cur a f.size with
        | .peer _ => 10
        | _ => 4
      s.land k (.g o.d.toNat 0 true)
    else s.issueAccess a f.size (.load o.d.toNat f 0 true false) true true none))

/-- LDV (R446). -/
def execLdv (o : LMFields) (s : State) : Result :=
  .next (s.guarded o.G (fun s =>
    let a := lmAddr o s.me
    let n := rowBytes o.size.toNat
    s.checked [o.base.toNat] a 64 .load (fun s =>
      s.issueAccess a n (.loadRow (s.me.vrow o.d.toNat) n 0) true true none)))

/-- LDX (R447). -/
def execLdx (o : LDXFields) (s : State) : Result :=
  let a := effAddr (s.me.val o.base.toNat) 12 o.off.toNat
  .next (if o.vec then
      let n := rowBytes o.size.toNat
      s.checked [o.base.toNat] a 64 .load (fun s =>
        s.issueAccess a n (.loadRow (s.me.vrow o.d.toNat) n 0) true true (some o.land.toNat))
    else
      let f := loadForm o.size.toNat
      s.checked [o.base.toNat] a f.size .load (fun s =>
        s.issueAccess a f.size (.load o.d.toNat f 0 false false) true true (some o.land.toNat)))

/-- PREF (R479): nothing but POISON for its base register. -/
def execPref (o : LMFields) (s : State) : Result :=
  .next (s.guarded o.G (fun s => s.clean [o.base.toNat] (fun s =>
    let a := lmAddr o s.me / 64 * 64
    match s.place s.cur a 64 with
    | .translated =>
      let sp := s.space s.cur
      let die := dieOf (gidOf s.cur)
      let r := State.transAll die sp.1 sp.2 .load [(a, 64)] s
      match r.2 with
      | .ok ps => if o.size.toNat = 0 then r.1.fillL1 s.cur sp.1 ps else r.1
      | .error _ => s
    | _ => s)))

/-- LATCH (R213, R440): what its braid broadcasts at this VCC is written at v + 3. -/
def execLatch (o : LMFields) (s : State) : Result :=
  .next (s.guarded o.G (fun s =>
    let a := lmAddr o s.me
    let n := rowBytes o.size.toNat
    s.checked [o.base.toNat] a 64 .store (fun s =>
      match s.place s.cur a n with
      | .own c =>
        if a < 0x400000 then
          match s.me.braid with
          | some b => s.land 3 (.latch (o.d.toNat % 16) a c n b s.me.vcc)
          | none => s.land 3 (.p (o.d.toNat % 16) false)
        else s.raiseVa .accv a .store 0
      | _ => s.raiseVa .accv a .store 0)))

/-- ST (R509). -/
def execSt (o : LMFields) (s : State) : Result := .next (s.anyStore o false 0)

/-- STV (R512). -/
def execStv (o : LMFields) (s : State) : Result := .next (s.anyStore o false 0)

/-- STX (R513): as ST or STV. -/
def execStx (o : LMFields) (s : State) : Result := .next (s.anyStore o false 0)

/-- STL (R510). -/
def execStl (o : LMFields) (s : State) : Result := .next (s.anyStore o true o.scope.toNat)

/-- AADD (R375). -/
def execAadd (o : WAFields) (s : State) : Result := .next (s.anyAtomic o 0x10)

/-- AMIN (R383). -/
def execAmin (o : WAFields) (s : State) : Result := .next (s.anyAtomic o 0x11)

/-- AMAX (R382). -/
def execAmax (o : WAFields) (s : State) : Result := .next (s.anyAtomic o 0x12)

/-- AAND (R376). -/
def execAand (o : WAFields) (s : State) : Result := .next (s.anyAtomic o 0x13)

/-- AOR (R387). -/
def execAor (o : WAFields) (s : State) : Result := .next (s.anyAtomic o 0x14)

/-- AXOR (R389). -/
def execAxor (o : WAFields) (s : State) : Result := .next (s.anyAtomic o 0x15)

/-- AXCH (R388). -/
def execAxch (o : WAFields) (s : State) : Result := .next (s.anyAtomic o 0x16)

/-- ACAS (R377). -/
def execAcas (o : WAFields) (s : State) : Result := .next (s.anyAtomic o 0x17)

/-- RADD (R481). -/
def execRadd (o : WAFields) (s : State) : Result := .next (s.anyAtomic o 0x18)

/-- RMAX (R487). -/
def execRmax (o : WAFields) (s : State) : Result := .next (s.anyAtomic o 0x19)

end Sys2Proof.Machine
end

