-- ==== Sys2Proof/WellFormed.lean ====
section
/-! DEFINITION. Which terms of the syntax are valid instructions: the reserved values and the fields that must be zero
(R340 case 4 and 5, R343 to R356 and the entries of chapters 15 to 18). A term that fails its check has no encoding that decodes. -/

namespace Sys2Proof

/-- The control register numbers of Table 4-4 (R97). -/
def cregAssigned (n : BitVec 12) : Bool :=
  let k := n.toNat
  (1 ≤ k && k ≤ 9) || (0x10 ≤ k && k ≤ 0x12) || k == 0x20 || k == 0x30 || (0x40 ≤ k && k ≤ 0x47) ||
  (0x80 ≤ k && k ≤ 0x9F) || (0x100 ≤ k && k ≤ 0x107)

/-- The control registers of Table 4-4 whose access is RW (R96). -/
def cregWritable (n : BitVec 12) : Bool :=
  let k := n.toNat
  k == 5 || k == 6 || k == 8 || k == 9 || k == 0x10 || k == 0x30 || k == 0x46 || (0x100 ≤ k && k ≤ 0x107)

/-- The limit of a BFX or BFI field; a width of 0 means 64 (R343). -/
def fieldFits (w : Bool) (lsb width : BitVec 6) : Bool :=
  let n := if width.toNat = 0 then 64 else width.toNat
  decide (lsb.toNat + n ≤ if w then 32 else 64)

/-- The decode conditions of NEST (R80). -/
def nestFieldsOk (level : BitVec 3) (kind : BitVec 2) (val addr : BitVec 6) : Bool :=
  decide (level.toNat < 6) &&
  match kind.toNat with
  | 0 => addr.toNat != 0
  | 1 => addr.toNat == 0
  | 2 => addr.toNat != 0 && val.toNat == 0
  | _ => addr.toNat == 0 && val.toNat == 0

/-- The scopes 1 to 5 that LOCK, UNLOCK and WAITW take (R264, R268). -/
def scopeLock (s : BitVec 3) : Bool := decide (1 ≤ s.toNat) && decide (s.toNat ≤ 5)

/-- How a vector operation uses the fields of its format (R518, R521 to R528, R287, R133). -/
inductive VUse where
  | ab (rounds : Bool)
  | abc (rounds : Bool)
  | a1 (rounds : Bool)
  | shift | cmp | bcast | iota | cvt | quant | topk | conft | ext | ins | special
deriving DecidableEq, Repr

namespace VFields

/-- The rnd field: 0 to 6 where the operation rounds, otherwise 0 (R347, R518). -/
def rndOk (o : VFields) (rounds : Bool) : Bool :=
  if rounds then decide (o.rnd.toNat < 7) else o.rnd.toNat == 0

def isFloat (o : VFields) : Bool := decide (o.ty.toNat < 2)
def tyOk (o : VFields) : Bool := decide (o.ty.toNat < 4)
def noB (o : VFields) : Bool := o.b.toNat == 0 && !o.bsel
def noC (o : VFields) : Bool := o.c.toNat == 0
def noFlags (o : VFields) : Bool := o.flags.toNat == 0
def noImm (o : VFields) : Bool := o.imm.toNat == 0

/-- Whether the fields other than the opcode are valid for the use (R518). -/
def ok (o : VFields) : VUse → Bool
  | .ab r => o.tyOk && o.noC && o.noFlags && o.noImm && o.rndOk (r && o.isFloat)
  | .abc r => o.tyOk && o.noFlags && o.noImm && o.rndOk (r && o.isFloat)
  | .a1 r => o.tyOk && o.noB && o.noC && o.noFlags && o.noImm && o.rndOk (r && o.isFloat)
  | .shift => o.tyOk && !o.isFloat && o.noC && o.noFlags && o.noImm && o.rndOk false
  | .cmp => o.tyOk && o.noC && o.noImm && o.rndOk false && decide (o.flags.toNat < if o.isFloat then 8 else 12)
  | .bcast => o.tyOk && o.noC && o.noFlags && o.rndOk false &&
      if o.bsel then o.a.toNat == 0 && o.noImm else o.b.toNat == 0 && decide (o.imm.toNat < 128)
  | .iota => o.tyOk && o.a.toNat == 0 && o.noB && o.noC && o.noFlags && o.rndOk false
  | .cvt =>
      let dst := o.imm.toNat % 4
      o.tyOk && o.noB && o.noC && o.noFlags && decide (o.imm.toNat < 8) && dst != o.ty.toNat &&
      (decide (o.imm.toNat < 4) || o.ty.toNat == 1 || dst == 1) &&
      o.rndOk (dst != 1 && !(decide (2 ≤ o.ty.toNat) && decide (2 ≤ dst)))
  | .quant =>
      let fmt := o.imm.toNat % 16
      o.ty.toNat == 0 && o.noB && o.noC && o.noFlags && o.rndOk true &&
      (fmt == 6 || fmt == 7 || fmt == 9 || fmt == 10 || fmt == 11) &&
      decide (o.imm.toNat / 16 < if fmt = 11 then 3 else 2)
  | .topk =>
      let k := o.imm.toNat % 128
      let n := o.imm.toNat / 256 + 1
      (o.ty.toNat == 0 || o.ty.toNat == 2 || o.ty.toNat == 3) && o.noC && o.noFlags && o.rndOk false &&
      (o.bsel || o.b.toNat == 0) && o.imm.toNat / 128 % 2 == 0 && decide (1 ≤ k) && decide (k ≤ 64) &&
      decide (n ≤ 128) && decide (k ≤ n)
  | .conft => o.bsel && decide (o.c.toNat < 16) && o.ty.toNat == 0 && o.rndOk false && decide (o.flags.toNat < 2) &&
      decide (1 ≤ o.imm.toNat) && decide (o.imm.toNat ≤ 42)
  | .ext => o.tyOk && o.noC && o.noFlags && o.rndOk false &&
      if o.bsel then o.noImm else o.b.toNat == 0 && decide (o.imm.toNat < 128)
  | .ins => o.tyOk && o.bsel && o.a.toNat == 0 && o.noC && o.noFlags && o.rndOk false && decide (o.imm.toNat < 128)
  | .special => o.isFloat && o.noB && o.noC && o.noFlags && o.noImm && o.rndOk false

end VFields

namespace MFields

/-- MROT and MZERO use the tile, gN and the counters (Table 6-1). -/
def tileOnly (o : MFields) : Bool := o.gA.toNat == 0 && o.gB.toNat == 0 && o.mode.toNat == 0

/-- MPRI uses tile row[3:0] and the selector (Table 6-1). -/
def priOnly (o : MFields) : Bool :=
  decide (o.tile.toNat < 16) && o.gA.toNat == 0 && o.gB.toNat == 0 && o.gN.toNat == 0 && o.mode.toNat == 0 &&
  o.c1.toNat == 0 && o.c2.toNat == 0 && o.c3.toNat == 0

end MFields

namespace LMFields

/-- LD, LDS and LDT: vec 0, size 0 to 6, scope 0 (R441). -/
def scalarLoad (o : LMFields) : Bool := !o.vec && decide (o.size.toNat < 7) && o.scope.toNat == 0
/-- LDA: as LD, with scope 0 to 5 (R443). -/
def scopedLoad (o : LMFields) : Bool := !o.vec && decide (o.size.toNat < 7) && decide (o.scope.toNat < 6)
/-- LDV, STV and STP: vec 1, size 0 to 3, scope 0 (R446, R511, R512). -/
def rowAccess (o : LMFields) : Bool := o.vec && decide (o.size.toNat < 4) && o.scope.toNat == 0
/-- LATCH (R213). -/
def latchOk (o : LMFields) : Bool := !o.vec && decide (o.d.toNat < 16) && decide (o.size.toNat < 4) && o.scope.toNat == 0
/-- PREF (R479). -/
def prefOk (o : LMFields) : Bool := !o.vec && o.d.toNat == 0 && decide (o.size.toNat < 2) && o.scope.toNat == 0
/-- KVAD (R284). -/
def kvadOk (o : LMFields) : Bool := !o.vec && decide (o.size.toNat < 2) && o.scope.toNat == 0
/-- ST (R509). -/
def scalarStore (o : LMFields) : Bool := !o.vec && decide (o.size.toNat < 4) && o.scope.toNat == 0
/-- STL (R510). -/
def scopedStore (o : LMFields) : Bool := !o.vec && decide (o.size.toNat < 4) && decide (o.scope.toNat < 6)
/-- STX (R513). -/
def anyStore (o : LMFields) : Bool := decide (o.size.toNat < 4) && o.scope.toNat == 0

end LMFields

/-- LDX (R447). -/
def LDXFields.ok (o : LDXFields) : Bool :=
  o.land.toNat != 0 && decide (o.size.toNat < if o.vec then 4 else 7)

namespace WAFields

/-- The scope field: 0 to 5, and 0 with relaxed order (R368). -/
def scopeOk (o : WAFields) : Bool := decide (o.scope.toNat < 6) && (o.order.toNat != 0 || o.scope.toNat == 0)
/-- An atomic; the FP types only where its row lists them (Table 15-2). -/
def atomicOk (o : WAFields) (fp : Bool) : Bool := o.scopeOk && (fp || decide (o.ty.toNat < 2))
/-- A reduction: d is g0 and the order relaxed or release (R454). -/
def reduceOk (o : WAFields) : Bool := o.scopeOk && o.d.toNat == 0 && (o.order.toNat == 0 || o.order.toNat == 2)

end WAFields

namespace XFields

def noCons (o : XFields) : Bool := o.c1.toNat == 0 && o.c2.toNat == 0 && o.c3.toNat == 0
/-- CPYN: level 0 to 5 in the produce field, consume fields zero (Table 8-1). -/
def levelOk (o : XFields) : Bool := decide (o.prod.toNat < 6) && o.noCons
/-- DRAIN: scope code 0 to 5 in the g1 field (Table 8-1, R413). -/
def drainOk (o : XFields) : Bool := decide (o.g1.toNat < 6) && o.g2.toNat == 0 && o.g3.toNat == 0
/-- BCAST (Table 8-1). -/
def bcastOk (o : XFields) : Bool := o.g2.toNat == 0 && o.g3.toNat == 0 && o.prod.toNat == 0 && o.noCons

end XFields

namespace NFields

/-- SEND and RECV: peer is a member, g3 zero (Table 8-4). -/
def sendOk (o : NFields) : Bool := decide (o.peer.toNat < 8) && o.g3.toNat == 0
/-- RECVA: g3 holds the type 0 to 3 (Table 8-4). -/
def recvaOk (o : NFields) : Bool := decide (o.peer.toNat < 8) && decide (o.g3.toNat < 4)
/-- RTR and PUT: peer and tag zero (Table 8-4). -/
def putOk (o : NFields) : Bool := o.peer.toNat == 0 && o.tag.toNat == 0
/-- CPLN: peer holds a plan slot, tag zero (Table 8-4). -/
def planOk (o : NFields) : Bool := decide (o.peer.toNat < 16) && o.tag.toNat == 0

end NFields

namespace GFields

def noChain (r : GFields) : Bool := r.chain.toNat == 0
def noFlags (r : GFields) : Bool := r.flags.toNat == 0
def noEntry (r : GFields) : Bool := r.entry.toNat == 0
def noMode (r : GFields) : Bool := r.mode.toNat == 0
def noHandles2 (r : GFields) : Bool := r.h2.toNat == 0 && r.h3.toNat == 0 && r.h4.toNat == 0 && r.h5.toNat == 0
def noHandles (r : GFields) : Bool := r.h0.toNat == 0 && r.h1.toNat == 0 && r.noHandles2
def noAttr (r : GFields) : Bool := r.attr.toNat == 0
def noSched (r : GFields) : Bool := r.sched.toNat == 0
def noSpec16 (r : GFields) : Bool := r.spec16.toNat == 0
def noImm (r : GFields) : Bool := r.imm32.toNat == 0
def noSpec64 (r : GFields) : Bool := r.spec64.toNat == 0
/-- One dimension register in bits 149:144 and nothing above it. -/
def oneReg (r : GFields) : Bool := decide (r.spec16.toNat < 64)
/-- Two dimension registers in bits 155:144 and nothing above them. -/
def twoRegs (r : GFields) : Bool := decide (r.spec16.toNat < 4096)

/-- Records that make no task and name no handle or attribute (Table 16-1). -/
def bare (r : GFields) : Bool := r.noChain && r.noMode && r.noHandles && r.noAttr && r.noSched

/-- The SEQ flag, bit 12 (R281). -/
def seq (r : GFields) : Bool := r.flags.getLsbD 0
/-- The KVAPP flag, bit 13 (R281). -/
def kvapp (r : GFields) : Bool := r.flags.getLsbD 1

/-- G.OP (R427, R250, R281, R33). -/
def gOpOk (r : GFields) : Bool :=
  r.noImm && decide (r.flags.toNat < 4) && decide (r.mode.toNat < 7) && decide (r.sched.toNat < 32) &&
  if r.seq then r.twoRegs else r.noSpec16 && r.noSpec64
/-- G.SPAWN: a G.OP with a join counter and no chain (R432). -/
def gSpawnOk (r : GFields) : Bool :=
  r.noImm && decide (r.flags.toNat < 4) && decide (r.mode.toNat < 7) && decide (r.sched.toNat < 32) && r.noChain &&
  (r.seq || (r.spec16.toNat % 4096 == 0 && r.noSpec64))
def gLoopOk (r : GFields) : Bool := r.bare && r.noFlags && r.noEntry && r.twoRegs && r.noSpec64
def gEndloopOk (r : GFields) : Bool := r.bare && r.noFlags && r.noEntry && r.twoRegs && r.noSpec64
/-- G.BR: A and B are zero where COND is 0 (R356, R419). -/
def gBrOk (r : GFields) : Bool :=
  r.bare && r.noFlags && r.noEntry && decide (r.spec16.toNat / 4096 < 5) && (r.spec16.toNat / 4096 != 0 || r.noSpec16) && r.noSpec64
def gCallOk (r : GFields) : Bool := r.bare && r.noFlags && r.noEntry && r.noSpec16 && r.noSpec64
def gRetOk (r : GFields) : Bool := r.bare && r.noFlags && r.noEntry && r.noSpec16
/-- G.TENSOR: REG is zero without DBASE (R356, R433). -/
def gTensorOk (r : GFields) : Bool :=
  (r.flags.toNat == 1 || r.noSpec16) &&
  r.noChain && r.noMode && r.noSched && r.noEntry && decide (r.flags.toNat < 2) && r.h0.toNat != 0 && r.h1.toNat == 0 &&
  r.noHandles2 && r.oneReg && r.noImm && r.noSpec64
def gViewOk (r : GFields) : Bool :=
  r.noChain && r.noMode && r.noSched && r.noEntry && r.noFlags && r.h0.toNat != 0 && r.noHandles2 && r.noSpec16 && r.noSpec64
def gAllocOk (r : GFields) : Bool :=
  r.bare && decide (r.flags.toNat < 2) && decide (r.entry.toNat < 128) && r.oneReg && r.noSpec64
def gFreeOk (r : GFields) : Bool := r.bare && r.noFlags && r.noEntry && r.oneReg && r.noImm && r.noSpec64
def gShardOk (r : GFields) : Bool :=
  r.noChain && r.noMode && r.noHandles && r.noSched && r.noFlags && r.noEntry && r.noSpec16 && r.noSpec64
def gJoinOk (r : GFields) : Bool :=
  r.bare && r.noFlags && r.noEntry && r.noSpec16 && decide (r.imm32.toNat < 65536) && r.noSpec64
/-- G.SCOPE open: CLOSE clear, WR in bit 13; REG is zero without it (R356, R429). -/
def gScopeOpenOk (r : GFields) : Bool :=
  (r.flags.toNat == 2 || r.noSpec16) &&
  r.bare && (r.flags.toNat == 0 || r.flags.toNat == 2) && r.noEntry && r.oneReg && r.noImm && r.noSpec64
/-- G.SCOPE close: CLOSE set (R429). -/
def gScopeCloseOk (r : GFields) : Bool :=
  r.bare && r.flags.toNat == 1 && r.noEntry && r.noSpec16 && r.noImm && r.noSpec64
def gCancelOk (r : GFields) : Bool := r.bare && decide (r.flags.toNat < 2) && r.noEntry && r.oneReg && r.noImm
/-- G.EXIT test form: ADV clear (Table 11-4). -/
def gExitTestOk (r : GFields) : Bool :=
  r.noChain && r.noMode && r.noAttr && r.noFlags && r.h0.toNat != 0 && r.h1.toNat == 0 && r.noHandles2 &&
  decide (r.sched.toNat < 16) && r.oneReg
/-- G.EXIT advance form: ADV set, ENTRY and DISP zero (Table 11-4). -/
def gExitAdvOk (r : GFields) : Bool :=
  r.noChain && r.noMode && r.noAttr && r.flags.toNat == 1 && r.noEntry && r.h0.toNat != 0 && r.h1.toNat == 0 &&
  r.noHandles2 && decide (r.sched.toNat < 16) && r.oneReg && r.noImm
def gYieldOk (r : GFields) : Bool :=
  r.bare && decide (r.flags.toNat < 2) && r.noEntry &&
  if r.flags.toNat = 0 then r.noSpec16 && r.noSpec64 else r.oneReg && r.noImm
def gSetdimOk (r : GFields) : Bool :=
  r.bare && decide (r.flags.toNat < 3) && r.noEntry && r.twoRegs &&
  (r.flags.toNat == 1 || decide (r.spec16.toNat < 64)) && (r.flags.toNat == 2 || r.noSpec64)

end GFields

/-- Whether a term is a valid instruction. An event has no encoding and every value of its operands names a unit or an
input, so every event is well formed. -/
def Instr.wf : Instr → Bool
  | .add _ _ _ _ _ => true
  | .sub _ _ _ _ _ => true
  | .mul _ _ _ _ _ => true
  | .mulh _ _ _ _ _ => true
  | .mulhn _ _ _ _ _ => true
  | .div _ _ _ _ _ => true
  | .divn _ _ _ _ _ => true
  | .rem _ _ _ _ _ => true
  | .and _ _ _ _ _ => true
  | .or _ _ _ _ _ => true
  | .xor _ _ _ _ _ => true
  | .andn _ _ _ _ _ => true
  | .shl _ _ _ _ _ => true
  | .shr _ _ _ _ _ => true
  | .sar _ _ _ _ _ => true
  | .rol _ _ _ _ _ => true
  | .min _ _ _ _ _ => true
  | .max _ _ _ _ _ => true
  | .minn _ _ _ _ _ => true
  | .maxn _ _ _ _ _ => true
  | .sel _ _ _ _ _ _ => true
  | .clz _ _ _ _ => true
  | .ctz _ _ _ _ => true
  | .popc _ _ _ _ => true
  | .bfx _ w _ _ lsb width => fieldFits w lsb width
  | .bfi _ w _ _ lsb width => fieldFits w lsb width
  | .sext _ w _ _ width => (!w || decide (width.toNat ≤ 32))
  | .zext _ w _ _ width => (!w || decide (width.toNat ≤ 32))
  | .cmp _ _ _ _ _ cond => decide (cond.toNat < 12)
  | .agen _ _ _ _ _ _ => true
  | .addi _ _ _ _ _ => true
  | .andi _ _ _ _ _ => true
  | .ori _ _ _ _ _ => true
  | .xori _ _ _ _ _ => true
  | .shli _ w _ _ imm => decide (imm.toNat < if w then 32 else 64)
  | .shri _ w _ _ imm => decide (imm.toNat < if w then 32 else 64)
  | .sari _ w _ _ imm => decide (imm.toNat < if w then 32 else 64)
  | .movi _ _ _ _ => true
  | .movhi _ w _ sh _ => (!w || decide (sh.toNat < 2))
  | .cmpi _ _ _ _ cond _ => decide (cond.toNat < 12)
  | .sfadd _ _ _ _ ty rnd => (decide (ty.toNat < 2) && decide (rnd.toNat < 7))
  | .sfmul _ _ _ _ ty rnd => (decide (ty.toNat < 2) && decide (rnd.toNat < 7))
  | .sffma _ _ _ _ ty rnd => (decide (ty.toNat < 2) && decide (rnd.toNat < 7))
  | .sfcmp _ _ _ _ _ cond => decide (cond.toNat < 8)
  | .sfcvt _ _ _ _ rnd dty => (decide (rnd.toNat < 7) && decide (dty.toNat < 6))
  | .mfc _ _ _ num => cregAssigned num
  | .mtc _ _ _ num => cregWritable num
  | .br _ => true
  | .brc _ _ => true
  | .brr _ _ => true
  | .call _ _ => true
  | .callr _ _ => true
  | .ret _ => true
  | .loop _ level _ len => (decide (level.toNat < 6) && decide (len.toNat ≠ 0))
  | .nest _ level kind val addr => nestFieldsOk level kind val addr
  | .chk _ _ _ => true
  | .isync _ => true
  | .fmt _ v => decide (v.toNat < 2 ^ 18)
  | .trap _ _ => true
  | .sysret => true
  | .vadd o => o.ok (VUse.ab true)
  | .vsub o => o.ok (VUse.ab true)
  | .vmul o => o.ok (VUse.ab true)
  | .vfma o => o.ok (VUse.abc true)
  | .vfms o => o.ok (VUse.abc true)
  | .vmax o => o.ok (VUse.ab false)
  | .vmin o => o.ok (VUse.ab false)
  | .vabs o => o.ok (VUse.a1 false)
  | .vneg o => o.ok (VUse.a1 false)
  | .vand o => o.ok (VUse.ab false)
  | .vor o => o.ok (VUse.ab false)
  | .vxor o => o.ok (VUse.ab false)
  | .vshl o => o.ok (VUse.shift)
  | .vshr o => o.ok (VUse.shift)
  | .vcmp o => o.ok (VUse.cmp)
  | .vsel o => o.ok (VUse.abc false)
  | .vmov o => o.ok (VUse.a1 false)
  | .vbcast o => o.ok (VUse.bcast)
  | .viota o => o.ok (VUse.iota)
  | .vperm o => o.ok (VUse.ab false)
  | .vrsum o => o.ok (VUse.a1 true)
  | .vrmax o => o.ok (VUse.a1 false)
  | .vrmin o => o.ok (VUse.a1 false)
  | .vscan o => o.ok (VUse.a1 true)
  | .vcvt o => o.ok (VUse.cvt)
  | .vqnt o => o.ok (VUse.quant)
  | .vdqt o => o.ok (VUse.quant)
  | .vtopk o => o.ok (VUse.topk)
  | .conft o => o.ok (VUse.conft)
  | .vext o => o.ok (VUse.ext)
  | .vins o => o.ok (VUse.ins)
  | .vexp o => o.ok (VUse.special)
  | .vlog o => o.ok (VUse.special)
  | .vrcp o => o.ok (VUse.special)
  | .vrsq o => o.ok (VUse.special)
  | .vtanh o => o.ok (VUse.special)
  | .mma o => decide (o.mode.toNat < 3)
  | .mgv o => decide (o.mode.toNat < 3)
  | .mrot o => o.tileOnly
  | .mzero o => o.tileOnly
  | .mdrn o => decide (o.mode.toNat < 4)
  | .mpri o => o.priOnly
  | .ld o => o.scalarLoad
  | .ldv o => o.rowAccess
  | .lds o => o.scalarLoad
  | .lda o => o.scopedLoad
  | .latch o => o.latchOk
  | .pref o => o.prefOk
  | .ldt o => o.scalarLoad
  | .kvad o => o.kvadOk
  | .ldx o => o.ok
  | .st o => o.scalarStore
  | .stv o => o.rowAccess
  | .stx o => o.anyStore
  | .stl o => o.scopedStore
  | .stp o => o.rowAccess
  | .aadd o => o.atomicOk true
  | .amin o => o.atomicOk true
  | .amax o => o.atomicOk true
  | .aand o => o.atomicOk false
  | .aor o => o.atomicOk false
  | .axor o => o.atomicOk false
  | .axch o => o.atomicOk false
  | .acas o => o.atomicOk false
  | .radd o => o.reduceOk
  | .rmax o => o.reduceOk
  | .cpy _ => true
  | .cpyn o => o.levelOk
  | .cpygo _ => true
  | .cpyg _ => true
  | .drain o => o.drainOk
  | .bcast o => o.bcastOk
  | .mcw _ => true
  | .kvcp _ => true
  | .pfxl _ => true
  | .pfxi _ => true
  | .send o => o.sendOk
  | .recv o => o.sendOk
  | .recva o => o.recvaOk
  | .rtr o => o.putOk
  | .put o => o.putOk
  | .cpln o => o.planOk
  | .knot => true
  | .waitq _ _ => true
  | .fence scope kind => (decide (scope.toNat < 6) && decide (kind.toNat < 3))
  | .acqh _ scope => decide (scope.toNat < 6)
  | .relh _ scope => decide (scope.toNat < 6)
  | .lock _ _ scope => scopeLock scope
  | .lockTry _ _ _ scope => scopeLock scope
  | .unlock _ scope => scopeLock scope
  | .spawnNb _ _ _ => true
  | .spawnB _ _ _ => true
  | .cancel _ _ _ => true
  | .scopeOpen _ _ => true
  | .scopeClose => true
  | .sleep a imm => (decide (a.toNat = 0) || decide (imm.toNat = 0))
  | .waitw _ _ scope _ => scopeLock scope
  | .bfq _ _ => true
  | .setq _ _ _ => true
  | .gOp r => r.gOpOk
  | .gLoop r => r.gLoopOk
  | .gEndloop r => r.gEndloopOk
  | .gBr r => r.gBrOk
  | .gCall r => r.gCallOk
  | .gRet r => r.gRetOk
  | .gTensor r => r.gTensorOk
  | .gView r => r.gViewOk
  | .gAlloc r => r.gAllocOk
  | .gFree r => r.gFreeOk
  | .gShard r => r.gShardOk
  | .gSpawn r => r.gSpawnOk
  | .gJoin r => r.gJoinOk
  | .gScopeOpen r => r.gScopeOpenOk
  | .gScopeClose r => r.gScopeCloseOk
  | .gCancel r => r.gCancelOk
  | .gExitTest r => r.gExitTestOk
  | .gExitAdv r => r.gExitAdvOk
  | .gYield r => r.gYieldOk
  | .gSetdim r => r.gSetdimOk
  | .emptyBundle => true
  | .groupStart _ => true
  | .knotDepart _ => true
  | .sleepExpire _ => true
  | .wordWaitRecheck _ => true
  | .lockGrant _ => true
  | .landingDataArrive _ _ => true
  | .controlStoreFill _ _ => true
  | .translationResolve _ => true
  | .heldWritePerform _ => true
  | .orderingEventPerform _ => true
  | .podFlushGather _ => true
  | .reductionApply _ _ => true
  | .matrixOpStart _ => true
  | .matrixPassEnd _ => true
  | .matrixOpComplete _ => true
  | .mgvStart _ => true
  | .mgvComplete _ => true
  | .copyOpStart _ _ => true
  | .copyBeatWrite _ _ _ => true
  | .copyOpComplete _ _ _ => true
  | .drainComplete _ _ => true
  | .transferBeat _ => true
  | .putMatch _ _ => true
  | .rendezvousComplete _ _ => true
  | .planEntryStart _ _ => true
  | .planEntryComplete _ _ _ => true
  | .taskDispatch _ => true
  | .taskResume _ => true
  | .ageTick _ => true
  | .braidReservation _ => true
  | .evictionMark _ => true
  | .eviction _ => true
  | .ballastDispatch _ => true
  | .ballastKill _ => true
  | .backfillDispatch _ => true
  | .backfillRetire _ => true
  | .taskRetire _ => true
  | .recordRetire _ => true
  | .terminationSample _ => true
  | .terminationDeclare _ => true
  | .weightFetch _ => true
  | .stealTokenPass _ _ => true
  | .stolenTaskCompletion _ => true
  | .cancelTakeEffect _ _ => true
  | .cancelComplete _ => true
  | .preemptSaveComplete _ => true
  | .handleRewritePerform _ => true
  | .allocGrant _ => true
  | .yieldTimerExpire _ => true
  | .doorbellChange _ => true
  | .recordWaitEnd _ => true
  | .ctxStart _ => true
  | .ctxStop _ => true
  | .ctxPreemptKeep _ => true
  | .ctxPreemptDiscard _ => true
  | .ctxcmdComplete => true
  | .strandcmdResume _ => true
  | .strandcmdHandler _ _ => true
  | .strandcmdKill _ => true
  | .strandcmdPreempt _ => true
  | .spareMap _ _ => true
  | .tinvPage _ _ _ => true
  | .tinvAsid _ => true
  | .tinvAll => true
  | .shootdownComplete => true
  | .frqheadWrite _ => true
  | .kvPoolConfigWrite _ _ => true
  | .pfxvaWrite _ => true
  | .planStoreWrite _ _ _ => true
  | .registerWrite _ _ => true
  | .hostAccess _ _ _ _ => true
  | .frameReceive _ _ => true
  | .frameTransmit _ => true
  | .powerOn => true
  | .attestationReport _ => true
  | .powerControlTick _ => true
  | .telemetryRecord => true
  | .heartbeat => true
  | .failover => true
  | .laneReplace _ => true
  | .coreRetire _ _ => true
  | .scrubPass _ => true
  | .uncorrectableError _ => true
  | .channelRetire _ => true
  | .flashSlotSwitch _ => true
  | .ptpLockChange _ => true
  | .hawserLinkDown _ => true
  | .hawserLinkUp _ => true
  | .moduleRemoval _ => true

end Sys2Proof
end

