-- ==== Sys2Proof/Decode.lean ====
section
/-! DEFINITION. The decoder of slot words, bundles and graph records, total on any word, and after it the encoder, both from
the format tables of chapter 14. -/

namespace Sys2Proof

/-- A guard whose predicate field begins at bit `lo` (R341). -/
def guardAt (w lo : Nat) : Guard := ⟨bits w lo 4, bitAt w (lo + 4)⟩

/-- The VR fields of a word (Table 14-6). -/
def vrOf (w : Nat) : VFields :=
  ⟨bits w 8 6, bits w 14 6, bits w 20 6, bits w 26 6, bits w 32 3, bits w 35 3, bitAt w 38, guardAt w 39, bits w 44 4, bits w 48 16⟩
/-- The MM fields of a word (Table 14-7). -/
def mmOf (w : Nat) : MFields :=
  ⟨bits w 8 11, bits w 19 6, bits w 25 6, bits w 31 6, bits w 37 3, bits w 40 5, bits w 45 5, bits w 50 5, bits w 55 5, bits w 60 4⟩
/-- The LM or WM fields of a word (Table 14-8). -/
def lmOf (w : Nat) : LMFields :=
  ⟨bits w 8 6, bits w 14 6, bits w 20 16, bits w 36 3, bits w 39 3, guardAt w 42, bitAt w 47⟩
/-- The LDX fields of a word (Table 14-8). -/
def ldxOf (w : Nat) : LDXFields := ⟨bits w 8 6, bits w 14 6, bits w 20 12, bits w 32 12, bits w 44 3, bitAt w 47⟩
/-- The WA fields of a word (R350). -/
def waOf (w : Nat) : WAFields := ⟨bits w 8 6, bits w 14 6, bits w 20 6, bits w 26 10, bits w 36 2, bits w 38 2, bits w 40 3⟩
/-- The XC fields of a word (R352). -/
def xcOf (w : Nat) : XFields := ⟨bits w 8 6, bits w 14 6, bits w 20 6, bits w 26 2, bits w 28 5, bits w 33 5, bits w 38 5, bits w 43 5⟩
/-- The NC fields of a word (R352). -/
def ncOf (w : Nat) : NFields := ⟨bits w 8 8, bits w 16 6, bits w 22 6, bits w 28 6, bits w 34 5, bits w 39 5, bits w 44 4⟩
/-- The frame of a graph record (Table 14-15). -/
def grOf (w : Nat) : GFields :=
  ⟨bits w 8 4, bits w 12 4, bits w 16 12, bits w 28 4, bits w 32 12, bits w 44 12, bits w 56 12, bits w 68 12, bits w 80 12,
   bits w 92 12, bits w 104 24, bits w 128 16, bits w 144 16, bits w 160 32, bits w 192 64⟩

/-- The word of the VR format (Table 14-6). -/
def packV (op : Nat) (o : VFields) : Nat :=
  pack [(8, op), (6, o.d.toNat), (6, o.a.toNat), (6, o.b.toNat), (6, o.c.toNat), (3, o.ty.toNat), (3, o.rnd.toNat), (1, o.bsel.toNat), (4, o.G.p.toNat), (1, o.G.neg.toNat), (4, o.flags.toNat), (16, o.imm.toNat)]
/-- The word of the MM format (Table 14-7). -/
def packM (op : Nat) (o : MFields) : Nat :=
  pack [(8, op), (11, o.tile.toNat), (6, o.gA.toNat), (6, o.gB.toNat), (6, o.gN.toNat), (3, o.mode.toNat), (5, o.prod.toNat), (5, o.c1.toNat), (5, o.c2.toNat), (5, o.c3.toNat), (4, o.p.toNat)]
/-- The word of the LM and WM formats (R349, R350). -/
def packLM (op : Nat) (o : LMFields) : Nat :=
  pack [(8, op), (6, o.d.toNat), (6, o.base.toNat), (16, o.off.toNat), (3, o.size.toNat), (3, o.scope.toNat), (4, o.G.p.toNat), (1, o.G.neg.toNat), (1, o.vec.toNat)]
/-- The word of the WA format (R350). -/
def packWA (op : Nat) (o : WAFields) : Nat :=
  pack [(8, op), (6, o.d.toNat), (6, o.s.toNat), (6, o.base.toNat), (10, o.off.toNat), (2, o.ty.toNat), (2, o.order.toNat), (3, o.scope.toNat), (5, 0)]
/-- The word of the XC format (R352). -/
def packX (op : Nat) (o : XFields) : Nat :=
  pack [(8, op), (6, o.g1.toNat), (6, o.g2.toNat), (6, o.g3.toNat), (2, o.ch.toNat), (5, o.prod.toNat), (5, o.c1.toNat), (5, o.c2.toNat), (5, o.c3.toNat)]
/-- The word of the NC format (R352). -/
def packN (op : Nat) (o : NFields) : Nat :=
  pack [(8, op), (8, o.peer.toNat), (6, o.g1.toNat), (6, o.g2.toNat), (6, o.g3.toNat), (5, o.prod.toNat), (5, o.cons.toNat), (4, o.tag.toNat)]
/-- The word of a graph record (Table 14-15). -/
def packG (op : Nat) (r : GFields) : Nat :=
  pack [(8, op), (4, r.chain.toNat), (4, r.flags.toNat), (12, r.entry.toNat), (4, r.mode.toNat), (12, r.h0.toNat), (12, r.h1.toNat), (12, r.h2.toNat), (12, r.h3.toNat), (12, r.h4.toNat), (12, r.h5.toNat), (24, r.attr.toNat), (16, r.sched.toNat), (16, r.spec16.toNat), (32, r.imm32.toNat), (64, r.spec64.toNat)]

/-- The word of a well-formed slot operation or graph record (chapter 14). An event has none: its word is 0, which no slot
and no record holds as an instruction (R354). -/
def encodeWord : Instr → Nat
  | .add G w d a b => pack [(8, 1), (6, d.toNat), (6, a.toNat), (6, b.toNat), (4, G.p.toNat), (1, G.neg.toNat), (1, w.toNat), (16, 0)]
  | .sub G w d a b => pack [(8, 2), (6, d.toNat), (6, a.toNat), (6, b.toNat), (4, G.p.toNat), (1, G.neg.toNat), (1, w.toNat), (16, 0)]
  | .mul G w d a b => pack [(8, 3), (6, d.toNat), (6, a.toNat), (6, b.toNat), (4, G.p.toNat), (1, G.neg.toNat), (1, w.toNat), (16, 0)]
  | .mulh G w d a b => pack [(8, 4), (6, d.toNat), (6, a.toNat), (6, b.toNat), (4, G.p.toNat), (1, G.neg.toNat), (1, w.toNat), (16, 0)]
  | .mulhn G w d a b => pack [(8, 5), (6, d.toNat), (6, a.toNat), (6, b.toNat), (4, G.p.toNat), (1, G.neg.toNat), (1, w.toNat), (16, 0)]
  | .div G w d a b => pack [(8, 6), (6, d.toNat), (6, a.toNat), (6, b.toNat), (4, G.p.toNat), (1, G.neg.toNat), (1, w.toNat), (16, 0)]
  | .divn G w d a b => pack [(8, 7), (6, d.toNat), (6, a.toNat), (6, b.toNat), (4, G.p.toNat), (1, G.neg.toNat), (1, w.toNat), (16, 0)]
  | .rem G w d a b => pack [(8, 8), (6, d.toNat), (6, a.toNat), (6, b.toNat), (4, G.p.toNat), (1, G.neg.toNat), (1, w.toNat), (16, 0)]
  | .and G w d a b => pack [(8, 9), (6, d.toNat), (6, a.toNat), (6, b.toNat), (4, G.p.toNat), (1, G.neg.toNat), (1, w.toNat), (16, 0)]
  | .or G w d a b => pack [(8, 0xa), (6, d.toNat), (6, a.toNat), (6, b.toNat), (4, G.p.toNat), (1, G.neg.toNat), (1, w.toNat), (16, 0)]
  | .xor G w d a b => pack [(8, 0xb), (6, d.toNat), (6, a.toNat), (6, b.toNat), (4, G.p.toNat), (1, G.neg.toNat), (1, w.toNat), (16, 0)]
  | .andn G w d a b => pack [(8, 0xc), (6, d.toNat), (6, a.toNat), (6, b.toNat), (4, G.p.toNat), (1, G.neg.toNat), (1, w.toNat), (16, 0)]
  | .shl G w d a b => pack [(8, 0xd), (6, d.toNat), (6, a.toNat), (6, b.toNat), (4, G.p.toNat), (1, G.neg.toNat), (1, w.toNat), (16, 0)]
  | .shr G w d a b => pack [(8, 0xe), (6, d.toNat), (6, a.toNat), (6, b.toNat), (4, G.p.toNat), (1, G.neg.toNat), (1, w.toNat), (16, 0)]
  | .sar G w d a b => pack [(8, 0xf), (6, d.toNat), (6, a.toNat), (6, b.toNat), (4, G.p.toNat), (1, G.neg.toNat), (1, w.toNat), (16, 0)]
  | .rol G w d a b => pack [(8, 0x10), (6, d.toNat), (6, a.toNat), (6, b.toNat), (4, G.p.toNat), (1, G.neg.toNat), (1, w.toNat), (16, 0)]
  | .min G w d a b => pack [(8, 0x11), (6, d.toNat), (6, a.toNat), (6, b.toNat), (4, G.p.toNat), (1, G.neg.toNat), (1, w.toNat), (16, 0)]
  | .max G w d a b => pack [(8, 0x12), (6, d.toNat), (6, a.toNat), (6, b.toNat), (4, G.p.toNat), (1, G.neg.toNat), (1, w.toNat), (16, 0)]
  | .minn G w d a b => pack [(8, 0x13), (6, d.toNat), (6, a.toNat), (6, b.toNat), (4, G.p.toNat), (1, G.neg.toNat), (1, w.toNat), (16, 0)]
  | .maxn G w d a b => pack [(8, 0x14), (6, d.toNat), (6, a.toNat), (6, b.toNat), (4, G.p.toNat), (1, G.neg.toNat), (1, w.toNat), (16, 0)]
  | .sel G w d a b c => pack [(8, 0x15), (6, d.toNat), (6, a.toNat), (6, b.toNat), (4, G.p.toNat), (1, G.neg.toNat), (1, w.toNat), (4, c.toNat), (12, 0)]
  | .clz G w d a => pack [(8, 0x16), (6, d.toNat), (6, a.toNat), (6, 0), (4, G.p.toNat), (1, G.neg.toNat), (1, w.toNat), (16, 0)]
  | .ctz G w d a => pack [(8, 0x17), (6, d.toNat), (6, a.toNat), (6, 0), (4, G.p.toNat), (1, G.neg.toNat), (1, w.toNat), (16, 0)]
  | .popc G w d a => pack [(8, 0x18), (6, d.toNat), (6, a.toNat), (6, 0), (4, G.p.toNat), (1, G.neg.toNat), (1, w.toNat), (16, 0)]
  | .bfx G w d a lsb width => pack [(8, 0x19), (6, d.toNat), (6, a.toNat), (6, 0), (4, G.p.toNat), (1, G.neg.toNat), (1, w.toNat), (6, lsb.toNat), (6, width.toNat), (4, 0)]
  | .bfi G w d a lsb width => pack [(8, 0x1a), (6, d.toNat), (6, a.toNat), (6, 0), (4, G.p.toNat), (1, G.neg.toNat), (1, w.toNat), (6, lsb.toNat), (6, width.toNat), (4, 0)]
  | .sext G w d a width => pack [(8, 0x1b), (6, d.toNat), (6, a.toNat), (6, 0), (4, G.p.toNat), (1, G.neg.toNat), (1, w.toNat), (6, width.toNat), (10, 0)]
  | .zext G w d a width => pack [(8, 0x1c), (6, d.toNat), (6, a.toNat), (6, 0), (4, G.p.toNat), (1, G.neg.toNat), (1, w.toNat), (6, width.toNat), (10, 0)]
  | .cmp G w pd a b cond => pack [(8, 0x1d), (4, pd.toNat), (2, 0), (6, a.toNat), (6, b.toNat), (4, G.p.toNat), (1, G.neg.toNat), (1, w.toNat), (4, cond.toNat), (12, 0)]
  | .agen G w d a b scale => pack [(8, 0x1e), (6, d.toNat), (6, a.toNat), (6, b.toNat), (4, G.p.toNat), (1, G.neg.toNat), (1, w.toNat), (2, scale.toNat), (14, 0)]
  | .addi G w d a imm => pack [(8, 0x21), (6, d.toNat), (6, a.toNat), (6, 0), (4, G.p.toNat), (1, G.neg.toNat), (1, w.toNat), (16, imm.toNat)]
  | .andi G w d a imm => pack [(8, 0x29), (6, d.toNat), (6, a.toNat), (6, 0), (4, G.p.toNat), (1, G.neg.toNat), (1, w.toNat), (16, imm.toNat)]
  | .ori G w d a imm => pack [(8, 0x2a), (6, d.toNat), (6, a.toNat), (6, 0), (4, G.p.toNat), (1, G.neg.toNat), (1, w.toNat), (16, imm.toNat)]
  | .xori G w d a imm => pack [(8, 0x2b), (6, d.toNat), (6, a.toNat), (6, 0), (4, G.p.toNat), (1, G.neg.toNat), (1, w.toNat), (16, imm.toNat)]
  | .shli G w d a imm => pack [(8, 0x2d), (6, d.toNat), (6, a.toNat), (6, 0), (4, G.p.toNat), (1, G.neg.toNat), (1, w.toNat), (16, imm.toNat)]
  | .shri G w d a imm => pack [(8, 0x2e), (6, d.toNat), (6, a.toNat), (6, 0), (4, G.p.toNat), (1, G.neg.toNat), (1, w.toNat), (16, imm.toNat)]
  | .sari G w d a imm => pack [(8, 0x2f), (6, d.toNat), (6, a.toNat), (6, 0), (4, G.p.toNat), (1, G.neg.toNat), (1, w.toNat), (16, imm.toNat)]
  | .movi G w d imm => pack [(8, 0x30), (6, d.toNat), (6, 0), (6, 0), (4, G.p.toNat), (1, G.neg.toNat), (1, w.toNat), (16, imm.toNat)]
  | .movhi G w d sh imm => pack [(8, 0x31), (6, d.toNat), (6, 0), (2, sh.toNat), (4, 0), (4, G.p.toNat), (1, G.neg.toNat), (1, w.toNat), (16, imm.toNat)]
  | .cmpi G w pd a cond imm => pack [(8, 0x3d), (4, pd.toNat), (2, 0), (6, a.toNat), (4, cond.toNat), (2, 0), (4, G.p.toNat), (1, G.neg.toNat), (1, w.toNat), (16, imm.toNat)]
  | .sfadd G d a b ty rnd => pack [(8, 0x40), (6, d.toNat), (6, a.toNat), (6, b.toNat), (4, G.p.toNat), (1, G.neg.toNat), (1, 0), (2, ty.toNat), (3, rnd.toNat), (11, 0)]
  | .sfmul G d a b ty rnd => pack [(8, 0x41), (6, d.toNat), (6, a.toNat), (6, b.toNat), (4, G.p.toNat), (1, G.neg.toNat), (1, 0), (2, ty.toNat), (3, rnd.toNat), (11, 0)]
  | .sffma G d a b ty rnd => pack [(8, 0x42), (6, d.toNat), (6, a.toNat), (6, b.toNat), (4, G.p.toNat), (1, G.neg.toNat), (1, 0), (2, ty.toNat), (3, rnd.toNat), (11, 0)]
  | .sfcmp G w pd a b cond => pack [(8, 0x43), (4, pd.toNat), (2, 0), (6, a.toNat), (6, b.toNat), (4, G.p.toNat), (1, G.neg.toNat), (1, w.toNat), (4, cond.toNat), (12, 0)]
  | .sfcvt G d a sty rnd dty => pack [(8, 0x44), (6, d.toNat), (6, a.toNat), (6, 0), (4, G.p.toNat), (1, G.neg.toNat), (1, 0), (2, sty.toNat), (3, rnd.toNat), (3, dty.toNat), (8, 0)]
  | .mfc G w d num => pack [(8, 0x50), (6, d.toNat), (6, 0), (6, 0), (4, G.p.toNat), (1, G.neg.toNat), (1, w.toNat), (12, num.toNat), (4, 0)]
  | .mtc G w a num => pack [(8, 0x51), (6, 0), (6, a.toNat), (6, 0), (4, G.p.toNat), (1, G.neg.toNat), (1, w.toNat), (12, num.toNat), (4, 0)]
  | .br disp => pack [(6, 1), (5, 0), (21, disp.toNat)]
  | .brc G disp => pack [(6, 2), (4, G.p.toNat), (1, G.neg.toNat), (21, disp.toNat)]
  | .brr G a => pack [(6, 3), (4, G.p.toNat), (1, G.neg.toNat), (6, a.toNat), (15, 0)]
  | .call G disp => pack [(6, 4), (4, G.p.toNat), (1, G.neg.toNat), (21, disp.toNat)]
  | .callr G a => pack [(6, 5), (4, G.p.toNat), (1, G.neg.toNat), (6, a.toNat), (15, 0)]
  | .ret G => pack [(6, 6), (4, G.p.toNat), (1, G.neg.toNat), (21, 0)]
  | .loop G level cnt len => pack [(6, 7), (4, G.p.toNat), (1, G.neg.toNat), (3, level.toNat), (6, cnt.toNat), (12, len.toNat)]
  | .nest G level kind val addr => pack [(6, 8), (4, G.p.toNat), (1, G.neg.toNat), (3, level.toNat), (2, kind.toNat), (6, val.toNat), (6, addr.toNat), (4, 0)]
  | .chk G a disp => pack [(6, 9), (4, G.p.toNat), (1, G.neg.toNat), (6, a.toNat), (15, disp.toNat)]
  | .isync G => pack [(6, 0xa), (4, G.p.toNat), (1, G.neg.toNat), (21, 0)]
  | .fmt G v => pack [(6, 0xb), (4, G.p.toNat), (1, G.neg.toNat), (21, v.toNat)]
  | .trap G n => pack [(6, 0xc), (4, G.p.toNat), (1, G.neg.toNat), (8, n.toNat), (13, 0)]
  | .sysret => pack [(6, 0xd), (5, 0), (21, 0)]
  | .vadd o => packV 0x1 o
  | .vsub o => packV 0x2 o
  | .vmul o => packV 0x3 o
  | .vfma o => packV 0x4 o
  | .vfms o => packV 0x5 o
  | .vmax o => packV 0x6 o
  | .vmin o => packV 0x7 o
  | .vabs o => packV 0x8 o
  | .vneg o => packV 0x9 o
  | .vand o => packV 0xA o
  | .vor o => packV 0xB o
  | .vxor o => packV 0xC o
  | .vshl o => packV 0xD o
  | .vshr o => packV 0xE o
  | .vcmp o => packV 0xF o
  | .vsel o => packV 0x10 o
  | .vmov o => packV 0x11 o
  | .vbcast o => packV 0x12 o
  | .viota o => packV 0x13 o
  | .vperm o => packV 0x14 o
  | .vrsum o => packV 0x15 o
  | .vrmax o => packV 0x16 o
  | .vrmin o => packV 0x17 o
  | .vscan o => packV 0x18 o
  | .vcvt o => packV 0x19 o
  | .vqnt o => packV 0x1A o
  | .vdqt o => packV 0x1B o
  | .vtopk o => packV 0x1C o
  | .conft o => packV 0x1D o
  | .vext o => packV 0x1E o
  | .vins o => packV 0x1F o
  | .vexp o => packV 0x20 o
  | .vlog o => packV 0x21 o
  | .vrcp o => packV 0x22 o
  | .vrsq o => packV 0x23 o
  | .vtanh o => packV 0x24 o
  | .mma o => packM 0x1 o
  | .mgv o => packM 0x2 o
  | .mrot o => packM 0x3 o
  | .mzero o => packM 0x4 o
  | .mdrn o => packM 0x5 o
  | .mpri o => packM 0x6 o
  | .ld o => packLM 0x1 o
  | .ldv o => packLM 0x2 o
  | .lds o => packLM 0x4 o
  | .lda o => packLM 0x5 o
  | .latch o => packLM 0x6 o
  | .pref o => packLM 0x7 o
  | .ldt o => packLM 0x8 o
  | .kvad o => packLM 0x9 o
  | .ldx o => pack [(8, 3), (6, o.d.toNat), (6, o.base.toNat), (12, o.off.toNat), (12, o.land.toNat), (3, o.size.toNat), (1, o.vec.toNat)]
  | .st o => packLM 0x1 o
  | .stv o => packLM 0x2 o
  | .stx o => packLM 0x3 o
  | .stl o => packLM 0x4 o
  | .stp o => packLM 0x5 o
  | .aadd o => packWA 0x10 o
  | .amin o => packWA 0x11 o
  | .amax o => packWA 0x12 o
  | .aand o => packWA 0x13 o
  | .aor o => packWA 0x14 o
  | .axor o => packWA 0x15 o
  | .axch o => packWA 0x16 o
  | .acas o => packWA 0x17 o
  | .radd o => packWA 0x18 o
  | .rmax o => packWA 0x19 o
  | .cpy o => packX 0x1 o
  | .cpyn o => packX 0x2 o
  | .cpygo o => packX 0x3 o
  | .cpyg o => packX 0x4 o
  | .drain o => packX 0x5 o
  | .bcast o => packX 0x6 o
  | .mcw o => packX 0x7 o
  | .kvcp o => packX 0x8 o
  | .pfxl o => packX 0x9 o
  | .pfxi o => packX 0xA o
  | .send o => packN 0x1 o
  | .recv o => packN 0x2 o
  | .recva o => packN 0x3 o
  | .rtr o => packN 0x4 o
  | .put o => packN 0x5 o
  | .cpln o => packN 0x6 o
  | .knot => pack [(6, 1), (6, 0), (6, 0), (3, 0), (11, 0)]
  | .waitq q n => pack [(6, 2), (5, q.toNat), (1, 0), (6, 0), (3, 0), (8, n.toNat), (3, 0)]
  | .fence scope kind => pack [(6, 3), (6, 0), (6, 0), (3, scope.toNat), (2, kind.toNat), (9, 0)]
  | .acqh a scope => pack [(6, 4), (6, a.toNat), (6, 0), (3, scope.toNat), (11, 0)]
  | .relh a scope => pack [(6, 5), (6, a.toNat), (6, 0), (3, scope.toNat), (11, 0)]
  | .lock a b scope => pack [(6, 6), (6, a.toNat), (6, b.toNat), (3, scope.toNat), (11, 0)]
  | .lockTry pd a b scope => pack [(6, 6), (6, a.toNat), (6, b.toNat), (3, scope.toNat), (4, pd.toNat), (1, 1), (6, 0)]
  | .unlock a scope => pack [(6, 7), (6, a.toNat), (6, 0), (3, scope.toNat), (11, 0)]
  | .spawnNb pd a b => pack [(6, 8), (6, a.toNat), (6, b.toNat), (3, 0), (4, pd.toNat), (1, 0), (6, 0)]
  | .spawnB pd a b => pack [(6, 8), (6, a.toNat), (6, b.toNat), (3, 0), (4, pd.toNat), (1, 1), (6, 0)]
  | .cancel a b q => pack [(6, 9), (6, a.toNat), (6, b.toNat), (3, 0), (5, q.toNat), (6, 0)]
  | .scopeOpen pd a => pack [(6, 0xa), (6, a.toNat), (6, 0), (3, 0), (2, 0), (4, pd.toNat), (5, 0)]
  | .scopeClose => pack [(6, 0xa), (6, 0), (6, 0), (3, 0), (2, 1), (9, 0)]
  | .sleep a imm => pack [(6, 0xb), (6, a.toNat), (6, 0), (3, 0), (11, imm.toNat)]
  | .waitw a b scope cond => pack [(6, 0xc), (6, a.toNat), (6, b.toNat), (3, scope.toNat), (2, cond.toNat), (9, 0)]
  | .bfq a b => pack [(6, 0xd), (6, a.toNat), (6, b.toNat), (3, 0), (11, 0)]
  | .setq q g th => pack [(6, 0xe), (5, q.toNat), (1, 0), (6, g.toNat), (3, 0), (8, th.toNat), (3, 0)]
  | .gOp r => packG 0x1 r
  | .gLoop r => packG 0x2 r
  | .gEndloop r => packG 0x3 r
  | .gBr r => packG 0x4 r
  | .gCall r => packG 0x5 r
  | .gRet r => packG 0x6 r
  | .gTensor r => packG 0x7 r
  | .gView r => packG 0x8 r
  | .gAlloc r => packG 0x9 r
  | .gFree r => packG 0xA r
  | .gShard r => packG 0xB r
  | .gSpawn r => packG 0xC r
  | .gJoin r => packG 0xD r
  | .gScopeOpen r => packG 0xE r
  | .gScopeClose r => packG 0xE r
  | .gCancel r => packG 0xF r
  | .gExitTest r => packG 0x10 r
  | .gExitAdv r => packG 0x10 r
  | .gYield r => packG 0x11 r
  | .gSetdim r => packG 0x12 r
  | .emptyBundle => 0
  | .groupStart _ => 0
  | .knotDepart _ => 0
  | .sleepExpire _ => 0
  | .wordWaitRecheck _ => 0
  | .lockGrant _ => 0
  | .landingDataArrive _ _ => 0
  | .controlStoreFill _ _ => 0
  | .translationResolve _ => 0
  | .heldWritePerform _ => 0
  | .orderingEventPerform _ => 0
  | .podFlushGather _ => 0
  | .reductionApply _ _ => 0
  | .matrixOpStart _ => 0
  | .matrixPassEnd _ => 0
  | .matrixOpComplete _ => 0
  | .mgvStart _ => 0
  | .mgvComplete _ => 0
  | .copyOpStart _ _ => 0
  | .copyBeatWrite _ _ _ => 0
  | .copyOpComplete _ _ _ => 0
  | .drainComplete _ _ => 0
  | .transferBeat _ => 0
  | .putMatch _ _ => 0
  | .rendezvousComplete _ _ => 0
  | .planEntryStart _ _ => 0
  | .planEntryComplete _ _ _ => 0
  | .taskDispatch _ => 0
  | .taskResume _ => 0
  | .ageTick _ => 0
  | .braidReservation _ => 0
  | .evictionMark _ => 0
  | .eviction _ => 0
  | .ballastDispatch _ => 0
  | .ballastKill _ => 0
  | .backfillDispatch _ => 0
  | .backfillRetire _ => 0
  | .taskRetire _ => 0
  | .recordRetire _ => 0
  | .terminationSample _ => 0
  | .terminationDeclare _ => 0
  | .weightFetch _ => 0
  | .stealTokenPass _ _ => 0
  | .stolenTaskCompletion _ => 0
  | .cancelTakeEffect _ _ => 0
  | .cancelComplete _ => 0
  | .preemptSaveComplete _ => 0
  | .handleRewritePerform _ => 0
  | .allocGrant _ => 0
  | .yieldTimerExpire _ => 0
  | .doorbellChange _ => 0
  | .recordWaitEnd _ => 0
  | .ctxStart _ => 0
  | .ctxStop _ => 0
  | .ctxPreemptKeep _ => 0
  | .ctxPreemptDiscard _ => 0
  | .ctxcmdComplete => 0
  | .strandcmdResume _ => 0
  | .strandcmdHandler _ _ => 0
  | .strandcmdKill _ => 0
  | .strandcmdPreempt _ => 0
  | .spareMap _ _ => 0
  | .tinvPage _ _ _ => 0
  | .tinvAsid _ => 0
  | .tinvAll => 0
  | .shootdownComplete => 0
  | .frqheadWrite _ => 0
  | .kvPoolConfigWrite _ _ => 0
  | .pfxvaWrite _ => 0
  | .planStoreWrite _ _ _ => 0
  | .registerWrite _ _ => 0
  | .hostAccess _ _ _ _ => 0
  | .frameReceive _ _ => 0
  | .frameTransmit _ => 0
  | .powerOn => 0
  | .attestationReport _ => 0
  | .powerControlTick _ => 0
  | .telemetryRecord => 0
  | .heartbeat => 0
  | .failover => 0
  | .laneReplace _ => 0
  | .coreRetire _ _ => 0
  | .scrubPass _ => 0
  | .uncorrectableError _ => 0
  | .channelRetire _ => 0
  | .flashSlotSwitch _ => 0
  | .ptpLockChange _ => 0
  | .hawserLinkDown _ => 0
  | .hawserLinkUp _ => 0
  | .moduleRemoval _ => 0

/-- A candidate is the instruction of `w` exactly when it is well formed and its own word is `w`: every bit outside its
fields is then the value its row fixes (R340 case 4). -/
def accept (i : Instr) (w : Nat) : Option Instr := if i.wf && encodeWord i == w then some i else none

/-- The instruction of an S slot word, or none where the word is no instruction (R340, R354, R357). -/
def decodeS (w : Nat) : Option Instr :=
  match w % 256 with
  | 0x1 => accept (.add (guardAt w 26) (bitAt w 31) (bits w 8 6) (bits w 14 6) (bits w 20 6)) w
  | 0x2 => accept (.sub (guardAt w 26) (bitAt w 31) (bits w 8 6) (bits w 14 6) (bits w 20 6)) w
  | 0x3 => accept (.mul (guardAt w 26) (bitAt w 31) (bits w 8 6) (bits w 14 6) (bits w 20 6)) w
  | 0x4 => accept (.mulh (guardAt w 26) (bitAt w 31) (bits w 8 6) (bits w 14 6) (bits w 20 6)) w
  | 0x5 => accept (.mulhn (guardAt w 26) (bitAt w 31) (bits w 8 6) (bits w 14 6) (bits w 20 6)) w
  | 0x6 => accept (.div (guardAt w 26) (bitAt w 31) (bits w 8 6) (bits w 14 6) (bits w 20 6)) w
  | 0x7 => accept (.divn (guardAt w 26) (bitAt w 31) (bits w 8 6) (bits w 14 6) (bits w 20 6)) w
  | 0x8 => accept (.rem (guardAt w 26) (bitAt w 31) (bits w 8 6) (bits w 14 6) (bits w 20 6)) w
  | 0x9 => accept (.and (guardAt w 26) (bitAt w 31) (bits w 8 6) (bits w 14 6) (bits w 20 6)) w
  | 0xA => accept (.or (guardAt w 26) (bitAt w 31) (bits w 8 6) (bits w 14 6) (bits w 20 6)) w
  | 0xB => accept (.xor (guardAt w 26) (bitAt w 31) (bits w 8 6) (bits w 14 6) (bits w 20 6)) w
  | 0xC => accept (.andn (guardAt w 26) (bitAt w 31) (bits w 8 6) (bits w 14 6) (bits w 20 6)) w
  | 0xD => accept (.shl (guardAt w 26) (bitAt w 31) (bits w 8 6) (bits w 14 6) (bits w 20 6)) w
  | 0xE => accept (.shr (guardAt w 26) (bitAt w 31) (bits w 8 6) (bits w 14 6) (bits w 20 6)) w
  | 0xF => accept (.sar (guardAt w 26) (bitAt w 31) (bits w 8 6) (bits w 14 6) (bits w 20 6)) w
  | 0x10 => accept (.rol (guardAt w 26) (bitAt w 31) (bits w 8 6) (bits w 14 6) (bits w 20 6)) w
  | 0x11 => accept (.min (guardAt w 26) (bitAt w 31) (bits w 8 6) (bits w 14 6) (bits w 20 6)) w
  | 0x12 => accept (.max (guardAt w 26) (bitAt w 31) (bits w 8 6) (bits w 14 6) (bits w 20 6)) w
  | 0x13 => accept (.minn (guardAt w 26) (bitAt w 31) (bits w 8 6) (bits w 14 6) (bits w 20 6)) w
  | 0x14 => accept (.maxn (guardAt w 26) (bitAt w 31) (bits w 8 6) (bits w 14 6) (bits w 20 6)) w
  | 0x15 => accept (.sel (guardAt w 26) (bitAt w 31) (bits w 8 6) (bits w 14 6) (bits w 20 6) (bits w 32 4)) w
  | 0x16 => accept (.clz (guardAt w 26) (bitAt w 31) (bits w 8 6) (bits w 14 6)) w
  | 0x17 => accept (.ctz (guardAt w 26) (bitAt w 31) (bits w 8 6) (bits w 14 6)) w
  | 0x18 => accept (.popc (guardAt w 26) (bitAt w 31) (bits w 8 6) (bits w 14 6)) w
  | 0x19 => accept (.bfx (guardAt w 26) (bitAt w 31) (bits w 8 6) (bits w 14 6) (bits w 32 6) (bits w 38 6)) w
  | 0x1A => accept (.bfi (guardAt w 26) (bitAt w 31) (bits w 8 6) (bits w 14 6) (bits w 32 6) (bits w 38 6)) w
  | 0x1B => accept (.sext (guardAt w 26) (bitAt w 31) (bits w 8 6) (bits w 14 6) (bits w 32 6)) w
  | 0x1C => accept (.zext (guardAt w 26) (bitAt w 31) (bits w 8 6) (bits w 14 6) (bits w 32 6)) w
  | 0x1D => accept (.cmp (guardAt w 26) (bitAt w 31) (bits w 8 4) (bits w 14 6) (bits w 20 6) (bits w 32 4)) w
  | 0x1E => accept (.agen (guardAt w 26) (bitAt w 31) (bits w 8 6) (bits w 14 6) (bits w 20 6) (bits w 32 2)) w
  | 0x21 => accept (.addi (guardAt w 26) (bitAt w 31) (bits w 8 6) (bits w 14 6) (bits w 32 16)) w
  | 0x29 => accept (.andi (guardAt w 26) (bitAt w 31) (bits w 8 6) (bits w 14 6) (bits w 32 16)) w
  | 0x2A => accept (.ori (guardAt w 26) (bitAt w 31) (bits w 8 6) (bits w 14 6) (bits w 32 16)) w
  | 0x2B => accept (.xori (guardAt w 26) (bitAt w 31) (bits w 8 6) (bits w 14 6) (bits w 32 16)) w
  | 0x2D => accept (.shli (guardAt w 26) (bitAt w 31) (bits w 8 6) (bits w 14 6) (bits w 32 16)) w
  | 0x2E => accept (.shri (guardAt w 26) (bitAt w 31) (bits w 8 6) (bits w 14 6) (bits w 32 16)) w
  | 0x2F => accept (.sari (guardAt w 26) (bitAt w 31) (bits w 8 6) (bits w 14 6) (bits w 32 16)) w
  | 0x30 => accept (.movi (guardAt w 26) (bitAt w 31) (bits w 8 6) (bits w 32 16)) w
  | 0x31 => accept (.movhi (guardAt w 26) (bitAt w 31) (bits w 8 6) (bits w 20 2) (bits w 32 16)) w
  | 0x3D => accept (.cmpi (guardAt w 26) (bitAt w 31) (bits w 8 4) (bits w 14 6) (bits w 20 4) (bits w 32 16)) w
  | 0x40 => accept (.sfadd (guardAt w 26) (bits w 8 6) (bits w 14 6) (bits w 20 6) (bits w 32 2) (bits w 34 3)) w
  | 0x41 => accept (.sfmul (guardAt w 26) (bits w 8 6) (bits w 14 6) (bits w 20 6) (bits w 32 2) (bits w 34 3)) w
  | 0x42 => accept (.sffma (guardAt w 26) (bits w 8 6) (bits w 14 6) (bits w 20 6) (bits w 32 2) (bits w 34 3)) w
  | 0x43 => accept (.sfcmp (guardAt w 26) (bitAt w 31) (bits w 8 4) (bits w 14 6) (bits w 20 6) (bits w 32 4)) w
  | 0x44 => accept (.sfcvt (guardAt w 26) (bits w 8 6) (bits w 14 6) (bits w 32 2) (bits w 34 3) (bits w 37 3)) w
  | 0x50 => accept (.mfc (guardAt w 26) (bitAt w 31) (bits w 8 6) (bits w 32 12)) w
  | 0x51 => accept (.mtc (guardAt w 26) (bitAt w 31) (bits w 14 6) (bits w 32 12)) w
  | _ => none

/-- The instruction of a C slot word, or none where the word is no instruction (R340, R354, R357). -/
def decodeC (w : Nat) : Option Instr :=
  match w % 64 with
  | 0x1 => accept (.br (bits w 11 21)) w
  | 0x2 => accept (.brc (guardAt w 6) (bits w 11 21)) w
  | 0x3 => accept (.brr (guardAt w 6) (bits w 11 6)) w
  | 0x4 => accept (.call (guardAt w 6) (bits w 11 21)) w
  | 0x5 => accept (.callr (guardAt w 6) (bits w 11 6)) w
  | 0x6 => accept (.ret (guardAt w 6)) w
  | 0x7 => accept (.loop (guardAt w 6) (bits w 11 3) (bits w 14 6) (bits w 20 12)) w
  | 0x8 => accept (.nest (guardAt w 6) (bits w 11 3) (bits w 14 2) (bits w 16 6) (bits w 22 6)) w
  | 0x9 => accept (.chk (guardAt w 6) (bits w 11 6) (bits w 17 15)) w
  | 0xA => accept (.isync (guardAt w 6)) w
  | 0xB => accept (.fmt (guardAt w 6) (bits w 11 21)) w
  | 0xC => accept (.trap (guardAt w 6) (bits w 11 8)) w
  | 0xD => accept (.sysret) w
  | _ => none

/-- The instruction of a V slot word, or none where the word is no instruction (R340, R354, R357). -/
def decodeV (w : Nat) : Option Instr :=
  match w % 256 with
  | 0x1 => accept (.vadd (vrOf w)) w
  | 0x2 => accept (.vsub (vrOf w)) w
  | 0x3 => accept (.vmul (vrOf w)) w
  | 0x4 => accept (.vfma (vrOf w)) w
  | 0x5 => accept (.vfms (vrOf w)) w
  | 0x6 => accept (.vmax (vrOf w)) w
  | 0x7 => accept (.vmin (vrOf w)) w
  | 0x8 => accept (.vabs (vrOf w)) w
  | 0x9 => accept (.vneg (vrOf w)) w
  | 0xA => accept (.vand (vrOf w)) w
  | 0xB => accept (.vor (vrOf w)) w
  | 0xC => accept (.vxor (vrOf w)) w
  | 0xD => accept (.vshl (vrOf w)) w
  | 0xE => accept (.vshr (vrOf w)) w
  | 0xF => accept (.vcmp (vrOf w)) w
  | 0x10 => accept (.vsel (vrOf w)) w
  | 0x11 => accept (.vmov (vrOf w)) w
  | 0x12 => accept (.vbcast (vrOf w)) w
  | 0x13 => accept (.viota (vrOf w)) w
  | 0x14 => accept (.vperm (vrOf w)) w
  | 0x15 => accept (.vrsum (vrOf w)) w
  | 0x16 => accept (.vrmax (vrOf w)) w
  | 0x17 => accept (.vrmin (vrOf w)) w
  | 0x18 => accept (.vscan (vrOf w)) w
  | 0x19 => accept (.vcvt (vrOf w)) w
  | 0x1A => accept (.vqnt (vrOf w)) w
  | 0x1B => accept (.vdqt (vrOf w)) w
  | 0x1C => accept (.vtopk (vrOf w)) w
  | 0x1D => accept (.conft (vrOf w)) w
  | 0x1E => accept (.vext (vrOf w)) w
  | 0x1F => accept (.vins (vrOf w)) w
  | 0x20 => accept (.vexp (vrOf w)) w
  | 0x21 => accept (.vlog (vrOf w)) w
  | 0x22 => accept (.vrcp (vrOf w)) w
  | 0x23 => accept (.vrsq (vrOf w)) w
  | 0x24 => accept (.vtanh (vrOf w)) w
  | _ => none

/-- The instruction of an M slot word, or none where the word is no instruction (R340, R354, R357). -/
def decodeM (w : Nat) : Option Instr :=
  match w % 256 with
  | 0x1 => accept (.mma (mmOf w)) w
  | 0x2 => accept (.mgv (mmOf w)) w
  | 0x3 => accept (.mrot (mmOf w)) w
  | 0x4 => accept (.mzero (mmOf w)) w
  | 0x5 => accept (.mdrn (mmOf w)) w
  | 0x6 => accept (.mpri (mmOf w)) w
  | _ => none

/-- The instruction of an L slot word, or none where the word is no instruction (R340, R354, R357). -/
def decodeL (w : Nat) : Option Instr :=
  match w % 256 with
  | 0x1 => accept (.ld (lmOf w)) w
  | 0x2 => accept (.ldv (lmOf w)) w
  | 0x4 => accept (.lds (lmOf w)) w
  | 0x5 => accept (.lda (lmOf w)) w
  | 0x6 => accept (.latch (lmOf w)) w
  | 0x7 => accept (.pref (lmOf w)) w
  | 0x8 => accept (.ldt (lmOf w)) w
  | 0x9 => accept (.kvad (lmOf w)) w
  | 0x3 => accept (.ldx (ldxOf w)) w
  | _ => none

/-- The instruction of a W slot word, or none where the word is no instruction (R340, R354, R357). -/
def decodeW (w : Nat) : Option Instr :=
  match w % 256 with
  | 0x1 => accept (.st (lmOf w)) w
  | 0x2 => accept (.stv (lmOf w)) w
  | 0x3 => accept (.stx (lmOf w)) w
  | 0x4 => accept (.stl (lmOf w)) w
  | 0x5 => accept (.stp (lmOf w)) w
  | 0x10 => accept (.aadd (waOf w)) w
  | 0x11 => accept (.amin (waOf w)) w
  | 0x12 => accept (.amax (waOf w)) w
  | 0x13 => accept (.aand (waOf w)) w
  | 0x14 => accept (.aor (waOf w)) w
  | 0x15 => accept (.axor (waOf w)) w
  | 0x16 => accept (.axch (waOf w)) w
  | 0x17 => accept (.acas (waOf w)) w
  | 0x18 => accept (.radd (waOf w)) w
  | 0x19 => accept (.rmax (waOf w)) w
  | _ => none

/-- The instruction of an X slot word, or none where the word is no instruction (R340, R354, R357). -/
def decodeX (w : Nat) : Option Instr :=
  match w % 256 with
  | 0x1 => accept (.cpy (xcOf w)) w
  | 0x2 => accept (.cpyn (xcOf w)) w
  | 0x3 => accept (.cpygo (xcOf w)) w
  | 0x4 => accept (.cpyg (xcOf w)) w
  | 0x5 => accept (.drain (xcOf w)) w
  | 0x6 => accept (.bcast (xcOf w)) w
  | 0x7 => accept (.mcw (xcOf w)) w
  | 0x8 => accept (.kvcp (xcOf w)) w
  | 0x9 => accept (.pfxl (xcOf w)) w
  | 0xA => accept (.pfxi (xcOf w)) w
  | _ => none

/-- The instruction of an N slot word, or none where the word is no instruction (R340, R354, R357). -/
def decodeN (w : Nat) : Option Instr :=
  match w % 256 with
  | 0x1 => accept (.send (ncOf w)) w
  | 0x2 => accept (.recv (ncOf w)) w
  | 0x3 => accept (.recva (ncOf w)) w
  | 0x4 => accept (.rtr (ncOf w)) w
  | 0x5 => accept (.put (ncOf w)) w
  | 0x6 => accept (.cpln (ncOf w)) w
  | _ => none

/-- The instruction of a Y slot word, or none where the word is no instruction (R340, R354, R357). -/
def decodeY (w : Nat) : Option Instr :=
  match w % 64 with
  | 0x1 => accept (.knot) w
  | 0x2 => accept (.waitq (bits w 6 5) (bits w 21 8)) w
  | 0x3 => accept (.fence (bits w 18 3) (bits w 21 2)) w
  | 0x4 => accept (.acqh (bits w 6 6) (bits w 18 3)) w
  | 0x5 => accept (.relh (bits w 6 6) (bits w 18 3)) w
  | 0x6 => accept (.lock (bits w 6 6) (bits w 12 6) (bits w 18 3)) w <|> accept (.lockTry (bits w 21 4) (bits w 6 6) (bits w 12 6) (bits w 18 3)) w
  | 0x7 => accept (.unlock (bits w 6 6) (bits w 18 3)) w
  | 0x8 => accept (.spawnNb (bits w 21 4) (bits w 6 6) (bits w 12 6)) w <|> accept (.spawnB (bits w 21 4) (bits w 6 6) (bits w 12 6)) w
  | 0x9 => accept (.cancel (bits w 6 6) (bits w 12 6) (bits w 21 5)) w
  | 0xA => accept (.scopeOpen (bits w 23 4) (bits w 6 6)) w <|> accept (.scopeClose) w
  | 0xB => accept (.sleep (bits w 6 6) (bits w 21 11)) w
  | 0xC => accept (.waitw (bits w 6 6) (bits w 12 6) (bits w 18 3) (bits w 21 2)) w
  | 0xD => accept (.bfq (bits w 6 6) (bits w 12 6)) w
  | 0xE => accept (.setq (bits w 6 5) (bits w 12 6) (bits w 21 8)) w
  | _ => none

/-- The instruction of a graph record word, or none where the word is no instruction (R340, R354, R357). -/
def decodeG (w : Nat) : Option Instr :=
  match w % 256 with
  | 0x1 => accept (.gOp (grOf w)) w
  | 0x2 => accept (.gLoop (grOf w)) w
  | 0x3 => accept (.gEndloop (grOf w)) w
  | 0x4 => accept (.gBr (grOf w)) w
  | 0x5 => accept (.gCall (grOf w)) w
  | 0x6 => accept (.gRet (grOf w)) w
  | 0x7 => accept (.gTensor (grOf w)) w
  | 0x8 => accept (.gView (grOf w)) w
  | 0x9 => accept (.gAlloc (grOf w)) w
  | 0xA => accept (.gFree (grOf w)) w
  | 0xB => accept (.gShard (grOf w)) w
  | 0xC => accept (.gSpawn (grOf w)) w
  | 0xD => accept (.gJoin (grOf w)) w
  | 0xE => accept (.gScopeOpen (grOf w)) w <|> accept (.gScopeClose (grOf w)) w
  | 0xF => accept (.gCancel (grOf w)) w
  | 0x10 => accept (.gExitTest (grOf w)) w <|> accept (.gExitAdv (grOf w)) w
  | 0x11 => accept (.gYield (grOf w)) w
  | 0x12 => accept (.gSetdim (grOf w)) w
  | _ => none

/-- The ten slots of a bundle in program order (R54). -/
inductive Slot where
  | s | c | v0 | v1 | m | l | w | x | n | y
deriving DecidableEq, Repr

/-- The place of a slot in program order, which is also its code in a trap record (R54, Table 12-7). -/
def Slot.index : Slot → Nat
  | .s => 0 | .c => 1 | .v0 => 2 | .v1 => 3 | .m => 4 | .l => 5 | .w => 6 | .x => 7 | .n => 8 | .y => 9

/-- The slots of a bundle in program order. -/
def Slot.all : List Slot := [.s, .c, .v0, .v1, .m, .l, .w, .x, .n, .y]

/-- The first bundle bit and the width of a slot (Table 3-1, R339). -/
def Slot.range : Slot → Nat × Nat
  | .s => (16, 48) | .c => (64, 32) | .v0 => (96, 64) | .v1 => (160, 64) | .m => (224, 64)
  | .l => (288, 48) | .w => (336, 48) | .x => (384, 48) | .n => (432, 48) | .y => (480, 32)

/-- The header bit that marks a slot present (Table 3-1). -/
def Slot.presentBit (k : Slot) : Nat := 2 + k.index

/-- The decoder of a slot's word. -/
def decodeSlot : Slot → Nat → Option Instr
  | .s, w => decodeS w | .c, w => decodeC w | .v0, w => decodeV w | .v1, w => decodeV w | .m, w => decodeM w
  | .l, w => decodeL w | .w, w => decodeW w | .x, w => decodeX w | .n, w => decodeN w | .y, w => decodeY w

/-- The word a slot of a bundle holds. -/
def slotWord (bundle : Nat) (k : Slot) : Nat := bundle >>> k.range.1 % 2 ^ k.range.2

/-- Whether a slot of a bundle is present. -/
def slotPresent (bundle : Nat) (k : Slot) : Bool := bitAt bundle k.presentBit

/-- What decode makes of a bundle: the operations of its present slots in program order, or the slot that raises ILLENC first,
15 for the header (R53, R340). -/
inductive BundleDecode where
  | ok (ops : List (Slot × Instr))
  | illenc (slot : Nat)
deriving DecidableEq, Repr

/-- Decode the slots listed, in order. An absent slot must be all zero (R340 case 2). -/
def decodeSlots (bundle : Nat) : List Slot → BundleDecode
  | [] => .ok []
  | k :: ks =>
    let w := slotWord bundle k
    if slotPresent bundle k then
      match decodeSlot k w with
      | none => .illenc k.index
      | some i =>
        match decodeSlots bundle ks with
        | .ok ops => .ok ((k, i) :: ops)
        | .illenc n => .illenc n
    else if w = 0 then decodeSlots bundle ks else .illenc k.index

/-- Decode a bundle (R52, R53, R340). -/
def decodeBundle (bundle : Nat) : BundleDecode :=
  if (bundle >>> 12) % 16 ≠ 0 then .illenc 15 else decodeSlots bundle Slot.all

/-- The STOP and YIELD bits of a bundle (Table 3-1). -/
def bundleStop (bundle : Nat) : Bool := bitAt bundle 0
def bundleYield (bundle : Nat) : Bool := bitAt bundle 1

/-- The bundle whose only present slot `k` holds the word `w`, with the header flags `flags` (R52). -/
def bundleOfSlot (k : Slot) (w flags : Nat) : Nat := flags % 4 + 2 ^ k.presentBit + w <<< k.range.1

/-- The slot in which a slot operation's encoding stands; an operation of the V slots is placed in V0, and in V1 where V0
excludes it (R346). Graph records and events stand in none. -/
def Instr.slot? : Instr → Option Slot
  | .add _ _ _ _ _ => some .s
  | .sub _ _ _ _ _ => some .s
  | .mul _ _ _ _ _ => some .s
  | .mulh _ _ _ _ _ => some .s
  | .mulhn _ _ _ _ _ => some .s
  | .div _ _ _ _ _ => some .s
  | .divn _ _ _ _ _ => some .s
  | .rem _ _ _ _ _ => some .s
  | .and _ _ _ _ _ => some .s
  | .or _ _ _ _ _ => some .s
  | .xor _ _ _ _ _ => some .s
  | .andn _ _ _ _ _ => some .s
  | .shl _ _ _ _ _ => some .s
  | .shr _ _ _ _ _ => some .s
  | .sar _ _ _ _ _ => some .s
  | .rol _ _ _ _ _ => some .s
  | .min _ _ _ _ _ => some .s
  | .max _ _ _ _ _ => some .s
  | .minn _ _ _ _ _ => some .s
  | .maxn _ _ _ _ _ => some .s
  | .sel _ _ _ _ _ _ => some .s
  | .clz _ _ _ _ => some .s
  | .ctz _ _ _ _ => some .s
  | .popc _ _ _ _ => some .s
  | .bfx _ _ _ _ _ _ => some .s
  | .bfi _ _ _ _ _ _ => some .s
  | .sext _ _ _ _ _ => some .s
  | .zext _ _ _ _ _ => some .s
  | .cmp _ _ _ _ _ _ => some .s
  | .agen _ _ _ _ _ _ => some .s
  | .addi _ _ _ _ _ => some .s
  | .andi _ _ _ _ _ => some .s
  | .ori _ _ _ _ _ => some .s
  | .xori _ _ _ _ _ => some .s
  | .shli _ _ _ _ _ => some .s
  | .shri _ _ _ _ _ => some .s
  | .sari _ _ _ _ _ => some .s
  | .movi _ _ _ _ => some .s
  | .movhi _ _ _ _ _ => some .s
  | .cmpi _ _ _ _ _ _ => some .s
  | .sfadd _ _ _ _ _ _ => some .s
  | .sfmul _ _ _ _ _ _ => some .s
  | .sffma _ _ _ _ _ _ => some .s
  | .sfcmp _ _ _ _ _ _ => some .s
  | .sfcvt _ _ _ _ _ _ => some .s
  | .mfc _ _ _ _ => some .s
  | .mtc _ _ _ _ => some .s
  | .br _ => some .c
  | .brc _ _ => some .c
  | .brr _ _ => some .c
  | .call _ _ => some .c
  | .callr _ _ => some .c
  | .ret _ => some .c
  | .loop _ _ _ _ => some .c
  | .nest _ _ _ _ _ => some .c
  | .chk _ _ _ => some .c
  | .isync _ => some .c
  | .fmt _ _ => some .c
  | .trap _ _ => some .c
  | .sysret => some .c
  | .vadd _ => some .v0
  | .vsub _ => some .v0
  | .vmul _ => some .v0
  | .vfma _ => some .v0
  | .vfms _ => some .v0
  | .vmax _ => some .v0
  | .vmin _ => some .v0
  | .vabs _ => some .v0
  | .vneg _ => some .v0
  | .vand _ => some .v0
  | .vor _ => some .v0
  | .vxor _ => some .v0
  | .vshl _ => some .v0
  | .vshr _ => some .v0
  | .vcmp _ => some .v0
  | .vsel _ => some .v0
  | .vmov _ => some .v0
  | .vbcast _ => some .v0
  | .viota _ => some .v0
  | .vperm _ => some .v0
  | .vrsum _ => some .v0
  | .vrmax _ => some .v0
  | .vrmin _ => some .v0
  | .vscan _ => some .v0
  | .vcvt _ => some .v0
  | .vqnt _ => some .v0
  | .vdqt _ => some .v0
  | .vtopk _ => some .v0
  | .conft _ => some .v0
  | .vext _ => some .v0
  | .vins _ => some .v0
  | .vexp _ => some .v1
  | .vlog _ => some .v1
  | .vrcp _ => some .v1
  | .vrsq _ => some .v1
  | .vtanh _ => some .v1
  | .mma _ => some .m
  | .mgv _ => some .m
  | .mrot _ => some .m
  | .mzero _ => some .m
  | .mdrn _ => some .m
  | .mpri _ => some .m
  | .ld _ => some .l
  | .ldv _ => some .l
  | .lds _ => some .l
  | .lda _ => some .l
  | .latch _ => some .l
  | .pref _ => some .l
  | .ldt _ => some .l
  | .kvad _ => some .l
  | .ldx _ => some .l
  | .st _ => some .w
  | .stv _ => some .w
  | .stx _ => some .w
  | .stl _ => some .w
  | .stp _ => some .w
  | .aadd _ => some .w
  | .amin _ => some .w
  | .amax _ => some .w
  | .aand _ => some .w
  | .aor _ => some .w
  | .axor _ => some .w
  | .axch _ => some .w
  | .acas _ => some .w
  | .radd _ => some .w
  | .rmax _ => some .w
  | .cpy _ => some .x
  | .cpyn _ => some .x
  | .cpygo _ => some .x
  | .cpyg _ => some .x
  | .drain _ => some .x
  | .bcast _ => some .x
  | .mcw _ => some .x
  | .kvcp _ => some .x
  | .pfxl _ => some .x
  | .pfxi _ => some .x
  | .send _ => some .n
  | .recv _ => some .n
  | .recva _ => some .n
  | .rtr _ => some .n
  | .put _ => some .n
  | .cpln _ => some .n
  | .knot => some .y
  | .waitq _ _ => some .y
  | .fence _ _ => some .y
  | .acqh _ _ => some .y
  | .relh _ _ => some .y
  | .lock _ _ _ => some .y
  | .lockTry _ _ _ _ => some .y
  | .unlock _ _ => some .y
  | .spawnNb _ _ _ => some .y
  | .spawnB _ _ _ => some .y
  | .cancel _ _ _ => some .y
  | .scopeOpen _ _ => some .y
  | .scopeClose => some .y
  | .sleep _ _ => some .y
  | .waitw _ _ _ _ => some .y
  | .bfq _ _ => some .y
  | .setq _ _ _ => some .y
  | .gOp _ => none
  | .gLoop _ => none
  | .gEndloop _ => none
  | .gBr _ => none
  | .gCall _ => none
  | .gRet _ => none
  | .gTensor _ => none
  | .gView _ => none
  | .gAlloc _ => none
  | .gFree _ => none
  | .gShard _ => none
  | .gSpawn _ => none
  | .gJoin _ => none
  | .gScopeOpen _ => none
  | .gScopeClose _ => none
  | .gCancel _ => none
  | .gExitTest _ => none
  | .gExitAdv _ => none
  | .gYield _ => none
  | .gSetdim _ => none
  | .emptyBundle => none
  | .groupStart _ => none
  | .knotDepart _ => none
  | .sleepExpire _ => none
  | .wordWaitRecheck _ => none
  | .lockGrant _ => none
  | .landingDataArrive _ _ => none
  | .controlStoreFill _ _ => none
  | .translationResolve _ => none
  | .heldWritePerform _ => none
  | .orderingEventPerform _ => none
  | .podFlushGather _ => none
  | .reductionApply _ _ => none
  | .matrixOpStart _ => none
  | .matrixPassEnd _ => none
  | .matrixOpComplete _ => none
  | .mgvStart _ => none
  | .mgvComplete _ => none
  | .copyOpStart _ _ => none
  | .copyBeatWrite _ _ _ => none
  | .copyOpComplete _ _ _ => none
  | .drainComplete _ _ => none
  | .transferBeat _ => none
  | .putMatch _ _ => none
  | .rendezvousComplete _ _ => none
  | .planEntryStart _ _ => none
  | .planEntryComplete _ _ _ => none
  | .taskDispatch _ => none
  | .taskResume _ => none
  | .ageTick _ => none
  | .braidReservation _ => none
  | .evictionMark _ => none
  | .eviction _ => none
  | .ballastDispatch _ => none
  | .ballastKill _ => none
  | .backfillDispatch _ => none
  | .backfillRetire _ => none
  | .taskRetire _ => none
  | .recordRetire _ => none
  | .terminationSample _ => none
  | .terminationDeclare _ => none
  | .weightFetch _ => none
  | .stealTokenPass _ _ => none
  | .stolenTaskCompletion _ => none
  | .cancelTakeEffect _ _ => none
  | .cancelComplete _ => none
  | .preemptSaveComplete _ => none
  | .handleRewritePerform _ => none
  | .allocGrant _ => none
  | .yieldTimerExpire _ => none
  | .doorbellChange _ => none
  | .recordWaitEnd _ => none
  | .ctxStart _ => none
  | .ctxStop _ => none
  | .ctxPreemptKeep _ => none
  | .ctxPreemptDiscard _ => none
  | .ctxcmdComplete => none
  | .strandcmdResume _ => none
  | .strandcmdHandler _ _ => none
  | .strandcmdKill _ => none
  | .strandcmdPreempt _ => none
  | .spareMap _ _ => none
  | .tinvPage _ _ _ => none
  | .tinvAsid _ => none
  | .tinvAll => none
  | .shootdownComplete => none
  | .frqheadWrite _ => none
  | .kvPoolConfigWrite _ _ => none
  | .pfxvaWrite _ => none
  | .planStoreWrite _ _ _ => none
  | .registerWrite _ _ => none
  | .hostAccess _ _ _ _ => none
  | .frameReceive _ _ => none
  | .frameTransmit _ => none
  | .powerOn => none
  | .attestationReport _ => none
  | .powerControlTick _ => none
  | .telemetryRecord => none
  | .heartbeat => none
  | .failover => none
  | .laneReplace _ => none
  | .coreRetire _ _ => none
  | .scrubPass _ => none
  | .uncorrectableError _ => none
  | .channelRetire _ => none
  | .flashSlotSwitch _ => none
  | .ptpLockChange _ => none
  | .hawserLinkDown _ => none
  | .hawserLinkUp _ => none
  | .moduleRemoval _ => none

/-- Whether an instruction is a graph record (R354). -/
def Instr.isRecord : Instr → Bool
  | .gOp _ | .gLoop _ | .gEndloop _ | .gBr _ | .gCall _ | .gRet _ | .gTensor _ | .gView _ | .gAlloc _ | .gFree _ => true
  | .gShard _ | .gSpawn _ | .gJoin _ | .gScopeOpen _ | .gScopeClose _ | .gCancel _ | .gExitTest _ | .gExitAdv _ => true
  | .gYield _ | .gSetdim _ => true
  | _ => false

/-- Whether an instruction is an event of the device, rather than a slot operation, a graph record or the bundle without a slot. -/
def Instr.isEvent (i : Instr) : Bool := i.slot?.isNone && !i.isRecord && i != .emptyBundle

/-- Whether a decoded operation is one of the Y slot's whose row fixes more bits than the C slot's row that the same word
may be (the C and Y slots share 32-bit words; a word alone does not say its slot). -/
def preferY (w : Nat) : Bool :=
  match w % 64 with
  | 6 => false
  | 10 => decide (w / 2048 ≠ 0)
  | 12 => (decodeC w).isNone
  | 13 => decide (w ≠ 13)
  | _ => true

/-- The slot operation of a 32-bit word that does not say its slot. -/
def decode32 (w : Nat) : Option Instr :=
  if preferY w then decodeY w <|> decodeC w else decodeC w <|> decodeY w

/-- The instruction the decoder reads from a word numbered as the opcode table numbers it: a word of 32 bits or fewer is a C or
Y slot's word, one of 256 bits a graph record, one of 512 bits a bundle (its first operation, or the empty bundle). Words of
the 48-bit and 64-bit slots are given without their slot: the first slot in program order whose decoder takes the word. -/
def decodeTableWord (nbits w : Nat) : Option Instr :=
  if nbits ≤ 32 then decode32 w
  else if nbits ≤ 48 then decodeS w <|> decodeL w <|> decodeW w <|> decodeX w <|> decodeN w
  else if nbits ≤ 64 then decodeV w <|> decodeM w
  else if nbits ≤ 256 then decodeG w
  else
    match decodeBundle w with
    | .ok [] => some .emptyBundle
    | .ok ((_, i) :: _) => some i
    | .illenc _ => none

end Sys2Proof
end

