-- ==== Sys2Proof/Machine/Flags.lean ====
section
/-! DEFINITION. The conditions of the compares (R344, Table 14-4), which are all the flags this part has: no arithmetic condition
sets a flag (R135). -/

namespace Sys2Proof.Machine

open Sys2Proof

/-- The CMP column of Table 14-4 on two `n`-bit codes. -/
def cmpCond (n cond a b : Nat) : Bool :=
  match cond with
  | 0 => a == b
  | 1 => a != b
  | 2 => decide (signedN n a < signedN n b)
  | 3 => decide (signedN n b ≤ signedN n a)
  | 4 => decide (signedN n a ≤ signedN n b)
  | 5 => decide (signedN n b < signedN n a)
  | 6 => decide (a < b)
  | 7 => decide (b ≤ a)
  | 8 => decide (a ≤ b)
  | 9 => decide (b < a)
  | 10 => a &&& b != 0
  | 11 => a &&& b == 0
  | _ => false

/-- The SFCMP column of Table 14-4: `ord` is the order of two numbers, none when either is a NaN. -/
def sfCond (cond : Nat) (ord : Option Ordering) : Bool :=
  match cond, ord with
  | 0, some o => o == .eq
  | 1, some o => o != .eq
  | 1, none => true
  | 2, some o => o == .lt
  | 3, some o => o != .gt
  | 4, some o => o == .gt
  | 5, some o => o != .lt
  | 6, none => true
  | 7, some _ => true
  | _, _ => false

/-- The conditions of WAITW: 0 eq, 1 ne, 2 unsigned ≥, 3 unsigned < (R268). -/
def waitCond (cond w x : Nat) : Bool :=
  match cond with
  | 0 => w == x
  | 1 => w != x
  | 2 => decide (x ≤ w)
  | _ => decide (w < x)

end Sys2Proof.Machine
end

