-- ==== Sys2Proof/Machine/Kill.lean ====
section
/-! DEFINITION. Killing (R246, R310, R315 to R318): what becomes of a killed strand's writes, locks, engine operations, scopes and
strand, the report of the kill, and a kill that waits; and a trap that kills. -/

namespace Sys2Proof.Machine

open Sys2Proof

namespace State

/-- The fate of a killed strand's engine operations on its core (Table 12-4): those not started are removed, those started are cut
short, but for KVCP, PFXL and PFXI, which run to completion; a post not matched is withdrawn. -/
def cutEngines (s : State) (sid task : Nat) : State :=
  let core := s.core (gidOf sid)
  let gone := (core.nq.filter (fun o => o.sid == sid && o.task == task && o.goes)).map (·.id)
  let mine (o : MOp) : Bool := o.sid == sid && o.task == task
  let cutM (os : List MOp) : List MOp := (os.filter (fun o => !mine o || o.started)).map (fun o => if mine o then { o with cut := true } else o)
  let cutX (o : XOp) : XOp :=
    if o.sid = sid ∧ o.task = task then
      match o.kind with
      | .copy => { o with cut := true }
      | .mcw => { o with cut := true }
      | _ => o
    else o
  let stays (o : XOp) : Bool := !(o.sid == sid && o.task == task) || o.started || (match o.kind with
    | .drain _ => true
    | _ => false)
  let s1 := s.updCore (gidOf sid) (fun c =>
    { c with
      busy := ((c.mq ++ c.gq).filter (fun o => mine o && !o.started)).foldl unbusy c.busy
      mq := cutM c.mq
      gq := cutM c.gq
      chans := c.chans.map (fun ch => (ch.1, (ch.2.filter stays).map cutX))
      nq := (c.nq.filter (fun o => !(o.sid == sid && o.task == task && o.goes))).map (fun o =>
        if o.sid = sid ∧ o.task = task then { o with cut := true } else o) })
  { s1 with posts := s1.posts.filter (fun p => p.plan || !(gone.contains p.nop)) }

/-- The queued writes of a strand that no ordering event holds: they have left it, and each performs whole (R246, Table 12-2). -/
def looseWrites (t : Strand) : List WqItem :=
  t.wq.filter (fun i => match i.what with
    | .write va ps o => !o.releases && !(t.before i.id).heldWrite va (piecesSize ps)
    | _ => false)

/-- Those writes performed; the others are dropped with the strand (R246). -/
def performLoose (s : State) (sid : Nat) : State :=
  (looseWrites (s.strand sid)).foldl (fun s i => match i.what with
    | .write va ps o => s.performWrite sid i.id va ps o
    | _ => s) s

/-- WOUT: the writes of a task that have left its strands and are not known to have performed (R246): what stands in the switches, and
what performs as the kill comes. -/
def writesOut (s : State) (k : Task) : Nat :=
  (k.strands.map (fun sid => (s.swRed.filter (fun r => r.sid == sid && r.task == k.id)).length +
    (if (s.strand sid).task = k.id then (looseWrites (s.strand sid)).length else 0))).foldl (· + ·) 0

/-- A strand freed: nothing of the task stays in it (R34, R39). -/
def freeStrand (s : State) (sid : Nat) : State := s.setStrand sid Strand.idle

/-- A task's strands and braid line freed (R39, R310). -/
def freeStrands (s : State) (k : Task) : State :=
  let s1 := k.strands.foldl (fun s sid => if (s.strand sid).task = k.id then s.freeStrand sid else s) s
  match k.line with
  | some b => match s1.braids.get? b with
    | some x => if x.task = k.id then { s1 with braids := s1.braids.del b } else s1
    | none => s1
  | none => s1

/-- One more task of a record retired or killed, with the weight it returns (R39, R259, R309). -/
def recordReturn (s : State) (record weight : Nat) : State :=
  match s.records.get? record with
  | some r =>
    let r1 : OpRecord := { r with returned := r.returned + 1, wBack := r.wBack + weight }
    { s with records := s.records.set record r1 }
  | none => s

/-- The scoreboard state words of the handles that a task names, with its counts added or taken away (R191). -/
def boardTask (s : State) (k : Task) (add : Bool) : State :=
  let w := (s.ctx k.ctx).walker
  let step (n : Nat) (on : Bool) : Nat := if on then (if add then n + 1 else n - 1) else n
  (k.boxes.map (·.handle)).eraseDups.foldl (fun s h =>
    let mine := k.boxes.filter (fun b => b.handle == h)
    match (s.walk w.troot (w.htva + 64 * h) .load).pa? (w.htva + 64 * h) with
    | some pa =>
      let v := s.natAt (pa + 8) 8
      s.writeNat (pa + 8) 8 (step (v % 2 ^ 32) (mine.any (·.read)) % 2 ^ 32 +
        step (fieldN v 32 16) (mine.any (·.write)) % 2 ^ 16 * 2 ^ 32)
    | none => s) s

/-- A task that leaves without a report: its writes, locks, engines, strands, scopes and its place in the record (R246, R310,
Table 12-2). A backfill job stays listed until its entry is settled (R297). -/
def dropTask (s : State) (k : Task) (cls : TrapClass) : State :=
  let bound := k.strands.filter (fun sid => (s.strand sid).task == k.id)
  let scopes := k.strands.map (fun sid => s.strandOrSaved sid k.id)
  let s0 := bound.foldl (fun s sid => s.performLoose sid) s
  let s1 := k.strands.foldl (fun s sid =>
    ((s.locksOf sid k.id).foldl (fun s w => s.lockAbandon w sid) s)) s0
  let s2 := bound.foldl (fun s sid => (s.cutEngines sid k.id).lockLeave sid) s1
  let s3 := (k.strands.foldl (fun s sid => s.abandonParts (2 * k.id, sid)) (s2.scopeCloseAll scopes)).freeStrands k
  let s4 := { s3.inheritAll with kvWait := s3.inheritAll.kvWait.filter (fun x => x != (1, k.id)), doomed := s3.inheritAll.doomed.filter (fun d => d.task != k.id) }
  if k.kind = .backfill then s4.updTask k.id (fun k => { k with status := .ended, failed := some cls })
  else (({ s4 with tasks := s4.tasks.del k.id } : State).boardTask k false).scopeUnbind k.home |>.recordReturn k.record k.weight

/-- Whether a task's strands are at a bundle boundary: none is inside a bundle for a translation (R179, R310). -/
def atBoundary (s : State) (k : Task) : Bool := k.strands.all (fun sid => (s.strand sid).task != k.id || (s.strand sid).xlat.isEmpty)

/-- Whether the kill of a task is reported by one entry of kind 1 (R310): not that of a backfill job (R297) or ballast task (R273). -/
def killReported (k : Task) : Bool := k.kind != .backfill && k.kind != .ballast

/-- A task killed (R310, R315), with one report of kind 1; a ballast task's trap is counted instead (R273). -/
def killNow (s : State) (k : Task) (cls : TrapClass) : State :=
  let r := s.reportOf 1 cls 0 0 (s.writesOut k) (k.strands.headD 0) k.id
  let s1 := s.dropTask k cls
  match k.kind with
  | .ballast => if cls = .cancelled then s1 else { s1 with telem := { s1.telem with ballast := s1.telem.ballast + 1 } }
  | .backfill => s1
  | _ => s1.postReport r

/-- Whether a task may be killed now: at a bundle boundary (R310), and with room for its report (R318). -/
def mayKill (s : State) (k : Task) : Bool := s.atBoundary k && !(killReported k && s.frqFull)

/-- A TASK KILLED (R310, R315): now, or as soon as it may be. -/
def killTask (s : State) (id : Nat) (cls : TrapClass) : State :=
  match s.tasks.get? id with
  | none => s
  | some k => if s.mayKill k then s.killNow k cls else s.doom ⟨id, 0, cls, none⟩

/-- A strand of a control core stopped, with its kill reported (R310); nothing but its own part of Table 12-2 is at stake. -/
def killCtrlNow (s : State) (sid : Nat) (cls : TrapClass) : State :=
  let r := s.reportOf 1 cls 0 0 ((s.swRed.filter (fun r => r.sid == sid && r.task == 0)).length + (looseWrites (s.strand sid)).length) sid 0
  let s0 := s.performLoose sid
  let s1 := (s0.locksOf sid 0).foldl (fun s w => s.lockAbandon w sid) s0
  let s2 := ((((s1.cutEngines sid 0).lockLeave sid).abandonParts (0, sid)).freeStrand sid).inheritAll
  ({ s2 with doomed := s2.doomed.filter (fun d => !(d.task == 0 && d.sid == sid)) } : State).postReport r

/-- A control core's strand killed, now or as soon as it may be. -/
def killCtrl (s : State) (sid : Nat) (cls : TrapClass) : State :=
  if (s.strand sid).xlat.isEmpty && !s.frqFull then s.killCtrlNow sid cls else s.doom ⟨0, sid, cls, none⟩

/-- A kill that has waited made, if it may be. -/
def reapOne (s : State) (d : Doom) : State :=
  if d.task = 0 then (if (s.strand d.sid).xlat.isEmpty && !s.frqFull then s.killCtrlNow d.sid d.cls else s)
  else match s.tasks.get? d.task with
  | none => { s with doomed := s.doomed.filter (fun x => x.task != d.task) }
  | some k => if s.mayKill k then s.killNow k d.cls else s

/-- Every kill that has waited made, if it may be, in the order in which they came (R310, R318). -/
def reap (s : State) : State := s.doomed.foldl (fun s d => s.reapOne d) s

/-- Whether the strand's task, or the control core's strand, is to be killed. -/
def doomedStrand (s : State) (sid : Nat) : Bool :=
  if isCtrl sid then s.isDoomed 0 sid else (s.strand sid).task != 0 && s.isDoomed (s.strand sid).task 0

/-- TAKING A TRAP between bundles (R314): the strand freezes. In handler mode the task is killed instead (R316); a backfill job fails
(R297); a ballast task is killed (R273). -/
def takeTrap (s : State) (sid : Nat) (cls : TrapClass) (code slot perf : Nat) (info : FaultInfo) (held : Bool) : State :=
  if s.trapKills sid then (if isCtrl sid then s.killCtrl sid cls else s.killTask (s.strand sid).task cls)
  else s.freeze sid cls code slot perf info held

end State

end Sys2Proof.Machine
end

