-- ==== Sys2Proof/Machine/Uses.lean ====
section
/-! DEFINITION. What each slot operation reads, writes and needs: the dependence checks of R56, the group-start tests of R58 and the
rows of the window test (R94) are made from it. -/

namespace Sys2Proof.Machine

open Sys2Proof

/-- The address of an L-slot load: its base register, the bits and the value of its offset, its bytes, and whether it may read the AM
window (R165). -/
structure LoadUse where
  base  : Nat
  bits  : Nat
  off   : Nat
  bytes : Nat
  am    : Bool
deriving DecidableEq, Repr

/-- What a slot operation reads, writes and needs. -/
structure Uses where
  guard    : Option Guard := none
  reads    : List Res := []
  writes   : List Res := []
  rows     : List Nat := []
  prods    : List Nat := []
  cons     : List Nat := []
  fixed    : List Nat := []
  transfer : Bool := false
  loop     : Bool := false
  wait     : Bool := false
  knot     : Bool := false
  special  : Bool := false
  bcast    : Bool := false
  landings : Nat := 0
  access   : Option LoadUse := none
  matrix   : Nat := 0
  channel  : Option Nat := none
  comm     : Nat := 0
  tile     : Option (Nat × Nat) := none
deriving DecidableEq, Repr

/-- Registers as dependence resources; g0 is exempt (R56). -/
def gRes (rs : List (BitVec 6)) : List Res := (rs.filter (fun r => r.toNat != 0)).map (fun r => .g r.toNat)

/-- Predicates as dependence resources; p0 is exempt (R56). -/
def pRes (ps : List Nat) : List Res := (ps.filter (fun p => p != 0)).map Res.p

def guardReads (G : Guard) : List Res := pRes [G.p.toNat]

namespace Uses

/-- A guarded operation that reads registers only. -/
def only (G : Guard) (rs : List (BitVec 6)) : Uses := { guard := some G, reads := guardReads G ++ gRes rs }

/-- A guarded operation that reads registers and writes one. -/
def alu (G : Guard) (rs : List (BitVec 6)) (d : BitVec 6) : Uses :=
  { guard := some G, reads := guardReads G ++ gRes rs, writes := gRes [d] }

/-- A guarded compare. -/
def cmp (G : Guard) (rs : List (BitVec 6)) (pd : BitVec 4) : Uses :=
  { guard := some G, reads := guardReads G ++ gRes rs, writes := pRes [pd.toNat] }

/-- A vector operation on row a, on b where `b` says so, on c, and on d as a source (R518, R520). -/
def vec (t : Strand) (o : VFields) (b c dsrc : Bool) : Uses :=
  let ra := [t.vrow o.a.toNat]
  let rb := if b && !o.bsel then [t.vrow o.b.toNat] else []
  let rc := if c then [t.vrow o.c.toNat] else []
  let rd := if dsrc then [t.vrow o.d.toNat] else []
  { guard := some o.G
    reads := guardReads o.G ++ (ra ++ rb ++ rc ++ rd).map Res.row ++ (if b && o.bsel then gRes [o.b] else [])
    writes := [.row (t.vrow o.d.toNat)] }

/-- An M-slot operation with a tile (R136). -/
def mat (o : MFields) (rs : List (BitVec 6)) : Uses :=
  { guard := some ⟨o.p, false⟩
    reads := pRes [o.p.toNat] ++ gRes rs
    prods := [o.prod.toNat]
    cons := [o.c1.toNat, o.c2.toNat, o.c3.toNat]
    matrix := 1
    tile := some (o.tile.toNat, o.gN.toNat) }

/-- An X-slot operation that takes an entry of its channel (R199). -/
def eng (rs : List (BitVec 6)) (o : XFields) : Uses :=
  { reads := gRes rs
    prods := [o.prod.toNat]
    cons := [o.c1.toNat, o.c2.toNat, o.c3.toNat]
    channel := some o.ch.toNat }

end Uses

/-- Whether a level has a length binding (R80). -/
def Strand.bound (t : Strand) (l : Nat) : Bool := (t.level l).atts.any (fun a => a.kind == 1)

/-- What an instruction reads, writes and needs, with vector registers taken as rows through VWB (R93). -/
def usesOf (t : Strand) : Instr → Uses
  | .add G _ d a b => .alu G [a, b] d
  | .sub G _ d a b => .alu G [a, b] d
  | .mul G _ d a b => .alu G [a, b] d
  | .mulh G _ d a b => .alu G [a, b] d
  | .mulhn G _ d a b => .alu G [a, b] d
  | .div G _ d a b => .alu G [a, b] d
  | .divn G _ d a b => .alu G [a, b] d
  | .rem G _ d a b => .alu G [a, b] d
  | .and G _ d a b => .alu G [a, b] d
  | .or G _ d a b => .alu G [a, b] d
  | .xor G _ d a b => .alu G [a, b] d
  | .andn G _ d a b => .alu G [a, b] d
  | .shl G _ d a b => .alu G [a, b] d
  | .shr G _ d a b => .alu G [a, b] d
  | .sar G _ d a b => .alu G [a, b] d
  | .rol G _ d a b => .alu G [a, b] d
  | .min G _ d a b => .alu G [a, b] d
  | .max G _ d a b => .alu G [a, b] d
  | .minn G _ d a b => .alu G [a, b] d
  | .maxn G _ d a b => .alu G [a, b] d
  | .sel G _ d a b c => { Uses.alu G [a, b] d with reads := guardReads G ++ gRes [a, b] ++ pRes [c.toNat] }
  | .clz G _ d a => .alu G [a] d
  | .ctz G _ d a => .alu G [a] d
  | .popc G _ d a => .alu G [a] d
  | .bfx G _ d a _ _ => .alu G [a] d
  | .bfi G _ d a _ _ => .alu G [a, d] d
  | .sext G _ d a _ => .alu G [a] d
  | .zext G _ d a _ => .alu G [a] d
  | .cmp G _ pd a b _ => .cmp G [a, b] pd
  | .agen G _ d a b _ => .alu G [a, b] d
  | .addi G _ d a _ => .alu G [a] d
  | .andi G _ d a _ => .alu G [a] d
  | .ori G _ d a _ => .alu G [a] d
  | .xori G _ d a _ => .alu G [a] d
  | .shli G _ d a _ => .alu G [a] d
  | .shri G _ d a _ => .alu G [a] d
  | .sari G _ d a _ => .alu G [a] d
  | .movi G _ d _ => .alu G [] d
  | .movhi G _ d _ _ => .alu G [d] d
  | .cmpi G _ pd a _ _ => .cmp G [a] pd
  | .sfadd G d a b _ _ => .alu G [a, b] d
  | .sfmul G d a b _ _ => .alu G [a, b] d
  | .sffma G d a b _ _ => .alu G [a, b, d] d
  | .sfcmp G _ pd a b _ => .cmp G [a, b] pd
  | .sfcvt G d a _ _ _ => .alu G [a] d
  | .mfc G _ d _ => .alu G [] d
  | .mtc G _ a _ => .only G [a]
  | .br _ => { transfer := true }
  | .brc G _ => { Uses.only G [] with transfer := true }
  | .brr G a => { Uses.only G [a] with transfer := true }
  | .call G _ => { Uses.only G [] with transfer := true }
  | .callr G a => { Uses.only G [a] with transfer := true }
  | .ret G => { Uses.only G [] with transfer := true }
  | .loop G level cnt _ => { Uses.only G (if t.bound level.toNat then [] else [cnt]) with loop := true }
  | .nest G _ _ val _ => .only G [val]
  | .chk G a _ => { Uses.only G [a] with transfer := true }
  | .isync G => .only G []
  | .fmt G _ => .only G []
  | .trap G _ => .only G []
  | .sysret => { wait := true, loop := true }
  | .vadd o => .vec t o true false false
  | .vsub o => .vec t o true false false
  | .vmul o => .vec t o true false false
  | .vfma o => .vec t o true true false
  | .vfms o => .vec t o true true false
  | .vmax o => .vec t o true false false
  | .vmin o => .vec t o true false false
  | .vabs o => .vec t o false false false
  | .vneg o => .vec t o false false false
  | .vand o => .vec t o true false false
  | .vor o => .vec t o true false false
  | .vxor o => .vec t o true false false
  | .vshl o => .vec t o true false false
  | .vshr o => .vec t o true false false
  | .vcmp o => .vec t o true false false
  | .vsel o => .vec t o true true false
  | .vmov o => .vec t o false false false
  | .vbcast o => { Uses.vec t o false false false with reads := guardReads o.G ++ (if o.bsel then gRes [o.b] else [.row (t.vrow o.a.toNat)]) }
  | .viota o => { Uses.vec t o false false false with reads := guardReads o.G }
  | .vperm o => .vec t o true false false
  | .vrsum o => .vec t o false false false
  | .vrmax o => .vec t o false false false
  | .vrmin o => .vec t o false false false
  | .vscan o => .vec t o false false false
  | .vcvt o => .vec t o false false (o.ty.toNat == 1 && o.imm.toNat % 4 != 1)
  | .vqnt o => .vec t o false false true
  | .vdqt o => .vec t o false false false
  | .vtopk o => .vec t o o.bsel false false
  | .conft o => { Uses.vec t o true false false with writes := [.row (t.vrow o.d.toNat)] ++ pRes [o.c.toNat % 16] }
  | .vext o => { Uses.vec t o o.bsel false false with writes := gRes [o.d] }
  | .vins o => { Uses.vec t o true false true with reads := guardReads o.G ++ gRes [o.b] ++ [.row (t.vrow o.d.toNat)] }
  | .vexp o => { Uses.vec t o false false false with special := true }
  | .vlog o => { Uses.vec t o false false false with special := true }
  | .vrcp o => { Uses.vec t o false false false with special := true }
  | .vrsq o => { Uses.vec t o false false false with special := true }
  | .vtanh o => { Uses.vec t o false false false with special := true }
  | .mma o => .mat o [o.gA, o.gB, o.gN]
  | .mgv o => .mat o [o.gA, o.gB, o.gN]
  | .mrot o => .mat o [o.gN]
  | .mzero o => .mat o [o.gN]
  | .mdrn o => .mat o [o.gA, o.gB, o.gN]
  | .mpri o => .only ⟨o.p, false⟩ []
  | .ld o => { Uses.alu o.G [o.base] o.d with access := some ⟨o.base.toNat, 16, o.off.toNat, (loadForm o.size.toNat).size, true⟩ }
  | .ldv o => { Uses.only o.G [o.base] with writes := [.row (t.vrow o.d.toNat)], rows := [t.vrow o.d.toNat], access := some ⟨o.base.toNat, 16, o.off.toNat, rowBytes o.size.toNat, true⟩ }
  | .lds o => { Uses.alu o.G [o.base] o.d with access := some ⟨o.base.toNat, 16, o.off.toNat, (loadForm o.size.toNat).size, true⟩ }
  | .lda o => { Uses.alu o.G [o.base] o.d with access := some ⟨o.base.toNat, 16, o.off.toNat, (loadForm o.size.toNat).size, false⟩ }
  | .latch o => { Uses.only o.G [o.base] with writes := pRes [o.d.toNat] }
  | .pref o => .only o.G [o.base]
  | .ldt o => { Uses.alu o.G [o.base] o.d with access := some ⟨o.base.toNat, 16, o.off.toNat, (loadForm o.size.toNat).size, false⟩ }
  | .kvad o => { Uses.only o.G [o.base] with writes := gRes [o.d] ++ pRes [o.off.toNat / 4096], landings := 1 }
  | .ldx o => { reads := gRes [o.base], writes := if o.vec then [.row (t.vrow o.d.toNat)] else gRes [o.d], rows := if o.vec then [t.vrow o.d.toNat] else [], landings := 1, access := some ⟨o.base.toNat, 12, o.off.toNat, if o.vec then rowBytes o.size.toNat else (loadForm o.size.toNat).size, true⟩ }
  | .st o => .only o.G [o.base, o.d]
  | .stv o => { Uses.only o.G [o.base] with reads := guardReads o.G ++ gRes [o.base] ++ [.row (t.vrow o.d.toNat)], rows := [t.vrow o.d.toNat] }
  | .stx o => if o.vec then { Uses.only o.G [o.base] with reads := guardReads o.G ++ gRes [o.base] ++ [.row (t.vrow o.d.toNat)], rows := [t.vrow o.d.toNat] } else .only o.G [o.base, o.d]
  | .stl o => .only o.G [o.base, o.d]
  | .stp o => { Uses.only o.G [o.base] with reads := guardReads o.G ++ gRes [o.base] ++ [.row (t.vrow o.d.toNat)], rows := [t.vrow o.d.toNat] }
  | .aadd o => { reads := gRes [o.base, o.s], writes := gRes [o.d], landings := if o.d.toNat = 0 then 0 else 1 }
  | .amin o => { reads := gRes [o.base, o.s], writes := gRes [o.d], landings := if o.d.toNat = 0 then 0 else 1 }
  | .amax o => { reads := gRes [o.base, o.s], writes := gRes [o.d], landings := if o.d.toNat = 0 then 0 else 1 }
  | .aand o => { reads := gRes [o.base, o.s], writes := gRes [o.d], landings := if o.d.toNat = 0 then 0 else 1 }
  | .aor o => { reads := gRes [o.base, o.s], writes := gRes [o.d], landings := if o.d.toNat = 0 then 0 else 1 }
  | .axor o => { reads := gRes [o.base, o.s], writes := gRes [o.d], landings := if o.d.toNat = 0 then 0 else 1 }
  | .axch o => { reads := gRes [o.base, o.s], writes := gRes [o.d], landings := if o.d.toNat = 0 then 0 else 1 }
  | .acas o => { reads := gRes [o.base, o.s, o.d], writes := gRes [o.d], landings := if o.d.toNat = 0 then 0 else 1 }
  | .radd o => { reads := gRes [o.base, o.s] }
  | .rmax o => { reads := gRes [o.base, o.s] }
  | .cpy o => .eng [o.g1, o.g2, o.g3] o
  | .cpyn o => { reads := gRes [o.g1, o.g2, o.g3] }
  | .cpygo o => .eng [o.g1, o.g2, o.g3] o
  | .cpyg o => .eng [o.g1, o.g2, o.g3] o
  | .drain o => .eng [] o
  | .bcast o => { reads := gRes [o.g1], bcast := true }
  | .mcw o => .eng [o.g1, o.g2, o.g3] o
  | .kvcp o => .eng [o.g1, o.g2, o.g3] o
  | .pfxl o => .eng [o.g1, o.g2, o.g3] o
  | .pfxi o => .eng [o.g1, o.g2, o.g3] o
  | .send o => { reads := gRes [o.g1, o.g2], cons := [o.cons.toNat], prods := [o.prod.toNat], comm := 1, fixed := [o.cons.toNat] }
  | .recv o => { reads := gRes [o.g1, o.g2], cons := [o.cons.toNat], prods := [o.prod.toNat], comm := 1, fixed := [o.cons.toNat] }
  | .recva o => { reads := gRes [o.g1, o.g2], cons := [o.cons.toNat], prods := [o.prod.toNat], comm := 1, fixed := [o.cons.toNat] }
  | .rtr o => { reads := gRes [o.g1, o.g2, o.g3], cons := [o.cons.toNat], prods := [o.prod.toNat], comm := 1 }
  | .put o => { reads := gRes [o.g1, o.g2, o.g3], cons := [o.cons.toNat], prods := [o.prod.toNat], comm := 1 }
  | .cpln o => { reads := gRes [o.g1, o.g2, o.g3], cons := [o.cons.toNat], prods := [o.prod.toNat], comm := 1 }
  | .knot => { wait := true, knot := true }
  | .waitq _ _ => { wait := true }
  | .fence _ _ => {}
  | .acqh a _ => { reads := gRes [a] }
  | .relh a _ => { reads := gRes [a] }
  | .lock a b _ => { wait := true, reads := gRes [a], writes := gRes [b] }
  | .lockTry pd a b _ => { wait := true, reads := gRes [a], writes := gRes [b] ++ pRes [pd.toNat] }
  | .unlock a _ => { reads := gRes [a] }
  | .spawnNb pd a b => { reads := gRes [a, b], writes := pRes [pd.toNat] }
  | .spawnB pd a b => { wait := true, reads := gRes [a, b], writes := pRes [pd.toNat] }
  | .cancel a b q => { reads := gRes [a, b], prods := [q.toNat] }
  | .scopeOpen pd a => { writes := gRes [a] ++ pRes [pd.toNat], landings := 1 }
  | .scopeClose => { landings := 1 }
  | .sleep a _ => { wait := true, reads := gRes [a] }
  | .waitw a b _ _ => { wait := true, reads := gRes [a, b] }
  | .bfq a b => { reads := gRes [a], writes := gRes [b], landings := 1 }
  | .setq _ g _ => { reads := gRes [g] }
  | _ => {}

end Sys2Proof.Machine
end

