-- ==== Sys2Proof/Machine/Issue.lean ====
section
/-! DEFINITION. The issue of a bundle: fetch (R44, R45), the decode traps (R53), the group-start tests (R58), the window test (R94),
and what closes a bundle: the nest unit (R82), redirects (R374), yields (R38), the end of a microprogram (R39), and the step. -/

namespace Sys2Proof.Machine

open Sys2Proof

/-! Fetch. -/

/-- The control store of a core after a use or a fill of a line: most recent first, eight ways in each of 64 sets (R44). -/
def csTouch (cs : List (Nat × List (BitVec 512))) (line : Nat) (bs : List (BitVec 512)) : List (Nat × List (BitVec 512)) :=
  let rest := cs.filter (fun l => l.1 ≠ line)
  let set := rest.filter (fun l => l.1 % 64 == line % 64)
  let kept := if set.length < 8 then rest else rest.filter (fun l => some l.1 != (set[7]?).map (·.1))
  (line, bs) :: kept

/-- What a fetch gives: a bundle, a line to wait for, or a failure with its class, address and level. -/
inductive Fetched where
  | bundle (b : Nat)
  | miss (line : Nat)
  | fail (cls : TrapClass) (va level : Nat)
deriving DecidableEq, Repr

/-- The virtual address of a control core's bundle: its system placed the program (log entry 9). -/
def State.ctrlBundleVa (s : State) (gid i : Nat) : Nat := (s.core gid).codeBase + 64 * i

/-- A bundle of a cluster's microcode store as a fill of a line takes it: wholly as it was while writes of it are not all made visible
(R46, R248). -/
def State.storeBundle (s : State) (cluster i : Nat) : BitVec 512 :=
  let a := ucodeBase s.module cluster + 64 * i
  match s.parts.find? (fun p => p.addr == a) with
  | some p => p.old
  | none => BitVec.ofNat 512 (s.natAt a 64)

/-- A control core's fetch past its instruction cache (R15, R176, R177): the bundle where it lies, or why it cannot be fetched. -/
def State.ctrlFetch (s : State) (gid i : Nat) : Fetched :=
  let va := s.ctrlBundleVa gid i
  match s.walk (s.ctrlSpace (gid - 4096)).2 va .fetch with
  | .fail c l => .fail c va l
  | .page base size pa _ _ =>
    let a := pa + (va - base)
    if !s.reachable a then .fail .mchk va (sizeLevel size)
    else if targetOf (a % 2 ^ 48) ≠ .hbm then .fail .accv va (sizeLevel size)
    else .bundle (s.natAt a 64)

/-- The fetch of bundle index `i` by a strand (R44, R45): an index below 0x0800 is ACCV. A control core fetches through its
instruction cache, a bundle to a line of 64 bytes (R15, R177). -/
def State.fetch (s : State) (sid i : Nat) : Fetched :=
  let gid := gidOf sid
  if i < 0x800 then .fail .accv 0 0
  else if isCtrl sid then
    match (s.core gid).icache.find? (fun l => l.asid == (s.ctrlSpace (gid - 4096)).1 && l.va == s.ctrlBundleVa gid i) with
    | some l => .bundle l.bundle.toNat
    | none => match s.ctrlFetch gid i with
      | .fail c va l => .fail c va l
      | _ => .miss i
  else match (s.core gid).cs.find? (fun l => l.1 == i / 8) with
    | some l => .bundle (nth (0 : BitVec 512) l.2 (i % 8)).toNat
    | none => .miss (i / 8)

/-- The bundle that the group scan sees at an index: the cached copy, or the store's own (R58). -/
def State.peekBundle (s : State) (sid i : Nat) : Nat :=
  match s.fetch sid i with
  | .bundle b => b
  | _ =>
    if isCtrl sid then (match s.ctrlFetch (gidOf sid) i with
      | .bundle b => b
      | _ => 0)
    else (s.storeBundle (gidOf sid / 8) i).toNat

/-! Decode traps. -/

/-- The classes of vector operation that a V slot excludes (Table 6-5, R160). -/
def vSlotBad (k : Slot) (i : Instr) : Bool :=
  match k, i with
  | .v1, .vtopk _ => true
  | .v1, .conft _ => true
  | .v0, .vexp _ => true
  | .v0, .vlog _ => true
  | .v0, .vrcp _ => true
  | .v0, .vrsq _ => true
  | .v0, .vtanh _ => true
  | _, _ => false

/-- What a control core does not execute (R15, R253). -/
def ctrlBad (k : Slot) (i : Instr) : Bool :=
  match k, i with
  | .v0, _ => true
  | .v1, _ => true
  | .m, _ => true
  | .n, _ => true
  | _, .bcast _ => true
  | _, .latch _ => true
  | _, .spawnNb _ _ _ => true
  | _, .spawnB _ _ _ => true
  | _, _ => false

/-- The first slot that raises ILLSLOT (R53). -/
def illSlot (ctrl : Bool) (ops : List (Slot × Instr)) : Option Nat :=
  (ops.find? (fun o => vSlotBad o.1 o.2 || (ctrl && ctrlBad o.1 o.2))).map (fun o => o.1.index)

/-- Whether two lists of resources meet. -/
def meets (a b : List Res) : Bool := a.any (fun x => b.contains x)

/-- Whether a strand's bundle lies in the body of an active level of its call depth at or after End − k (R83, R374). -/
def Strand.nearEnd (t : Strand) (k : Nat) : Bool :=
  t.nest.any (fun e => e.2.active && e.2.depth == t.depth && decide (e.2.start ≤ t.mpc) && decide (e.2.stop ≤ t.mpc + k) &&
    decide (t.mpc ≤ e.2.stop))

/-- Whether a strand's bundle is a delay slot of a pending transfer (R65). -/
def Strand.inDelay (t : Strand) : Bool :=
  match t.redirect with
  | some r => decide (t.vcc < r.due)
  | none => false

/-- Whether a slot takes part in a conflict of R56, R58, R64, R65, R83 or R374. -/
def slotIlldep (t : Strand) (ops : List (Slot × Instr)) (o : Slot × Instr) : Bool :=
  let u := usesOf t o.2
  ops.any (fun x => x.1 != o.1 && meets (usesOf t x.2).writes u.writes) ||
  (!t.grp.fresh && (meets u.reads t.grp.writes || meets u.writes t.grp.writes ||
    (u.cons.filter (fun q => q != 0)).any (fun q => t.grp.prods.contains q) || u.wait ||
    (u.special && (match t.grp.sfAt with
      | some n => decide (t.grp.count - n < 4)
      | none => false)))) ||
  (t.inDelay && (u.transfer || u.loop)) ||
  (u.transfer && (match o.2 with
    | .ret _ => if t.depth = 0 then t.nearEnd 2 else t.nearEnd 3
    | _ => t.nearEnd 3))

/-- The slot that ILLDEP names, 15 for the length of a group and for a YIELD that splits an iteration or a transfer (R57, R87, R340,
R374). -/
def illDep (t : Strand) (bundle : Nat) (ops : List (Slot × Instr)) : Option Nat :=
  match ops.find? (slotIlldep t ops) with
  | some o => some o.1.index
  | none =>
    if !t.grp.fresh && decide (16 ≤ t.grp.count) then some 15
    else if bundleYield bundle && (t.inDelay || t.nest.any (fun e => e.2.active && e.2.depth == t.depth && e.2.stop == t.mpc)) then
      some 15
    else none

/-- The decode trap of a bundle, if any (R53, R340): class and slot; else its operations. A held bundle of which slots have performed
has passed the dependence checks, and is not checked against its own redirect (R86). -/
def decodeTrap (ctrl : Bool) (t : Strand) (bundle perf : Nat) : Option (TrapClass × Nat) × List (Slot × Instr) :=
  match decodeBundle bundle with
  | .illenc k => (some (.illenc, k), [])
  | .ok ops =>
    match illSlot ctrl ops with
    | some k => (some (.illslot, k), ops)
    | none =>
      match (if perf = 0 then illDep t bundle ops else none) with
      | some k => (some (.illdep, k), ops)
      | none => (none, ops)

/-! The group and its tests (R58, Table 3-2). -/

/-- The number of bundles that the group can still hold after one: none after a YIELD, an unguarded LOOP or a final RET, three after
a transfer that is certain (R38, R39, R55, R65). -/
def groupRoom (t : Strand) (bundle : Nat) (ops : List (Slot × Instr)) : Option Nat :=
  if bundleYield bundle || bundleStop bundle then some 0
  else
    let sure (G : Guard) : Bool := G.p.toNat == 0 && !G.neg
    (ops.filterMap (fun o => match o.2 with
      | .br _ => some 3
      | .brc G _ => if sure G then some 3 else none
      | .brr G _ => if sure G then some 3 else none
      | .call G _ => if sure G then some 3 else none
      | .callr G _ => if sure G then some 3 else none
      | .ret G => if sure G then some (if t.depth = 0 then 0 else 3) else none
      | .loop G _ _ _ => if sure G then some 0 else none
      | _ => none)).head?

/-- The later bundles of a group along the fall-through path (R55, R58). The scan goes on past a guarded transfer or LOOP, whose outcome
is not known at the group start: the bundles after it count as the group's (log entry 53). -/
def State.groupRest (s : State) (sid : Nat) (t : Strand) : Nat → Nat → Nat → List (List (Slot × Instr))
  | 0, _, _ => []
  | _, 0, _ => []
  | fuel + 1, room + 1, k =>
    let i := (t.mpc + k) % 65536
    let ended := t.nest.any (fun e => e.2.active && e.2.depth == t.depth && e.2.stop == (t.mpc + k - 1) % 65536)
    let redirected := match t.redirect with
      | some r => decide (r.due ≤ t.vcc + k)
      | none => false
    if ended || redirected || decide (i < 0x800) then []
    else
      let b := s.peekBundle sid i
      match decodeBundle b with
      | .illenc _ => [[]]
      | .ok ops =>
        let room' := match groupRoom t b ops with
          | some n => Nat.min n room
          | none => room
        ops :: s.groupRest sid t fuel room' (k + 1)

/-- The group that begins with a bundle. -/
def State.groupOf (s : State) (sid : Nat) (t : Strand) (bundle : Nat) (ops : List (Slot × Instr)) : List (List (Slot × Instr)) :=
  let room := match groupRoom t bundle ops with
    | some n => n
    | none => 15
  ops :: s.groupRest sid t 15 room 1

/-- A strand one step on, as far as the group scan needs it (R58, R60): the registers, predicates and control registers that land by
then, the MTCs of the bundle among them, which decode lets no later bundle of the group contradict (R56). -/
def Strand.ahead (t : Strand) (gid : Nat) (ops : List (Slot × Instr)) : Strand :=
  let put (t : Strand) (v : LandVal) : Strand := match v with
    | .g r v p => t.setReg r v p
    | .p r v => t.setPred r v
    | .creg n v => { t with cr := t.cr.set n v }
    | .fmtr v => { t with fmtr := v }
    | _ => t
  let top := t.latches.foldl (fun m l => Nat.max m l.id) 0 + 1
  let mtc := ops.filterMap (fun o => match o.2 with
    | .mtc G w a num => if t.guard G && !t.pois a.toNat then
        some (⟨top, o.1.index, t.vcc + 2, false, .creg num.toNat (Strand.crKeep num.toNat (sized w (t.src w a.toNat)))⟩ : Latch)
      else none
    | _ => none)
  let t1 := { t with latches := t.latches ++ mtc, vcc := t.vcc + 1 }
  let t2 := (t1.dueList gid t1.vcc).foldl (fun t x => x.2.2.foldl put t) t1
  { t2 with latches := t2.latches.filter (fun l => !l.lands t1.vcc), lb := t2.lb.filter (fun e => !e.lands t1.vcc) }

/-- What the slots of a group's bundles read, write and need, each with the strand as it stands at its bundle (R58, R62). -/
def groupUses (gid : Nat) : Strand → List (List (Slot × Instr)) → List (Strand × List (Slot × Uses))
  | _, [] => []
  | t, ops :: rest => (t, ops.map (fun o => (o.1, usesOf t o.2))) :: groupUses gid (t.ahead gid ops) rest

/-- The AM rows that a load from the AM window reads, if its address lies there (R165). -/
def accessRows (t : Strand) (u : Uses) : List Nat :=
  match u.access with
  | some x =>
    let a := effAddr (t.val x.base) x.bits x.off
    if x.am ∧ 0x8000000 ≤ a ∧ a < 0x8100000 then span ((a - 0x8000000) / 512) ((a - 0x8000000 + x.bytes - 1) / 512 - (a - 0x8000000) / 512 + 1)
    else []
  | none => []

/-- The landing-buffer entries that an operation takes (R67, R236): an LDX or an operation with an entry of its own takes one, and a load
one when it reads the AM window or translated space, or when it may be held: by what is queued, or by an ordering event or an atomic
that stands before it in its group (`after`). -/
def landCount (t : Strand) (sid : Nat) (after : Bool) (u : Uses) : Nat :=
  if u.landings ≠ 0 then u.landings
  else match u.access with
  | some x =>
    let a := effAddr (t.val x.base) x.bits x.off
    let va := peerVa sid a
    let near (lo n : Nat) : Bool := decide (va < lo + n) && decide (lo < va + x.bytes)
    if (0x8000000 ≤ a ∧ a < 0x8100000) ∨ 2 ^ 32 ≤ a ∨ after ∨ t.heldRead va x.bytes ∨
      t.wq.any (fun i => match i.what with
        | .write lo ps _ => near lo (piecesSize ps)
        | _ => false) ∨
      t.lb.any (fun e => match e.req with
        | .held b _ => !e.arrived && near (peerVa sid b.addr) b.size
        | _ => false) then 1 else 0
  | none => 0

/-- The AM rows that an operation's V, L and W accesses read or write (R141). -/
def rowsOf (t : Strand) (u : Uses) : List Nat :=
  (u.reads ++ u.writes).filterMap (fun r => match r with
    | .row n => some n
    | _ => none) ++ accessRows t u

/-- The landing test over a group of `n` bundles (R58, R68). -/
def Strand.landed (t : Strand) (n : Nat) : Bool :=
  t.lb.all (fun e => e.arrived || e.frozen || decide (t.vcc + n ≤ e.due))

/-- Whether an operation may leave an ordering event or a queued atomic behind that holds later loads (Table 9-2, R232). -/
def mayHold (i : Instr) : Bool :=
  match i with
  | .fence sc _ => sc.toNat != 0
  | .acqh _ _ => true
  | .lda o => o.scope.toNat != 0
  | .unlock _ _ => true
  | .aadd _ | .amin _ | .amax _ | .aand _ | .aor _ | .axor _ | .axch _ | .acas _ | .radd _ | .rmax _ => true
  | _ => false

/-- The landing-buffer entries that a group takes (R58, R67, R236). -/
def groupLandings (sid : Nat) : Bool → List (Strand × List (Slot × Uses)) → List (List (Slot × Instr)) → Nat
  | after, x :: xs, ops :: rest =>
    (x.2.foldl (fun n o => n + landCount x.1 sid after o.2) 0) + groupLandings sid (after || ops.any (fun o => mayHold o.2)) xs rest
  | _, _, _ => 0

/-- The entries of a queue of the core that an operation takes: queue 0 is the matrix engine's, 1 the MGVs', 2 the communication unit's,
and 3 to 6 are the channels of the copy engine (R145, R157, R199, R214). -/
def queueNeed (key : Nat) (i : Instr) (u : Uses) : Nat :=
  let mgv := match i with
    | .mgv _ => true
    | _ => false
  if key = 0 then (if mgv then 0 else u.matrix)
  else if key = 1 then (if mgv then u.matrix else 0)
  else if key = 2 then u.comm
  else if u.channel = some (key - 3) then 1 else 0

/-- The entries of a queue that the bundles of a group take. -/
def groupNeed (t : Strand) (key : Nat) (g : List (List (Slot × Instr))) : Nat :=
  g.foldl (fun n ops => ops.foldl (fun n o => n + queueNeed key o.2 (usesOf t o.2)) n) 0

/-- The entries of a queue that the open groups of a core's other strands will still take: a group that has begun goes on without a
further test (R58). -/
def State.claimed (s : State) (sid key : Nat) : Nat :=
  ((span (8 * gidOf sid) 8).filter (fun m => m != sid)).foldl (fun n m =>
    let t := s.strand m
    if t.grp.fresh || t.trap.isSome then n else n + t.grp.claims.get 0 key) 0

/-- Whether a queue has room for a group beside what is claimed (R58, Engine queues). -/
def State.queueRoom (s : State) (sid : Nat) (t : Strand) (g : List (List (Slot × Instr))) (key used size : Nat) : Bool :=
  let n := groupNeed t key g
  n == 0 || decide (used + n + s.claimed sid key ≤ size)

/-- The tests of Table 3-2 but the landing and the wait tests, and of a fixed-step transfer that a fence of the strand holds (R239, log
entry 54). -/
def State.groupFree (s : State) (sid : Nat) (t : Strand) (g : List (List (Slot × Instr))) : Bool :=
  let c := s.core (gidOf sid)
  let us := groupUses (gidOf sid) t g
  let all := us.foldr (fun x acc => x.2.map (fun o => (x.1, o.2)) ++ acc) []
  all.all (fun o => (rowsOf o.1 o.2).all (fun r => c.busy.get 0 (r / 32) == 0)) &&
  decide (groupLandings sid false us g ≤ t.landFree) &&
  s.queueRoom sid t g 0 c.mq.length 16 && s.queueRoom sid t g 1 c.gq.length 8 && s.queueRoom sid t g 2 c.nq.length 16 &&
  (span 0 4).all (fun ch => s.queueRoom sid t g (3 + ch) (c.chans.get [] ch).length 16) &&
  all.all (fun o => o.2.fixed.all (fun q => t.consumable q) && (o.2.fixed.isEmpty || !t.heldEngine s.nextId)) &&
  (us.zip (span 0 us.length)).all (fun x => x.1.2.all (fun o => !o.2.special || decide (c.sfu ≤ s.now + x.2)))

/-! The window test (R94, R138). -/

/-- The rows of an M-slot operation's tile that the window test covers (R138). -/
def tileRows (t : Strand) (i : Instr) (tile gn : Nat) : List Nat :=
  let b := (t.vwb + tile) % 2048
  let acc := t.fmtr.toNat / 256 % 4
  let v := (t.val gn).toNat
  let n := match i with
    | .mgv _ => v % 1024
    | _ => v
  let valid := (match i with
    | .mgv _ => fieldN v 10 6 == 0 && fieldN v 21 43 == 0
    | .mrot _ => v % 32 == 0
    | _ => true) && n % 16 == 0 && decide (16 ≤ n) && decide (n ≤ 512)
  if valid && !t.pois gn && acc != 3 then
    (span b (32 * ceilDiv n (if acc = 2 then 64 else 128)))
  else [b]

/-- The first slot whose covered rows fail the window test (R94, R314). -/
def windowFail (t : Strand) (ops : List (Slot × Instr)) : Option Nat :=
  (ops.find? (fun o =>
    let u := usesOf t o.2
    let on := match u.guard with
      | some G => t.guard G
      | none => true
    on && !((u.reads ++ u.writes).all (fun r => match r with
        | .row n => t.inWindow n
        | _ => true) &&
      (match u.tile with
        | some (tile, gn) => (tileRows t o.2 tile gn).all (fun n => t.inWindow n)
        | none => true)))).map (fun o => o.1.index)

/-! What closes a bundle. -/

/-- The levels whose iteration ends with the bundle at End, highest first: the level after, the register updates, and where the
next bundle lies (R82). -/
def endLevels (t : Strand) : List Nat → Option (Strand × Nat)
  | [] => none
  | l :: ls =>
    let n := t.level l
    if n.active && n.depth == t.depth && n.stop == t.mpc then
      let incs : List NestUpd := (n.atts.filter (fun a => a.kind == 0)).map (fun a => ⟨a.addr, false, a.value⟩)
      if n.counter + 1 < n.trip then
        some ({ t with nest := t.nest.set l { n with counter := n.counter + 1 }, nestUpd := t.nestUpd ++ incs }, n.start)
      else
        let rews : List NestUpd := ((n.atts.zip n.saved).filter (fun a => a.1.kind == 2)).map (fun a => ⟨a.1.addr, true, a.2⟩)
        let t1 := { t with nest := t.nest.set l { n with active := false, counter := 0 }, nestUpd := t.nestUpd ++ incs ++ rews }
        match endLevels t1 ls with
        | some r => some r
        | none => some (t1, (n.stop + 1) % 65536)
    else endLevels t ls

/-- Whether a level is active within another (R83): higher in number, with its body within the other's at the same call depth, or of a
deeper call, which a subroutine of the body has left active (log entry 53). -/
def NestLevel.within (low high : NestLevel) : Bool :=
  (high.depth == low.depth && decide (low.start ≤ high.start) && decide (high.stop ≤ low.stop)) || decide (low.depth < high.depth)

/-- The levels whose body a taken jump leaves end, and every higher level active within one of them (R83). -/
def leaveLevels (t : Strand) (target : Nat) : Strand :=
  let left (n : NestLevel) : Bool :=
    n.active && n.depth == t.depth && !(decide (n.start ≤ target) && decide (target ≤ n.stop))
  let ends (l : Nat) (n : NestLevel) : Bool :=
    left n || t.nest.any (fun e => decide (e.1 < l) && left e.2 && NestLevel.within e.2 n)
  { t with nest := t.nest.map (fun e => if ends e.1 e.2 then (e.1, { e.2 with active := false, counter := 0 }) else e) }

/-- SYSRET's return (R316): VCC and the redirect are what was held; the frozen results land at their own steps. -/
def Strand.sysReturn (t : Strand) (h : Handler) : Strand :=
  let held := t.cwn 0x010 == h.hmpc
  { t with
    returning := false
    handler := none
    vcc := h.hvcc
    base := if held then h.base else t.base
    mpc := t.cwn 0x010
    replay := if held then h.replay else none
    redirect := if held then h.redirect else none
    latches := t.latches.map (fun l => if l.frozen then { l with frozen := false } else { l with due := h.hvcc })
    lb := t.lb.map (fun e => { e with frozen := false })
    nestUpd := h.nestUpd
    wait := .none
    pass := .none
    grp := Group.new }

/-- Whether the next bundle is the first of a nest level's first iteration (R55, R81): the level's LOOP has performed in this bundle, or
in this bundle as it was held by a trap. -/
def Strand.entersBody (t : Strand) : Bool :=
  t.handler.isNone && t.nest.any (fun e => e.2.active && e.2.depth == t.depth && e.2.start == (t.mpc + 1) % 65536)

/-- The next bundle of a strand that has issued one (R65, R82, R374), one step later (R59). -/
def Strand.nextBundle (t : Strand) (stop : Bool) : Strand :=
  let v := t.vcc + 1
  let base := { t with vcc := v, replay := none, pass := .none, wait := .none, timer := none }
  let opens := base.grp.fresh || stop || t.entersBody
  match t.redirect with
  | some r =>
    if r.due ≤ v then
      let t1 := if r.leave then leaveLevels base r.target else base
      { t1 with
        redirect := none
        mpc := r.target
        depth := r.depth
        rstack := match r.push with
          | some i => i :: t1.rstack
          | none => if r.depth < t1.depth then t1.rstack.drop 1 else t1.rstack
        grp := Group.new }
    else { base with mpc := (t.mpc + 1) % 65536, grp := { base.grp with fresh := opens } }
  | none =>
    match (if t.handler.isSome then none else endLevels base [5, 4, 3, 2, 1, 0]) with
    | some (t1, m) => { t1 with mpc := m, grp := Group.new }
    | none => { base with mpc := (t.mpc + 1) % 65536, grp := { base.grp with fresh := opens } }

namespace State

/-- The dispatch registers of a microprogram: g1 to g21 and MPC (R34). -/
def loadMicro (s : State) (k : Task) (sid member : Nat) : State :=
  let m := microOf k
  let start := s.natAt (ucodeBase s.module k.cluster + 32 * m.entry) 2
  let put (t : Strand) (r v : Nat) : Strand := t.setReg r (BitVec.ofNat 64 v) false
  s.updStrand sid (fun t =>
    let t1 := (span 0 6).foldl (fun t i => put t (1 + i) (nth 0 m.origin i)) t
    let t2 := (span 0 6).foldl (fun t i => put t (7 + i) (nth 1 m.extent i)) t1
    let t3 := put (put (put t2 13 k.ordinal) 14 member) 15 k.ctx
    let t4 := (span 0 6).foldl (fun t i => put t (16 + i) (nth (0 : Word) m.descs i).toNat) t3
    { t4 with mpc := start })

/-- An engine failure that no group start remains to take (R556): the gang freezes with the trap of its first failing member. -/
def freezeLast (s : State) (sid : Nat) : Option State :=
  match (s.gang sid).find? (fun m => !(s.strand m).fails.isEmpty) with
  | none => none
  | some m =>
    match (s.strand m).fails with
    | [] => none
    | f :: fs =>
      let s1 := s.updStrand m (fun t => { t with fails := fs })
      let s2 := s1.takeTrap m f.cls 0 15 0x3FF ⟨f.fva, f.kind, f.level⟩ false
      some (if s1.trapKills m then s2 else s2.updTask (s.strand m).task (fun k => { k with status := .frozenEnd }))

/-- The end of a microprogram (R39): the group's next one begins, or the task waits to retire, with what is still in flight landed: a
LATCH of the last steps writes all the same (R213, log entry 56). -/
def endMicro (s : State) (sid : Nat) : State :=
  let id := (s.strand sid).task
  let gang := s.gang sid
  match s.tasks.get? id with
  | none => s.updStrand sid (fun t => { t with ending := false, wait := .idleEnd })
  | some k =>
    if k.at_ + 1 < k.micros.length then
      let k1 := { k with at_ := k.at_ + 1 }
      let s1 := s.updTask id (fun _ => k1)
      (gang.zip (span 0 gang.length)).foldl (fun s x =>
        (s.updStrand x.1 (fun t => { t with
          ending := false, wait := .none, pass := .none, replay := none, redirect := none, vcc := t.vcc + 1
          grp := Group.new })).loadMicro k1 x.1 (s.strand x.1).member) s1
    else
      let s0 := gang.foldl (fun s m => s.deliverBy m ((s.strand m).vcc + 2 ^ 16)) s
      let s1 := gang.foldl (fun s m => s.updStrand m (fun t => { t with ending := false, wait := .idleEnd, replay := none })) s0
      let s2 := s1.updTask id (fun k => { k with status := .ended })
      match s2.freezeLast sid with
      | some s3 => s3
      | none => s2

/-- A yield (R38): the continuation returns to the sequencer's queue; its strands and their state stay bound. -/
def yieldGang (s : State) (sid : Nat) : State :=
  (s.updTask (s.strand sid).task (fun k => { k with status := .yielded, age := 0, nextAge := s.now + 4096, readyAt := s.now }))

/-- One strand's part of closing its bundle: the strand after, when its bundle has issued whole (R38, R39, R59, R75). -/
def closeOne (s : State) (sid : Nat) : State :=
  let t := s.strand sid
  let stop := bundleStop t.bundle
  if t.task = 0 && (!isCtrl sid || t.mpc = 0) then s
  else if t.returning then
    match t.handler with
    | some h => s.setStrand sid (t.sysReturn h)
    | none => s.setStrand sid { t with returning := false }
  else if t.ending then s.setStrand sid { t with wait := .idleEnd }
  else if bundleYield t.bundle && !isCtrl sid then
    if t.handler.isSome then ({ s with cur := sid } : State).raiseFree
    else s.setStrand sid { t.nextBundle stop with wait := .idleYield, grp := Group.new }
  else s.setStrand sid (t.nextBundle stop)

/-- Whether a kill waits for a strand of a gang (R310). -/
def doomedGang (s : State) (sid : Nat) : Bool := (s.gang sid).any (fun m => s.doomedStrand m)

/-- Whether a gang is inside a bundle for a translation (R179). -/
def pausedGang (s : State) (sid : Nat) : Bool := (s.gang sid).any (fun m => !(s.strand m).xlat.isEmpty)

/-- The members of a gang that are paused for a translation made to wait for it (R179). -/
def pauseGang (s : State) (sid : Nat) : State :=
  (s.gang sid).foldl (fun s m => if (s.strand m).xlat.isEmpty then s else s.updStrand m (fun t => { t with wait := .xlat })) s

/-- The records and reports of a gang's traps made that have waited for the end of the bundle (R314). -/
def postTraps (s : State) (sid : Nat) : State :=
  (s.gang sid).foldl (fun s m => match (s.strand m).trap with
    | some tr => if tr.posted then s else s.postTrap m
    | none => s) s

/-- What closes the bundles of a gang (R59, R71, R310, R314): nothing while one is paused; a kill that has waited comes, and a trap is
reported; otherwise every member moves on, and the gang yields or ends when all of it has. -/
def closeGang (s : State) (sid : Nat) (issued : List Nat) : State :=
  if s.pausedGang sid then s.pauseGang sid
  else if s.doomedGang sid then s.reap
  else if s.frozen sid then s.postTraps sid
  else
    let s1 := issued.foldl (fun s m => s.closeOne m) s
    let gang := s1.gang sid
    if s1.doomedGang sid then s1.reap
    else if gang.all (fun m => (s1.strand m).ending) then s1.endMicro sid
    else
      let s2 := gang.foldl (fun s m =>
        if issued.contains m && !(s1.strand m).ending then s else s.updStrand m (fun t => { t with vcc := t.vcc + 1 })) s1
      if gang.all (fun m => (s2.strand m).wait == .idleYield) then s2.yieldGang sid else s2

end State

/-- EMPTY_BUNDLE (R53, R59): the bundle of the strand that acts issues with no slot, and closes. -/
def execEmptyBundle (s : State) : Result := .next (s.closeGang s.cur [s.cur])

end Sys2Proof.Machine
end

