-- ==== Sys2Proof/Machine/Engine.lean ====
section
/-! DEFINITION. What the engines of a core share (R66, R92, R201, R208, R239): the tests of an operation at its issue, what holds its
start, and its completion, failed, cut short or whole. -/

namespace Sys2Proof.Machine

open Sys2Proof

/-- A trap with no address. -/
def noInfo : FaultInfo := ⟨0, 0, 0⟩

/-- Whether a counter that an operation produces into would overflow (R92). -/
def Strand.overflows (t : Strand) (q : Nat) : Bool := q != 0 && decide (255 ≤ (t.tok q).outst)

/-- The cell of a scratchpad window address of a core (Table 7-1). -/
def windowCell (gid va : Nat) : Nat :=
  if va < 0x400000 then spadBase gid + va
  else spadBase (gid / 8 * 8 + (va - 0x1000000) / 0x400000) + (va - 0x1000000) % 0x400000

/-- The AM rows that a landing-buffer entry writes. -/
def LandEntry.rows (e : LandEntry) : List Nat :=
  (e.vals.filterMap (fun v => match v with
    | .row r _ _ => some r
    | _ => none)) ++ (match e.req with
    | .held a _ => (match a.op with
      | .loadRow r _ _ => [r]
      | _ => [])
    | _ => [])

namespace State

/-- Tests in their order: the first that fails is the trap of the slot (R53, R138). -/
def tests (s : State) : List (Bool × TrapClass × FaultInfo) → (State → State) → State
  | [], f => f s
  | (bad, cls, info) :: rest, f => if bad then s.raiseAt cls info else s.tests rest f

/-- Whether `n` bytes at `a` lie wholly in the own scratchpad or in one peer window (R139). -/
def inScratch (s : State) (sid a n : Nat) : Bool :=
  match s.place sid a n with
  | .own _ => true
  | .peer _ => true
  | _ => false

/-- A failure at an address, with the kind of the access (R148, R204, Table 12-7). -/
def failAt (cls : TrapClass) (va : Nat) (k : Kind) (level : Nat) : EngineFail := ⟨cls, va, k.code, level⟩

/-- A failure with no address. -/
def failFor (cls : TrapClass) : EngineFail := ⟨cls, 0, 0, 0⟩

/-- Consume of an operation's counters, while its strand still runs its task (R208). -/
def consumes (s : State) (sid task : Nat) (cons : List Nat) : Bool :=
  (s.strand sid).task != task || cons.all (fun q => (s.strand sid).consumable q)

/-- Whether nothing of the strand's own earlier steps holds the start of an operation issued at place `id` of its program order at a VCC: a fence (R239), a
store to the own scratchpad not yet performed (R140), or a late landing into a row that it reads (R68). -/
def released (s : State) (sid task id vcc : Nat) (reads : Nat → Bool) : Bool :=
  let t := s.strand sid
  let lo := spadBase (gidOf sid)
  t.task != task ||
  (!t.heldEngine id &&
   t.wq.all (fun i => match i.what with
    | .write _ ps _ => decide (id < i.id) || ps.all (fun p => decide (p.1 < lo) || decide (lo + 0x400000 ≤ p.1))
    | _ => true) &&
   t.lb.all (fun e => decide (vcc ≤ e.due) || e.rows.all (fun r => !reads r)))

/-- An engine failure that comes after the last microprogram has ended freezes the task at once (R556). -/
def takeLate (s : State) (sid task : Nat) : State :=
  if (s.strand sid).task = task ∧ (s.task task).status = .ended then
    match s.freezeLast sid with
    | some s1 => s1
    | none => s
  else s

/-- The completion of an engine operation (R66, R148, R204, Table 12-4): failed, cut short by a kill, or whole. -/
def finishOp (s : State) (p : Stamp) (kind sid task prod index : Nat) (fail : Option EngineFail) (cut : Bool) : State :=
  match fail with
  | some f =>
    (((s.completeTok sid task prod true).addFail sid task f).postReport (p.report kind f.cls f.fva prod index)).takeLate sid task
  | none =>
    if cut then (s.completeTok sid task prod true).postReport (p.report kind .cancelled 0 prod index)
    else s.completeTok sid task prod false

end State

end Sys2Proof.Machine
end

