-- ==== Sys2Proof/Machine/Pool.lean ====
section
/-! DEFINITION. The operator entry table (R27, R28), the pending-launch pool (R249), and the child that a SPAWN places in it (R253 to
R255, R259). -/

namespace Sys2Proof.Machine

open Sys2Proof

/-- An operator entry (Table 2-3), and whether it breaks R28. -/
structure Entry where
  start   : Nat
  width   : Nat
  outMask : Nat
  inMask  : Nat
  amRows  : Nat
  tiles   : List Nat
  bad     : Bool
deriving DecidableEq, Repr

/-- An entry from its 256 bits (Table 2-3, R28). -/
def entryOf (v : Nat) : Entry where
  start := v % 65536
  width := fieldN v 16 3
  outMask := fieldN v 20 6
  inMask := fieldN v 26 6
  amRows := fieldN v 36 12
  tiles := (span 0 6).map (fun i => fieldN v (64 + 32 * i) 32)
  bad := !bitAt v 19 || decide (v % 65536 < 0x800) || decide (2048 < fieldN v 36 12) || fieldN v 36 12 % 32 != 0 ||
    fieldN v 32 4 != 0 || fieldN v 48 16 != 0

namespace State

/-- The operator entry that a cluster's microcode store holds (R27). -/
def entryAt (s : State) (cluster e : Nat) : Entry := entryOf (s.natAt (ucodeBase s.module cluster + 32 * e) 32)

/-- The entries of a cluster's pool in use: queued tasks, and entries held for a SPAWN.b or a parked parent (R249, R254). -/
def poolUsed (s : State) (cl : Nat) : Nat :=
  s.tasks.foldl (fun n k => if k.2.cluster = cl then n + (if k.2.status = .pool then 1 else 0) + k.2.hold.length else n) 0

/-- Whether a cluster's pool has no free entry (R249). -/
def poolFull (s : State) (cl : Nat) : Bool := decide (4096 ≤ s.poolUsed cl)

/-- Whether a context's termination is detected by weight throwing (R259, R262). -/
def weighted (s : State) (c : Nat) : Bool := bitAt (s.devReg 0x208) c

/-- Whether a parent has to fetch weight before it can spawn once more, beside what its members are about to spawn (R259). -/
def needsWeight (s : State) (k : Task) : Bool := s.weighted k.ctx && decide (k.weight / 2 ^ k.hold.length ≤ 1)

/-- A task put into the state: its count in the scope's LIVE rises (R306). -/
def addTask (s : State) (k : Task) : State := ({ s with tasks := s.tasks.set k.id k } : State).scopeBind k.home

/-- The child of a SPAWN (R255): `word` is the spawn word and `arg` the argument. -/
def spawnChild (s : State) (word arg : Word) : State :=
  let t := s.me
  let k := s.task t.task
  let e := word.toNat % 4096
  let entry := s.entryAt (clusterOf s.cur) e
  let n := s.newId
  let m : Micro := ⟨(microOf k).recIdx, e, [arg.toNat, 0, 0, 0, 0, 0], [1, 1, 1, 1, 1, 1], [], (microOf k).spans, (microOf k).dims⟩
  let half := if s.weighted k.ctx then k.weight / 2 else 0
  let child : Task := { Task.empty with
    id := n.1
    kind := .child
    status := .pool
    ctx := k.ctx
    record := k.record
    cluster := clusterOf s.cur
    micros := [m]
    ordinal := (t.val 13).toNat
    width := entry.width + 1
    amRows := entry.amRows
    home := t.scopeId
    scopeId := t.scopeId
    prio := fieldN word.toNat 12 4
    steal := bitAt word.toNat 16
    args := (13, t.val 13) :: (15, t.val 15) :: (span 16 6).map (fun r => (r, t.val r))
    crs := [(0x005, t.cw 0x005), (0x009, t.cw 0x009)]
    boxes := []
    weight := half
    nextAge := s.now + 4096
    readyAt := s.now
    after := some (s.cur, s.posId) }
  let s1 := n.2.updTask k.id (fun k => { k with weight := k.weight - half, hold := k.hold.erase s.cur })
  let s2 := s1.addTask child
  match s2.records.get? k.record with
  | some r => { s2 with records := s2.records.set k.record { r with total := r.total + 1, spawned := true } }
  | none => s2

/-- Whether a child may be placed now: an entry is held for the strand, or the pool and the parent's weight have room (R254, R259). -/
def canSpawn (s : State) (sid : Nat) : Bool :=
  let k := s.taskOf sid
  k.hold.contains sid || (!s.poolFull (clusterOf sid) && !s.needsWeight k)

end State

end Sys2Proof.Machine
end

