-- ==== Sys2Proof/Machine/Sync.lean ====
section
/-! DEFINITION. The Y slot: barriers, waits, ordering, locks, spawning, cancel scopes and token counters (R210, R234, R235, R253,
R254, R264, R265, R268, R307, R308), and the group-start test of the wait instructions (R58). -/

namespace Sys2Proof.Machine

open Sys2Proof

namespace State

/-- A wait instruction, which handler mode forbids (R316, log entry 11). -/
def notInHandler (s : State) (f : State → State) : State := if s.me.handler.isSome then s.raiseFree else f s

end State

/-- What a request for a lock gives (R265): a trap, the old word with the grant or the refusal, or a wait. -/
inductive LockAns where
  | trap (s : State)
  | grant (old : Nat) (s : State)
  | refuse (old : Nat)
  | wait (s : State)

namespace State

/-- A LOCK's request at the lock unit (R264, R265): the address register is read at this step. It waits behind what the strand has
queued that orders or meets it (R232). -/
def askLock (s : State) (a : Nat) (tryForm : Bool) : LockAns :=
  let va := (s.me.val a).toNat
  if s.me.pois a then .trap (s.raise .poison)
  else if va % 8 ≠ 0 then .trap (s.raiseVa .align va .atomic 0)
  else
    let r := s.reachNow va 8 (.unlock 0)
    match r.2 with
    | .error (c, fva, l) => .trap (r.1.raiseVa c fva .atomic l)
    | .ok [] => .wait s
    | .ok (p :: _) =>
      let w := s.natAt p.1 8
      let id := s.strandName s.cur
      let u := s.lockUnit p.1
      if s.me.heldRead (peerVa s.cur va) 8 || s.me.behindRead [p] true then .wait (s.updMe (fun t => { t with wait := .stall }))
      else if bitAt w 63 ∧ w % 2 ^ 25 = id then .trap (s.raise .lockself)
      else if !bitAt w 63 && !u.handing then
        .grant w ((r.1.writeNat p.1 8 (2 ^ 63 + (if bitAt w 62 then 2 ^ 62 else 0) + id)).setLock p.1
          { u with holder := some (s.cur, s.me.task), giver := none } |>.inheritAll)
      else if tryForm then (if bitAt w 63 then .refuse w else .wait s)
      else if u.waiters.any (fun x => x.sid == s.cur) then .wait (s.updMe (fun t => { t with wait := .lock p.1 }))
      else
        let n := r.1.newId
        .wait ((n.2.setLock p.1 { u with waiters := u.waiters ++ [⟨s.cur, n.1⟩] }).updMe (fun t => { t with wait := .lock p.1 })
          |>.inheritAll)

/-- A LOCK decided: the old word, and for the try form whether it was granted, land at the next step (R265). -/
def landLock (s : State) (b : Nat) (pd : Option Nat) (old : Nat) (granted : Bool) : State :=
  let s1 := s.land 1 (.g b (BitVec.ofNat 64 old) false)
  match pd with
  | some p => s1.land 1 (.p p granted)
  | none => s1

/-- A LOCK at its issue: what its group start decided, or the request itself. -/
def runLock (s : State) (a b : BitVec 6) (pd : Option Nat) : State :=
  s.notInHandler (fun s =>
    match s.me.pass with
    | .lock old granted => s.landLock b.toNat pd old granted
    | _ =>
      match s.askLock a.toNat pd.isSome with
      | .trap s1 => s1
      | .grant old s1 => s1.landLock b.toNat pd old true
      | .refuse old => s.landLock b.toNat pd old false
      | .wait _ => s)

/-! Word waits and sleeping (R268). -/

/-- Whether a WAITW's read of a word waits for what its strand has queued: it is an acquire (R230, R232, R268). -/
def wordHeld (s : State) (sid va a : Nat) : Bool :=
  (s.strand sid).heldRead (peerVa sid va) 8 || (s.strand sid).behindRead [(a, 8)] true

/-- The word at a place, as a WAITW reads it; at a device register it is the register's value (R323). -/
def waitedWord (s : State) (a : Nat) : Nat := leNat (s.readPieces [(a, 8)])

/-- What a WAITW reads: where its word lies, and the word; or a trap to take. -/
def readWord (s : State) (a b : Nat) : Except State (Nat × Nat) :=
  let va := (s.me.val a).toNat
  if s.me.pois a || s.me.pois b then .error (s.raise .poison)
  else if va % 8 ≠ 0 then .error (s.raiseVa .align va .load 0)
  else
    let r := s.reachNow va 8 (.load 0 ⟨8, false⟩ 0 false true)
    match r.2 with
    | .error (c, fva, l) => .error (r.1.raiseVa c fva .load l)
    | .ok ps => .ok ((ps.map (·.1)).headD 0, r.1.waitedWord ((ps.map (·.1)).headD 0))

/-- The cycles that a SLEEP waits, or the trap it takes (R503). -/
def sleepCount (s : State) (a : BitVec 6) (imm : BitVec 11) : Except State Nat :=
  if a.toNat = 0 then .ok imm.toNat
  else if s.me.pois a.toNat then .error (s.raise .poison)
  else if 2 ^ 32 ≤ (s.me.val a.toNat).toNat then .error (s.raise .illshape)
  else .ok (s.me.val a.toNat).toNat

/-! Spawning (R253, R254). -/

/-- The traps of a SPAWN at its issue (R253). -/
def spawnTrap (s : State) (a b : Nat) : Option TrapClass :=
  if s.me.pois a || s.me.pois b then some .poison
  else if 2 ^ 17 ≤ (s.me.val a).toNat then some .illshape
  else if (s.entryAt (clusterOf s.cur) ((s.me.val a).toNat % 4096)).bad then some .illenc
  else none

/-- Whether a strand's current scope is cancelled, as its cluster sees it (R254, R306, R309). -/
def spawnDead (s : State) (sid : Nat) : Bool := s.deadAt (clusterOf sid) (s.strand sid).scopeId

/-- A strand asks to park until an entry of the pool is free (R254). -/
def askPark (s : State) : State := s.updTask s.me.task (fun k => { k with saving := some .parked, asker := s.cur })

/-- The entry held for the acting strand let go. -/
def dropHold (s : State) : State := s.updTask s.me.task (fun k => { k with hold := k.hold.erase s.cur })

/-- SPAWN's effect (R254); a SPAWN.b reaches here only once its group start has held an entry for it. -/
def runSpawn (s : State) (pd a b : Nat) (blocking : Bool) : State :=
  match s.spawnTrap a b with
  | some c => s.dropHold.raise c
  | none =>
    if s.spawnDead s.cur then s.dropHold.land 1 (.p pd false)
    else if s.canSpawn s.cur then (s.spawnChild (s.me.val a) (s.me.val b)).land 1 (.p pd true)
    else if blocking then s.askPark
    else s.land 1 (.p pd false)

end State

/-- KNOT (R76 to R78, R437): a member issues it only as it leaves the knot; on a slack strand it waits for nothing. -/
def execKnot (s : State) : Result := .next (s.notInHandler (fun s => s))

/-- WAITQ (R210, R529): its group start has tested the counter. -/
def execWaitq (_q : BitVec 5) (_n : BitVec 8) (s : State) : Result :=
  .next (s.notInHandler (fun s => s))

/-- FENCE (R235, R414): nothing at STRAND scope (R234). -/
def execFence (scope : BitVec 3) (kind : BitVec 2) (s : State) : Result :=
  .next (if scope.toNat = 0 then s
    else s.enqueue (.order (match kind.toNat with
        | 0 => .full
        | 1 => .acq
        | _ => .rel) scope.toNat 0 0))

/-- ACQH and RELH (R235): what they do once the descriptor is read is `reach`'s. -/
def State.handleOrder (s : State) (a : BitVec 6) (scope : BitVec 3) (kind : OrdKind) : State :=
  s.clean [a.toNat] (fun s =>
    let va := (s.me.val a.toNat).toNat
    if va = 0 then s
    else if va % 64 ≠ 0 then s.raiseVa .align va .load 0
    else if va < 2 ^ 32 then s.raiseVa .accv va .load 0
    else s.issueAccess va 64 (.desc kind scope.toNat) false false none)

/-- ACQH (R378). -/
def execAcqh (a : BitVec 6) (scope : BitVec 3) (s : State) : Result := .next (s.handleOrder a scope .acqh)

/-- RELH (R484). -/
def execRelh (a : BitVec 6) (scope : BitVec 3) (s : State) : Result := .next (s.handleOrder a scope .relh)

/-- LOCK (R448): the grant was made at the group start. -/
def execLock (a b : BitVec 6) (_scope : BitVec 3) (s : State) : Result := .next (s.runLock a b none)

/-- LOCK.try (R448). -/
def execLockTry (pd : BitVec 4) (a b : BitVec 6) (_scope : BitVec 3) (s : State) : Result := .next (s.runLock a b (some pd.toNat))

/-- UNLOCK (R265, R517): ACCV unless the strand holds the word; the release and the hand-off come from the write queue. -/
def execUnlock (a : BitVec 6) (scope : BitVec 3) (s : State) : Result :=
  let va := (s.me.val a.toNat).toNat
  .next (s.checked [a.toNat] va 8 .atomic (fun s => s.issueAccess va 8 (.unlock scope.toNat) false false none))

/-- SPAWN.nb (R504). -/
def execSpawnNb (pd : BitVec 4) (a b : BitVec 6) (s : State) : Result := .next (s.runSpawn pd.toNat a.toNat b.toNat false)

/-- SPAWN.b (R504): the pool entry was held at the group start. -/
def execSpawnB (pd : BitVec 4) (a b : BitVec 6) (s : State) : Result :=
  .next (s.notInHandler (fun s => s.runSpawn pd.toNat a.toNat b.toNat true))

/-- The counter of CANCEL would overflow (R92). -/
def Strand.tokFull (t : Strand) (q : Nat) : Bool := q != 0 && decide (255 ≤ (t.tok q).outst)

/-- CANCEL (R308, R399): the traps in their order, then the scope is marked at the scope unit; units take it later (R309). -/
def execCancel (a b : BitVec 6) (q : BitVec 5) (s : State) : Result :=
  let t := s.me
  let target := (t.val a.toNat).toNat
  let word := (t.val b.toNat).toNat
  .next (
    if t.pois a.toNat || t.pois b.toNat then s.raise .poison
    else if 65536 ≤ target then s.raise .illshape
    else if word % 8 ≠ 0 then s.raiseVa .align word .store 0
    else if word ≠ 0 ∧ word < 2 ^ 32 then s.raiseVa .accv word .store 0
    else if target = 0 then s.raise .accv
    else if ((s.scopes.get? target).map (fun e => e.ctx != (t.val 15).toNat)).getD false then s.raise .accv
    else if t.tokFull q.toNat then s.raise .tokovf
    else
      let n := (s.updMe (fun t => t.produce q.toNat)).newId
      let s1 := match n.2.scopes.get? target with
        | some e => n.2.setScope target { e with cancelled := true }
        | none => n.2
      let c : CancelOp := ⟨n.1, target, (s.scopes.get? target).isNone, word, s.stampOf s.cur, some s.cur, t.task, q.toNat, (t.val 15).toNat, 0, 0, s.takenAlready target⟩
      { s1 with cancels := s1.cancels.set n.1 c })

/-- The lowest nonzero identifier with no entry, in a table in rising order (R305, R307). -/
def freeScopeFrom : Nat → Map ScopeEntry → Nat
  | n, [] => n
  | n, (k, _) :: m => if k = n then freeScopeFrom (n + 1) m else if k < n then freeScopeFrom n m else n

/-- The identifier that an open takes, if one is free (R307). -/
def State.freeScope (s : State) : Option Nat := let n := freeScopeFrom 1 s.scopes; if n < 65536 then some n else none

/-- SCOPE.open (R307, R492). -/
def execScopeOpen (pd : BitVec 4) (a : BitVec 6) (s : State) : Result :=
  let c := s.me.scopeId
  let no := s.landEntry 4 [.g a.toNat 0 false, .p pd.toNat false] true .data
  .next (match s.scopes.get? c, s.freeScope with
    | some e, some n =>
      if s.scopeCancelled c || e.depth == 15 then no
      else
        let s1 := (s.setScope c { e with live := e.live + 1 }).setScope n ⟨0, false, false, e.depth + 1, e.ctx, c⟩
        (s1.updMe (fun t => { t with opened := t.opened + 1, opens := n :: t.opens })).landEntry 4
          [.g a.toNat (BitVec.ofNat 64 n) false, .p pd.toNat true, .scope n] true .data
    | _, _ => no)

/-- SCOPE.close (R307, R492): ACCV with no open scope. -/
def execScopeClose (s : State) : Result :=
  let c := s.me.scopeId
  .next (if s.me.opened = 0 then s.raise .accv
    else
      let parent := match s.scopes.get? c with
        | some e => e.parent
        | none => 0
      ((s.scopeCloseAt c).updMe (fun t => { t with opened := t.opened - 1, opens := t.opens.erase c })).landEntry 4 [.scope parent] true .data)

/-- SLEEP (R268, R503): its group start has waited. -/
def execSleep (a : BitVec 6) (imm : BitVec 11) (s : State) : Result :=
  .next (s.notInHandler (fun s => match s.sleepCount a imm with
    | .error s1 => s1
    | .ok _ => s))

/-- WAITW (R268, R530): its group start has waited. -/
def execWaitw (a b : BitVec 6) (_scope : BitVec 3) (_cond : BitVec 2) (s : State) : Result :=
  .next (s.notInHandler (fun s => match s.readWord a.toNat b.toNat with
    | .error s1 => s1
    | .ok _ => s))

/-- SETQ (R210, R495). -/
def execSetq (q : BitVec 5) (g : BitVec 6) (th : BitVec 8) (s : State) : Result :=
  .next (s.clean [g.toNat] (fun s =>
    if 256 ≤ (s.me.val g.toNat).toNat then s.raise .illshape
    else s.updMe (fun t => t.setTok q.toNat ⟨(t.val g.toNat).toNat, th.toNat, false⟩)))

/-! The wait test of a group start (Table 3-2). -/

/-- Whether every result of a handler has landed, which SYSRET waits for (R316). -/
def Strand.settled (t : Strand) : Bool :=
  t.latches.all (fun l => l.frozen || decide (l.due ≤ t.vcc)) && t.lb.all (fun e => e.frozen) && t.redirect.isNone

/-- The test of a wait instruction of the acting strand's first bundle, with the state it leaves: a lock or a pool entry taken, or
the wait begun. An instruction that will trap waits for nothing. -/
def State.waitTest (s : State) (i : Instr) : Bool × State :=
  let t := s.me
  let hand := t.handler.isSome
  match i with
  | .waitq q n => if hand || decide ((t.tok q.toNat).outst ≤ n.toNat) then (true, s)
      else (false, s.updMe (fun t => { t with wait := .counter q.toNat n.toNat }))
  | .sleep a imm =>
    if hand then (true, s)
    else match s.sleepCount a imm with
      | .error _ => (true, s)
      | .ok n =>
        let till := t.timer.getD s.now + n
        if till ≤ s.now ∨ t.pass = .done then (true, s)
        else (false, s.updMe (fun t => { t with wait := .sleep till }))
  | .waitw a b _ cond =>
    if hand || t.pass = .done then (true, s)
    else match s.readWord a.toNat b.toNat with
      | .error _ => (true, s)
      | .ok (p, w) =>
        let x := (t.val b.toNat).toNat
        let va := (t.val a.toNat).toNat
        if waitCond cond.toNat w x && !s.wordHeld s.cur va p then (true, s)
        else (false, s.updMe (fun t => { t with wait := .word p va x cond.toNat }))
  | .lock a _ _ =>
    if hand then (true, s)
    else match t.pass with
      | .lock _ _ => (true, s)
      | _ => match s.askLock a.toNat false with
        | .trap _ => (true, s)
        | .grant old s1 => (true, s1.updMe (fun t => { t with pass := .lock old true }))
        | .refuse _ => (true, s)
        | .wait s1 => (false, s1)
  | .lockTry _ a _ _ =>
    if hand then (true, s)
    else match t.pass with
      | .lock _ _ => (true, s)
      | _ => match s.askLock a.toNat true with
        | .trap _ => (true, s)
        | .grant old s1 => (true, s1.updMe (fun t => { t with pass := .lock old true }))
        | .refuse old => (true, s.updMe (fun t => { t with pass := .lock old false }))
        | .wait s1 => (false, s1)
  | .spawnB _ a b =>
    if hand || (s.spawnTrap a.toNat b.toNat).isSome || s.spawnDead s.cur then (true, s)
    else if s.canSpawn s.cur then (true, s.updTask t.task (fun k => { k with hold := s.cur :: k.hold.erase s.cur }))
    else (false, s.askPark)
  | .sysret => (!hand || t.settled, s)
  | _ => (true, s)

end Sys2Proof.Machine
end

