-- ==== Sys2Proof/Machine/Kv.lean ====
section
/-! DEFINITION. The KV cache as microcode reaches it (R284 to R286, R295, R298 to R302): KVAD, BFQ, and what the clones and the prefix
tree do to the sequence unit's state. -/

namespace Sys2Proof.Machine

open Sys2Proof

namespace State

/-- Whether a strand is a backfill strand (R296). -/
def isBackfill (s : State) (sid : Nat) : Bool := (s.taskOf sid).kind == .backfill

/-! KVAD. -/

/-- The entries of a KVAD: the one at p, or the aligned 16 of its chunk (R285). -/
def kvSet (p : Nat) (blk : Bool) : List Nat := if blk then span (p / 16 * 16) 16 else [p]

/-- The predicate of a KVAD, by the states as they stand (R285). -/
def kvPred (s : State) (root : Nat) (d : SeqDesc) (p l : Nat) (blk : Bool) : Bool :=
  if blk then (kvSet p blk).all (fun q => s.kvStateOr root d q l != 2 && s.kvStateOr root d q l != 3)
  else s.kvStateOr root d p l == 1

/-- Whether a KVAD waits (R285): an entry is PENDING, the policy is WAIT, and the strand is no backfill strand. -/
def kvWaits (s : State) (sid root : Nat) (d : SeqDesc) (p l : Nat) (blk : Bool) : Bool :=
  !d.mask && !s.isBackfill sid && (kvSet p blk).any (fun q => s.kvStateOr root d q l == 2)

/-- The first class with which a state word that a KVAD reads cannot be read. -/
def kvUnread (s : State) (root : Nat) (d : SeqDesc) (p l : Nat) (blk : Bool) : Option TrapClass :=
  (kvSet p blk).findSome? (fun q => match s.kvState root d q l with
    | .error c => some c
    | .ok _ => none)

/-- The address of the record of a position (R275, R285). -/
def kvAddr (d : SeqDesc) (p l : Nat) (v : Bool) : Option Nat := (d.slot p).map (fun a => a + (2 * l + v.toNat) * 64 * d.rb)

end State

/-- KVAD (R285, R286). -/
def execKvad (o : LMFields) (s : State) : Result :=
  .next (s.guarded o.G (fun s => s.clean [o.base.toNat] (fun s =>
    let p := (s.me.val o.base.toNat).toNat
    let l := o.off.toNat % 2048
    let pd := o.off.toNat / 4096
    let blk := o.size.toNat == 1
    let desc := s.me.cwn 0x009
    let root := (s.space s.cur).2
    if desc = 0 then s.raiseVa .accv desc .load 0
    else if 2 ^ 32 ≤ p then s.raise .illshape
    else match s.seqUse root desc with
      | .error c => s.raiseVa c desc .load 0
      | .ok d =>
        match State.kvAddr d p l (bitAt o.off.toNat 11) with
        | none => if d.layers ≤ l then s.raise .illshape else s.raiseVa .accv desc .load 0
        | some a =>
          if d.layers ≤ l then s.raise .illshape
          else match s.kvUnread root d p l blk with
            | some c => s.raiseVa c (((State.stateAt d p l).map (·.1)).getD 0) .load 0
            | none =>
              let g : LandVal := .g o.d.toNat (BitVec.ofNat 64 a) false
              if (s.me.before s.posId).heldRead desc 320 || s.kvWaits s.cur root d p l blk then
                (s.landEntry 4 [g] false (.kvad desc p l blk pd)).enqueue (.order .acqLoad 0 0 0)
              else s.landEntry 4 [g, .p pd (s.kvPred root d p l blk)] true .data)))

namespace State

/-! Backfill jobs (R295, R296). -/

/-- The die that owns the HBM4E channel of an address (R13, R296); die 0 where it does not translate. -/
def dieOfVa (s : State) (root va : Nat) : Nat :=
  match (s.walk root va .load).pa? va with
  | some pa => if targetOf (pa % 2 ^ 48) = .hbm then pa / 2 ^ 16 % 512 / 64 else 0
  | none => 0

/-- The queue that a job belongs to: that of the die of its K record (R296). -/
def jobDie (s : State) (root : Nat) (d : SeqDesc) (p l : Nat) : Nat :=
  match kvAddr d p l false with
  | some a => s.dieOfVa root a
  | none => 0

/-- Whether a die's backfill queue has no free entry (R295). -/
def jobsFull (s : State) (die : Nat) : Bool := decide (4096 ≤ (s.backfill.get [] die).length)

/-- A backfill job put into a die's queue, bound to a scope (R295, R296, R306). -/
def addJob (s : State) (die ctx recIdx : Nat) (spans : List (Nat × Nat × Nat)) (dims : Map Word)
    (scope desc arg pos layer entry prio : Nat) : State :=
  let n := s.newId
  let job : Task := { Task.empty with
    id := n.1
    kind := .backfill
    status := .queued
    ctx := ctx
    micros := [⟨recIdx, entry, [arg, pos, layer, 0, 0, 0], [1, 1, 1, 1, 1, 1], [], spans, dims⟩]
    home := scope
    scopeId := scope
    prio := prio
    args := []
    crs := [(0x005, BitVec.ofNat 64 (pos + 1)), (0x009, BitVec.ofNat 64 desc)]
    seq := some ⟨desc, layer, 1, pos, false⟩
    readyAt := s.now
    nextAge := s.now + 4096 }
  let s1 := n.2.addTask job
  { s1 with backfill := s1.backfill.set die (s1.backfill.get [] die ++ [n.1]) }

/-- What BFQ decides (R298): the status, and the state after it. -/
def decideBfq (s : State) (w : Nat) : Nat × State :=
  let k := s.taskOf s.cur
  let root := (s.space s.cur).2
  let desc := fieldN w 192 64
  let arg := fieldN w 128 64
  let pos := fieldN w 96 32
  let layer := fieldN w 84 12
  let entry := fieldN w 72 12
  let prio := fieldN w 68 4
  let add (s : State) (die : Nat) : State :=
    (s.nameSeqOf k.ctx desc).addJob die k.ctx (microOf k).recIdx (microOf k).spans (microOf k).dims s.me.scopeId desc arg pos layer entry prio
  if s.spawnDead s.cur then (2, s)
  else if w % 2 ^ 68 ≠ 0 ∨ (s.entryAt (clusterOf s.cur) entry).width ≠ 0 ∨ desc = 0 ∨ desc % 64 ≠ 0 then (3, s)
  else match s.seqUse root desc with
    | .error _ => (3, s)
    | .ok d =>
      if d.layers ≤ layer then (3, s)
      else
        let die := s.jobDie root d pos layer
        let st := s.kvStateOr root d pos layer
        let hwm := s.hwmOf root d layer
        if s.jobsFull die then (1, s)
        else if st = 2 then (0, add s die)
        else if st = 3 ∨ (st = 0 ∧ pos = hwm ∧ pos < d.length) then
          if s.poolSize = 0 then (3, s)
          else match s.inTurn (2, 0) (s.cowPos root desc pos) with
            | .wait => (1, s)
            | .busy => (1, s)
            | .fail _ => (3, s)
            | .ok s1 =>
              match s1.seqDesc root desc with
              | .error _ => (3, s)
              | .ok d1 =>
                let die1 := s1.jobDie root d1 pos layer
                if s1.jobsFull die1 then (1, s)
                else
                  let s2 := s1.setKvState root d1 pos layer 2
                  let s3 := if st = 0 then s2.setHwm root d1 layer (hwm + 1) else s2
                  (0, add s3 die1)
        else (3, s)

end State

/-- BFQ (R298, R392): the status lands at v + 4. -/
def execBfq (a b : BitVec 6) (s : State) : Result :=
  .next (s.clean [a.toNat] (fun s =>
    let va := (s.me.val a.toNat).toNat
    if va % 32 ≠ 0 then s.raiseVa .align va .load 0
    else if !s.inScratch s.cur va 32 then s.raiseVa .accv va .load 0
    else
      let r := s.decideBfq ((s.withQueued (s.me.before s.posId).wq).natAt (windowCell (gidOf s.cur) va) 32)
      r.2.landEntry 4 [.g b.toNat (BitVec.ofNat 64 r.1) false] true .data))

/-! What a copy reaches (R165, R171, R172, R204). -/

/-- The kind of a copy's read or write (Table 12-7). -/
def copyKind (store : Bool) : Kind := if store then .store else .load

/-- The target of an address that a copy has reached, for a read or a write (R168, R170 to R172). -/
def copyFault (s : State) (ctrl store : Bool) (pa : Nat) : Option TrapClass :=
  if !s.reachable pa then some .mchk
  else match targetOf (pa % 2 ^ 48) with
  | .hbm => none
  | .window => if store then some .accv else none
  | .ucode _ off => if !store || ctrl || decide (0x20000 ≤ off) then none else some .accv
  | _ => some .accv

namespace State

/-- The address space of an operation's task, which may have gone (R173, R181). -/
def stampSpace (s : State) (sid : Nat) (p : Stamp) : Nat × Nat :=
  if isCtrl sid then s.ctrlSpace (gidOf sid - 4096) else ((s.ctx p.ctx).walker.asid, (s.ctx p.ctx).walker.troot)

/-- The places of one side of an innermost copy, or its failure (R204, R165). -/
def copyPlaces (s : State) (sid : Nat) (p : Stamp) (va n : Nat) (store : Bool) : State × Except EngineFail (List (Nat × Nat)) :=
  match s.place sid va n with
  | .own c => (s, .ok [(c, n)])
  | .peer c => (s, .ok [(c, n)])
  | .am row c =>
    let t := s.strand sid
    if t.inWindow row && t.inWindow ((va + n - 1 - 0x8000000) / 512) then (s, .ok [(c, n)])
    else (s, .error ⟨.accv, va, (copyKind store).code, 0⟩)
  | .translated =>
    let sp := s.stampSpace sid p
    let r := transAll (dieOf (gidOf sid)) sp.1 sp.2 (copyKind store) (pageCut va n) s
    match r.2 with
    | .error (c, fva, l) => (r.1, .error ⟨c, fva, (copyKind store).code, l⟩)
    | .ok ps =>
      match ps.findSome? (fun x => (copyFault r.1 (isCtrl sid) store x.1).map (fun c => (c, x.2.2.1, x.2.2.2))) with
      | some (c, fva, l) => (r.1, .error ⟨c, fva, (copyKind store).code, l⟩)
      | none => (r.1, .ok (ps.map (fun x => (x.1, x.2.1))))
  | .none => (s, .error ⟨.accv, va, (copyKind store).code, 0⟩)

end State

/-! Clones and the prefix tree (R299 to R302). -/

/-- The failure of an operation of the sequence unit at an address that it reads, with the level at which its walk fails, if it does. -/
def State.unitFail (s : State) (root : Nat) (c : TrapClass) (va : Nat) : EngineFail :=
  ⟨c, va, Kind.load.code, match s.walk root va .load with
    | .fail _ l => l
    | .page .. => 0⟩

/-- What an operation of the sequence unit on a channel ends with. -/
inductive UnitRes where
  | done (s : State)
  | canc
  | fail (f : EngineFail)

namespace State

/-- KVCP's changes (R299). -/
def kvcpEffect (s : State) (root src dst g3 : Nat) : UnitRes :=
  if bitAt g3 63 then
    match s.seqUse root src with
    | .error c => .fail (s.unitFail root c src)
    | .ok d => .done (s.seqRelease root d)
  else match s.seqUse root src, s.seqUse root dst with
    | .error c, _ => .fail (s.unitFail root c src)
    | _, .error c => .fail (s.unitFail root c dst)
    | .ok a, .ok b =>
      match s.seqClone root a b (g3 % 2 ^ 32) with
      | some s1 => .done s1
      | none => .fail (s.unitFail root .illshape dst)

/-- Chunk `c` of a token list, in any space that a copy may read: 16 identifiers, or the failure with which they cannot be read. -/
def tokenChunk (s : State) (sid : Nat) (p : Stamp) (list c : Nat) : Except EngineFail (List Nat) :=
  if list % 4 ≠ 0 then .error ⟨.align, list, Kind.load.code, 0⟩
  else match (s.copyPlaces sid p (list + 64 * c) 64 false).2 with
    | .ok ps => .ok ((chunks 4 (s.readPieces ps)).map leNat)
    | .error f => .error f

/-- The node of a namespace with a path. -/
def pfxNode (s : State) (ns : Nat) (path : List (List Nat)) : Option PfxNode := s.pfx.find? (fun n => n.ns == ns && n.path == path)

/-- A chain's extents with contiguous chunks of one block merged (R301). -/
def mergeExts (s : State) : List Extent → List Extent
  | [] => []
  | e :: es =>
    match mergeExts s es with
    | [] => [e]
    | f :: fs =>
      if f.base = e.base + e.len * e.stride ∧ f.stride = e.stride ∧ s.blockOf f.base = s.blockOf e.base then
        ⟨e.base, e.len + f.len, e.stride⟩ :: fs
      else e :: f :: fs

/-- The longest chain of chunks that nodes of a namespace match, at most 16 extents once merged (R301): path and extents. -/
def pfxChain (s : State) (sid : Nat) (p : Stamp) (list ns : Nat) : Nat → Nat → List (List Nat) → List Extent → Except EngineFail (List (List Nat) × List Extent)
  | 0, _, path, es => .ok (path, es)
  | f + 1, c, path, es =>
    match s.tokenChunk sid p list c with
    | .error e => .error e
    | .ok toks =>
      match s.pfxNode ns (path ++ [toks]) with
      | none => .ok (path, es)
      | some n =>
        let es1 := es ++ [⟨n.base, 16, n.stride⟩]
        if 16 < (s.mergeExts es1).length then .ok (path, es) else s.pfxChain sid p list ns f (c + 1) (path ++ [toks]) es1

/-- The nodes of a chain marked as just used (R302). -/
def pfxTouch (s : State) (ns : Nat) (path : List (List Nat)) : State :=
  { s with
    nextId := s.nextId + 1
    pfx := s.pfx.map (fun n => if n.ns = ns && decide (n.path <+: path) then { n with used := s.nextId } else n) }

/-- PFXL's changes (R301): the destination is filled with the chain's merged extents. -/
def pfxlEffect (s : State) (sid : Nat) (p : Stamp) (root list dst g3 : Nat) : UnitRes :=
  if !bitAt (s.devReg 0x418) 0 then .canc
  else match s.seqUse root dst with
    | .error c => .fail (s.unitFail root c dst)
    | .ok d =>
      if !d.exts.isEmpty then .fail (s.unitFail root .illshape dst)
      else match s.pfxChain sid p list (fieldN g3 32 16) (Nat.min (g3 % 2 ^ 32 / 16) s.pfx.length) 0 [] [] with
        | .error e => .fail e
        | .ok (path, es) =>
          let n := 16 * path.length
          let exts := s.mergeExts es
          let s1 := (exts.zip (span 0 16)).foldl (fun s e =>
            (s.vput root (dst + 64 + 16 * e.2) 16 (e.1.base + 2 ^ 64 * e.1.len + 2 ^ 96 * e.1.stride)).refUp root e.1.base) s
          let s2 := ((s1.seqField root d 56 5 exts.length).seqFlag root d 63 false).seqFlag root d 62 false
          let s3 := (span 0 d.layers).foldl (fun s l => s.setHwm root d l n) s2
          .done ((s3.seqField root d 0 32 n).pfxTouch (fieldN g3 32 16) path)

/-- The least recently used leaf that an insertion may evict (R302): a node without children, not of the chain in hand. -/
def pfxVictim (s : State) (ns : Nat) (path : List (List Nat)) : Option PfxNode :=
  bestBy (fun a b => decide (a.used < b.used)) (s.pfx.filter (fun n =>
    !(s.pfx.any (fun m => m.ns == n.ns && m.path.length == n.path.length + 1 && decide (n.path <+: m.path))) &&
    !(n.ns == ns && decide (n.path <+: path))))

/-- One node inserted, a leaf evicted where the store is full; none where none can be (R302). -/
def pfxAdd (s : State) (root ns : Nat) (path : List (List Nat)) (base stride : Nat) : Option State :=
  let room : Option State :=
    if s.pfx.length < 262144 then some s
    else match s.pfxVictim ns path with
      | some n => some (({ s with pfx := s.pfx.filter (fun m => m != n) } : State).refDown root n.base)
      | none => none
  room.map (fun s => ({ s with nextId := s.nextId + 1, pfx := ⟨ns, path, base, stride, s.nextId⟩ :: s.pfx } : State).refUp root base)

/-- Whether every entry of a chunk of positions is VALID (R302). -/
def chunkValid (s : State) (root : Nat) (d : SeqDesc) (c : Nat) : Bool :=
  (span (16 * c) 16).all (fun p => (span 0 d.layers).all (fun l => s.kvStateOr root d p l == 1))

/-- Chunks inserted one after another for as long as they may be and fit (R302). -/
def pfxInsert (s : State) (sid : Nat) (p : Stamp) (root list ns : Nat) (d : SeqDesc) : Nat → Nat → List (List Nat) → Except EngineFail State
  | 0, _, path => .ok (s.pfxTouch ns path)
  | f + 1, c, path =>
    if !s.chunkValid root d c then .ok (s.pfxTouch ns path)
    else match s.tokenChunk sid p list c with
      | .error e => .error e
      | .ok toks =>
        let path1 := path ++ [toks]
        match s.pfxNode ns path1 with
        | some _ => s.pfxInsert sid p root list ns d f (c + 1) path1
        | none =>
          match SeqDesc.find (16 * c) d.exts with
          | none => .ok (s.pfxTouch ns path)
          | some x =>
            match s.pfxAdd root ns path1 (x.1.base + x.2 * x.1.stride) x.1.stride with
            | none => .ok (s.pfxTouch ns path)
            | some s1 => s1.pfxInsert sid p root list ns d f (c + 1) path1

/-- PFXI's changes (R302). -/
def pfxiEffect (s : State) (sid : Nat) (p : Stamp) (root list src g3 : Nat) : UnitRes :=
  if !bitAt (s.devReg 0x418) 0 then .canc
  else match s.seqUse root src with
    | .error c => .fail (s.unitFail root c src)
    | .ok d =>
      match s.pfxInsert sid p root list (fieldN g3 32 16) d (Nat.min (g3 % 2 ^ 32 / 16) (Nat.min (s.committed root d) d.length / 16)) 0 [] with
      | .error e => .fail e
      | .ok s1 => .done s1

end State

end Sys2Proof.Machine
end

