-- ==== Sys2Proof/Machine/Elements.lean ====
section
/-! DEFINITION. The format register's fields (R100 to R102), elements and block scales (R109 to R113), how a rounding is chosen
(R101, R557), and the draws that a stochastic rounding takes (R116, R117). -/

namespace Sys2Proof.Machine

open Sys2Proof

namespace Strand

/-- Fields of FMTR (Table 4-8). -/
def afmt (t : Strand) : Nat := fieldN t.fmtr.toNat 0 4
def bfmt (t : Strand) : Nat := fieldN t.fmtr.toNat 4 4
def acc (t : Strand) : Nat := fieldN t.fmtr.toNat 8 2
def fmtRnd (t : Strand) : Nat := fieldN t.fmtr.toNat 10 3
def ftz (t : Strand) : Bool := bitAt t.fmtr.toNat 13
def sat (t : Strand) : Bool := bitAt t.fmtr.toNat 14
def sre (t : Strand) : Bool := bitAt t.fmtr.toNat 15
def fmtScale (t : Strand) : Nat := fieldN t.fmtr.toNat 16 2

/-- The rounding mode that an rnd field selects; none where it reads a reserved FMTR.RND (R101, R102, R557). -/
def mode? (t : Strand) (rnd : Nat) (narrow : Bool) : Option Nat :=
  if narrow && t.sre then some 5
  else if rnd = 6 then (if t.fmtRnd < 6 then some t.fmtRnd else none)
  else some rnd

end Strand

/-- The float format of a code, for the plain float and MX float formats (Table 4-10). -/
def fmtOf (code : Nat) : Fmt :=
  match code with
  | 0 => Fmt.fp64 | 1 => Fmt.fp32 | 2 => Fmt.bf16 | 3 => Fmt.fp16 | 4 => Fmt.e4m3 | 5 => Fmt.e5m2 | 6 => Fmt.e4m3
  | _ => Fmt.e5m2

/-- The scaling of an integer element format: the value of code n is n × 2^−k (Table 5-2). -/
def intShift (code : Nat) : Nat :=
  match code with
  | 9 => 6 | 10 => 4 | 11 => 2
  | _ => 0

/-- The value of an element code (Tables 5-1, 5-2, R109). -/
def elemVal (code c : Nat) : FVal :=
  if code < 8 then (fmtOf code).read c
  else
    let w := fmtBits code
    let x := signedN w c
    if (code = 10 ∨ code = 11) ∧ x = -((2 ^ (w - 1) : Nat) : Int) then .fin false 0 0
    else .fin (decide (x < 0)) x.natAbs (-(intShift code : Int))

/-- The range that a conversion to an integer element format produces (Table 5-2). -/
def intRange (code : Nat) : Int × Int :=
  match code with
  | 8 => (-128, 127) | 9 => (-127, 127) | 10 => (-31, 31)
  | _ => (-7, 7)

/-- A value converted to an element code (R114, R120, R121). -/
def elemCode (code : Nat) (r : Rnd) (v : FVal) : Nat :=
  if code < 8 then (fmtOf code).write r v
  else
    let b := intRange code
    codeN (fmtBits code) (clampInt b.1 b.2 (roundToInt r (v.scale (intShift code))))

/-- An element under its block's E8M0 scale (R110, R111). -/
def scaled (scale : Nat) (v : FVal) : FVal := if scale = 255 then .nan else v.scale ((scale : Int) - 127)

/-- Element `j` of an operand row held as a number (R112). -/
def rowElem (code row j : Nat) : Nat := fieldN row (fmtBits code * j) (fmtBits code)

/-- The exponent of the largest element of an MX format (R131). -/
def emaxOf (code : Nat) : Int :=
  match code with
  | 6 => 8 | 7 => 15
  | _ => 0

/-- The scale of an MX block by R131: 0xFF where a value is a NaN or infinite, 0x7F for zeros, else from the largest magnitude. -/
def blockScale (code : Nat) (xs : List FVal) : Nat :=
  if xs.any (fun x => match x with
    | .fin _ _ _ => false
    | _ => true) then 255
  else
    let es := xs.filterMap (fun x => match x with
      | .fin _ m e => if m = 0 then none else some (e + Nat.log2 m)
      | _ => none)
    match es with
    | [] => 127
    | e :: es => ((clampInt (-127) 127 (es.foldl Max.max e - emaxOf code)) + 127).toNat

/-- An element of a quantised block (R131 steps 1, 2 and 4). -/
def blockElem (code scale : Nat) (r : Rnd) (v : FVal) : Nat :=
  if scale = 255 then 0 else elemCode code { r with sat := true } (v.scale (127 - (scale : Int)))

namespace State

/-- Draws taken from the acting strand's generator at the issue step (R116, R117). -/
def takeDraws (s : State) (n : Nat) : List Nat × State :=
  let r := srDraws n (s.me.cwn 0x106)
  (r.1, s.updMe (fun t => { t with cr := t.cr.set 0x106 (BitVec.ofNat 64 r.2) }))

/-- `n` roundings by an rnd field, with their draws under SR; ILLFMT for a reserved FMTR.RND that is read (R101, R102). -/
def roundings (s : State) (rnd : Nat) (narrow sat : Bool) (n : Nat) (f : State → List Rnd → State) : State :=
  match s.me.mode? rnd narrow with
  | none => s.raise .illfmt
  | some 5 =>
    let d := s.takeDraws n
    f d.2 (d.1.map (fun x => ⟨5, x, sat, s.me.ftz⟩))
  | some m => f s (List.replicate n ⟨m, 0, sat, s.me.ftz⟩)

end State

end Sys2Proof.Machine
end

