-- ==== Sys2Proof/Machine/Matrix.lean ====
section
/-! DEFINITION. The matrix engine and matrix–vector multiplication in the stacks (R136 to R158, R123 to R128, R132): the issue of the
M-slot operations, the engine queue, the passes, the drain converter and the rotation. -/

namespace Sys2Proof.Machine

open Sys2Proof

/-! Geometry and cost. -/

/-- The lanes of an AM row for an accumulator type (Table 4-2). -/
def accLanes (acc : Nat) : Nat := if acc = 2 then 64 else 128

namespace MOp

/-- Fields of the FMTR captured at issue (Table 4-8). -/
def afmt (o : MOp) : Nat := fieldN o.fmtr.toNat 0 4
def bfmt (o : MOp) : Nat := fieldN o.fmtr.toNat 4 4
def acc (o : MOp) : Nat := fieldN o.fmtr.toNat 8 2
def scale (o : MOp) : Nat := fieldN o.fmtr.toNat 16 2
def ftz (o : MOp) : Bool := bitAt o.fmtr.toNat 13
def sat (o : MOp) : Bool := bitAt o.fmtr.toNat 14
def lanes (o : MOp) : Nat := accLanes o.acc

/-- The core of an operation. -/
def gid (o : MOp) : Nat := gidOf o.sid

/-- The bytes of an accumulator element. -/
def elem (o : MOp) : Nat := 512 / o.lanes

/-- Where element (i, col) of the tile lies (Table 4-3). -/
def cell (o : MOp) (i col : Nat) : Nat := rowBase o.gid (o.base + col / o.lanes * 32 + i) + col % o.lanes * o.elem

/-- The AM window address of element (i, col), which a trap record names. -/
def amVa (o : MOp) (i col : Nat) : Nat :=
  0x8000000 + (o.base + col / o.lanes * 32 + i) % 2048 * 512 + col % o.lanes * o.elem

/-- The blocks J of 32 rows of the tile (R95). -/
def blocks (o : MOp) : Nat := ceilDiv o.n o.lanes

/-- The passes of an MMA for a format (Table 6-2). -/
def mmaPasses (code : Nat) : Nat := if code = 0 then 3 else ceilDiv (fmtK code) 32

/-- The passes of an operation (R143, R151 to R153). -/
def total (o : MOp) : Nat :=
  match o.kind with
  | .mma => mmaPasses o.afmt
  | .mrot => o.n / 32
  | .mdrn => o.blocks
  | _ => 1

/-- The cycles of a group of 16 columns (Table 6-2). -/
def groupCost (code : Nat) : Nat :=
  match code with
  | 0 => 24 | 1 => 12 | 3 => 6 | 11 => 2
  | _ => 4

/-- Whether an address of the operation lies in a peer window. -/
def peerAt (o : MOp) (va : Nat) : Bool := windowCell o.gid va / 0x400000 != spadBase o.gid / 0x400000

/-- The cycle, counted from the end of the fill, at which `p` passes have ended (R143, R144, R151 to R153). -/
def passEnd (o : MOp) (p : Nat) : Nat :=
  match o.kind with
  | .mma =>
    let c := if o.peerAt o.bAddr then Nat.max (groupCost o.afmt) 16 else groupCost o.afmt
    ceilDiv (p * (o.n / 16) * c) o.total
  | .mrot => 16 * p
  | .mdrn => 32 * p
  | _ => p * o.blocks

/-- The fill before the first pass of a run (R143, R144, R146, R151, R153). -/
def fill (o : MOp) : Nat :=
  match o.kind with
  | .mma => if !o.started && o.peerAt o.aAddr then 44 else 12
  | .mdrn => if o.started then 12 else 8
  | .mzero => 2
  | _ => 12

/-- The cycle at which the running pass ends (R147). -/
def due (o : MOp) : Nat := o.since + (o.passEnd (o.passes + 1) - o.passEnd o.passes)

/-- The base priority of an operation, from its issue or from an MPRI (R145, R154). -/
def basePrio (o : MOp) (now : Nat) : Nat := if o.turns ≤ now then o.next else o.prio

/-- Whether two operations share a region (R142). -/
def meets (o p : MOp) : Bool := o.regions.any (fun r => p.regions.contains r)

end MOp

/-! Operands (R109 to R113, R124). -/

/-- The bytes of K-step `p` in an operand row: where they begin and how many (R113, R143). -/
def stepBytes (code p : Nat) : Nat × Nat :=
  if code = 0 then (64 * p, 64) else (4 * fmtBits code * p, Nat.min (4 * fmtBits code) (192 - 4 * fmtBits code * p))

/-- The elements of K-step `p` of an operand row as values under their scales (R111, R124). -/
def stepVals (code scale tensor row p : Nat) : List FVal :=
  let b := stepBytes code p
  (span (8 * b.1 / fmtBits code) (8 * b.2 / fmtBits code)).map (fun k =>
    let v := elemVal code (rowElem code row k)
    if scale = 1 && isMx code then scaled (fieldN row (8 * (192 + p)) 8) v
    else if scale = 2 then scaled tensor v
    else v)

/-- The exact sum of the products of two lists of values (R124). -/
def dot (a b : List FVal) : FVal := FVal.sum false ((a.zip b).map (fun x => x.1.mul x.2))

/-- Whether a combination of formats is a row of Table 4-11. -/
def mmaFormats (a b acc scale : Nat) : Bool :=
  (acc == 2 && a == 0 && b == 0 && scale == 0) ||
  (acc == 0 && (a == 1 || a == 2 || a == 3) && b == a && scale == 0) ||
  (acc == 0 && (a == 4 || a == 5) && (b == 4 || b == 5) && (scale == 0 || scale == 2)) ||
  (acc == 0 && (a == 6 || a == 7) && (b == 6 || b == 7) && scale == 1) ||
  (acc == 0 && (a == 9 || a == 10 || a == 11) && b == a && scale == 1) ||
  (acc == 1 && a == 8 && b == 8 && (scale == 0 || scale == 2))

def mgvFormats (a b acc scale : Nat) : Bool :=
  acc == 0 && (a == 1 || a == 2) && (b == 6 || b == 7 || b == 9 || b == 10 || b == 11) && scale == 1

/-! Issue. -/

/-- Whether N is valid for a tile (R138). -/
def badN (n : Nat) : Bool := n % 16 != 0 || decide (n < 16) || decide (512 < n)

namespace State

/-- An operation as it stands at its issue, from the fields that every one captures. -/
def matOp (s : State) (o : MFields) (kind : MKind) (n : Nat) : MOp :=
  let t := s.me
  { id := s.nextId
    pos := s.posId
    kind := kind
    sid := s.cur
    task := t.task
    stamp := s.stampOf s.cur
    vcc := t.vcc
    base := t.vrow o.tile.toNat
    n := n
    m := 32
    mode := o.mode.toNat
    fmtr := t.fmtr
    aAddr := (t.val o.gA.toNat).toNat
    bAddr := (t.val o.gB.toNat).toNat
    aStride := t.cwn 0x102
    bStride := t.cwn 0x103
    dStride := t.cwn 0x104
    dfmt := (t.val o.gB.toNat).toNat % 16
    ascale := t.cwn 0x100
    bscale := t.cwn 0x101
    dscale := t.cwn 0x105
    r := t.cwn 0x107
    draws := []
    prod := o.prod.toNat
    cons := [o.c1.toNat, o.c2.toNat, o.c3.toNat]
    prio := t.eff
    turns := 0
    next := t.eff
    waited := 0
    started := false
    running := false
    passes := 0
    since := s.now
    pages := []
    fail := none
    cut := false }

/-- An operation put into its queue: Produce, and the busy counts of its regions rise (R141, R145). -/
def pushMat (s : State) (op : MOp) : State :=
  let s1 := (s.newId.2).updMe (fun t => t.produce op.prod)
  s1.updCore (gidOf s.cur) (fun c =>
    let busy := op.regions.foldl (fun b r => b.set r (b.get 0 r + 1)) c.busy
    match op.kind with
    | .mgv => { c with busy := busy, gq := c.gq ++ [op] }
    | _ => { c with busy := busy, mq := c.mq ++ [op] })

/-- A trap at an operand address. -/
def atVa (va : Nat) (k : Kind) : FaultInfo := ⟨va, k.code, 0⟩

/-- The tests that every tile operation takes, around its own tests of formats, shape, alignment and place (R138). -/
def tileIssue (s : State) (o : MFields) (op : MOp) (fmtBad shapeBad : Bool) (regs : List Nat)
    (rest : List (Bool × TrapClass × FaultInfo)) (f : State → MOp → State) : State :=
  s.tests ([(fmtBad, .illfmt, noInfo), (shapeBad || op.base % 32 != 0, .illshape, noInfo),
      (regs.any (fun r => s.me.pois r), .poison, noInfo)] ++ rest ++ [(s.me.overflows o.prod.toNat, .tokovf, noInfo)]) (fun s => f s op)

end State

/-- MMA (R139, R463). -/
def execMma (o : MFields) (s : State) : Result :=
  .next (s.guarded ⟨o.p, false⟩ (fun s =>
    let op := s.matOp o .mma (s.me.val o.gN.toNat).toNat
    let a := op.aAddr
    let b := op.bAddr
    s.tileIssue o op (!mmaFormats op.afmt op.bfmt op.acc op.scale)
      (badN op.n || op.aStride % 256 != 0 || op.bStride % 256 != 0) [o.gA.toNat, o.gB.toNat, o.gN.toNat]
      [(a % 256 != 0, .align, State.atVa a .load), (b % 256 != 0, .align, State.atVa b .load),
       (!s.inScratch s.cur a (31 * op.aStride + 256), .accv, State.atVa a .load),
       (!s.inScratch s.cur b ((op.n - 1) * op.bStride + 256), .accv, State.atVa b .load)]
      (fun s op => s.pushMat op)))

/-- The bytes of a dense A row of an MGV (R155). -/
def mgvRow (op : MOp) : Nat := op.r * fmtK op.bfmt * (fmtBits op.afmt / 8)

/-- MGV (R155, R156, R460). -/
def execMgv (o : MFields) (s : State) : Result :=
  .next (s.guarded ⟨o.p, false⟩ (fun s =>
    let v := (s.me.val o.gN.toNat).toNat
    let op : MOp := { s.matOp o .mgv (v % 1024) with m := fieldN v 16 5 + 1 }
    let a := op.aAddr
    let b := op.bAddr
    s.tileIssue o op (!mgvFormats op.afmt op.bfmt op.acc op.scale)
      (badN op.n || fieldN v 10 6 != 0 || fieldN v 21 43 != 0 || op.r == 0 || op.aStride % 256 != 0 || decide (op.aStride < mgvRow op))
      [o.gA.toNat, o.gB.toNat, o.gN.toNat]
      [(a % 256 != 0, .align, State.atVa a .load), (b % 65536 != 0, .align, State.atVa b .load),
       (!s.inScratch s.cur a ((op.m - 1) * op.aStride + mgvRow op), .accv, State.atVa a .load),
       (decide (b < 2 ^ 32), .accv, State.atVa b .load)]
      (fun s op => s.pushMat op)))

/-- MROT (R152, R467). -/
def execMrot (o : MFields) (s : State) : Result :=
  .next (s.guarded ⟨o.p, false⟩ (fun s =>
    let op := s.matOp o .mrot (s.me.val o.gN.toNat).toNat
    s.tileIssue o op (op.acc != 0) (badN op.n || op.n % 32 != 0) [o.gN.toNat] [] (fun s op => s.pushMat op)))

/-- MZERO (R153, R472). -/
def execMzero (o : MFields) (s : State) : Result :=
  .next (s.guarded ⟨o.p, false⟩ (fun s =>
    let op := s.matOp o .mzero (s.me.val o.gN.toNat).toNat
    s.tileIssue o op (op.acc == 3) (badN op.n) [o.gN.toNat] [] (fun s op => s.pushMat op)))

namespace MOp

/-- Whether an MDRN's layout is dense (Table 6-4). -/
def dense (o : MOp) : Bool := bitAt o.mode 1

/-- The operand rows of an output row of an MDRN (R149). -/
def outRows (o : MOp) : Nat := ceilDiv o.n (fmtK o.dfmt)

/-- The bytes of an output row of an MDRN (R149). -/
def outBytes (o : MOp) : Nat := if o.dense then o.n * (fmtBits o.dfmt / 8) else 256 * o.outRows

end MOp

/-- MDRN (R149, R150, R458): under SR it draws for every element at its issue (R116). -/
def execMdrn (o : MFields) (s : State) : Result :=
  .next (s.guarded ⟨o.p, false⟩ (fun s =>
    let op := s.matOp o .mdrn (s.me.val o.gN.toNat).toNat
    let a := op.aAddr
    let mode := s.me.mode? 6 (decide (2 ≤ op.dfmt))
    let shape := badN op.n || decide (16 ≤ op.bAddr) || (if op.dense then
        isMx op.dfmt || op.dStride % 64 != 0 || decide (op.dStride < op.outBytes)
      else op.dStride % 256 != 0 || decide (op.dStride < 256 * op.outRows))
    s.tileIssue o op (op.acc == 3 || decide (12 ≤ op.dfmt) || mode.isNone || (op.acc == 1 && op.scale == 3)) shape
      [o.gA.toNat, o.gB.toNat, o.gN.toNat]
      [(a % (if op.dense then 64 else 256) != 0, .align, State.atVa a .store),
       (!s.inScratch s.cur a (31 * op.dStride + op.outBytes), .accv, State.atVa a .store)]
      (fun s op =>
        let d := if mode = some 5 then s.takeDraws (32 * op.n) else ([], s)
        d.2.pushMat { op with draws := d.1 })))

/-- MPRI (R154, R466): the base priority of the strand's operations on the matrix engine, from the next cycle on. -/
def execMpri (o : MFields) (s : State) : Result :=
  .next (s.guarded ⟨o.p, false⟩ (fun s =>
    s.updCore (gidOf s.cur) (fun c => { c with mq := c.mq.map (fun x =>
      if x.sid = s.cur && x.task == s.me.task && (o.prod.toNat == 0 || x.prod == o.prod.toNat) then
        { x with prio := x.basePrio s.now, turns := s.now + 1, next := o.tile.toNat % 16 } else x) })))

/-! Passes. -/

/-- A pass: the state after it, or the address of a poisoned word that stops the operation before it (R148). -/
abbrev PassRes := Except Nat State

namespace State

/-- The address of a poisoned word among runs of cells, each with the address it has for the strand. -/
def firstPoison (s : State) (runs : List (Nat × Nat × Nat)) : Option Nat :=
  runs.findSome? (fun x => if s.poisonIn x.1 x.2.1 then some x.2.2 else none)

/-- Element (i, col) of a tile. -/
def tileNat (s : State) (o : MOp) (i col : Nat) : Nat := s.natAt (o.cell i col) o.elem

/-- The runs of cells of a tile's columns `lo` to `hi − 1`, row by row and block by block. -/
def tileRuns (o : MOp) (lo hi : Nat) : List (Nat × Nat × Nat) :=
  (span 0 32).foldr (fun i acc =>
    ((span (lo / o.lanes) (ceilDiv hi o.lanes - lo / o.lanes)).map (fun j =>
      let c0 := Nat.max lo (j * o.lanes)
      let c1 := Nat.min hi ((j + 1) * o.lanes)
      (o.cell i c0, (c1 - c0) * o.elem, o.amVa i c0))) ++ acc) []

/-- Row `i` of a tile written from column `lo` on, block by block. -/
def putTile (s : State) (o : MOp) (i lo : Nat) (vs : List Nat) : State :=
  let hi := lo + vs.length
  (span (lo / o.lanes) (ceilDiv hi o.lanes - lo / o.lanes)).foldl (fun s j =>
    let c0 := Nat.max lo (j * o.lanes)
    let c1 := Nat.min hi ((j + 1) * o.lanes)
    s.writeBytes (o.cell i c0) (((vs.drop (c0 - lo)).take (c1 - c0)).foldr (fun v acc => leBytes o.elem v ++ acc) [])) s

/-- One step of an accumulator element (R123, R125, R126): the tile's mode, and the values of the step. -/
def accStep (o : MOp) (old : Nat) (first : Bool) (a b : List FVal) (ia ib : List Int) : Nat :=
  let r := Rnd.rne o.ftz
  if o.acc = 1 then
    let acc : Int := if first && o.mode == 1 then 0 else signedN 32 old
    let sum := ((ia.zip ib).map (fun x => x.1 * x.2)).foldl (fun (x y : Int) => x + y) 0
    codeN 32 (if o.mode = 2 then acc - sum else acc + sum)
  else if o.acc = 2 then
    let acc := if first && o.mode == 1 then 2 ^ 63 else old
    (a.zip b).foldl (fun acc x =>
      let p := x.1.mul x.2
      Fmt.fp64.write r (FVal.sum false [Fmt.fp64.read acc, if o.mode = 2 then p.neg else p])) acc
  else
    let acc := if first && o.mode == 1 then 2 ^ 31 else old
    let d := dot a b
    Fmt.fp32.write r (FVal.sum false [Fmt.fp32.read acc, if o.mode = 2 then d.neg else d])

/-- The integers of K-step `p` of an operand row. -/
def stepInts (row p : Nat) : List Int := (span (32 * p) 32).map (fun k => signedN 8 (rowElem 8 row k))

/-- Pass `p` of an MMA (R123, R125, R126, R143). -/
def mmaPass (s : State) (o : MOp) (p : Nat) : PassRes :=
  let aRow (i : Nat) : Nat := o.aAddr + i * o.aStride
  let bRow (j : Nat) : Nat := o.bAddr + j * o.bStride
  let runs (code va : Nat) : List (Nat × Nat × Nat) :=
    let b := stepBytes code p
    (windowCell o.gid (va + b.1), b.2, va + b.1) ::
      (if o.scale = 1 && isMx code then [(windowCell o.gid (va + 192 + p), 1, va + 192 + p)] else [])
  let reads := (span 0 32).foldr (fun i acc => runs o.afmt (aRow i) ++ acc) [] ++
    (span 0 o.n).foldr (fun j acc => runs o.bfmt (bRow j) ++ acc) [] ++
    (if p = 0 && o.mode == 1 then [] else tileRuns o 0 o.n)
  match s.firstPoison reads with
  | some va => .error va
  | none =>
    let rowNat (va : Nat) : Nat := s.natAt (windowCell o.gid va) 256
    let bs := (span 0 o.n).map (fun j => stepVals o.bfmt o.scale o.bscale (rowNat (bRow j)) p)
    let ib := (span 0 o.n).map (fun j => if o.acc = 1 then stepInts (rowNat (bRow j)) p else [])
    .ok ((span 0 32).foldl (fun s' i =>
      let av := stepVals o.afmt o.scale o.ascale (rowNat (aRow i)) p
      let ia := if o.acc = 1 then stepInts (rowNat (aRow i)) p else []
      s'.putTile o i 0 (((bs.zip ib).zip (span 0 o.n)).map (fun x => accStep o (s.tileNat o i x.2) (p == 0) av x.1.1 ia x.1.2))) s)

/-- The sign of H[j][k] of the Sylvester Hadamard matrix (R132). -/
def hadamardNeg (j k : Nat) : Bool := ((span 0 5).filter (fun b => bitAt j b && bitAt k b)).length % 2 == 1

/-- Pass `c` of an MROT: block `c` of every row (R132, R152). -/
def mrotPass (s : State) (o : MOp) (c : Nat) : PassRes :=
  match s.firstPoison (tileRuns o (32 * c) (32 * c + 32)) with
  | some va => .error va
  | none =>
    .ok ((span 0 32).foldl (fun s' i =>
      let xs := (span 0 32).map (fun k => Fmt.fp32.read (s.tileNat o i (32 * c + k)))
      s'.putTile o i (32 * c) ((span 0 32).map (fun j =>
        Fmt.fp32.write (Rnd.rne o.ftz) ((FVal.sum false ((xs.zip (span 0 32)).map (fun x =>
          if hadamardNeg j x.2 then x.1.neg else x.1))).scale (-3))))) s)

/-- MZERO's one pass (R153). -/
def mzeroPass (s : State) (o : MOp) : State :=
  (span 0 32).foldl (fun s i => s.putTile o i 0 (List.replicate o.n 0)) s

/-- The exact value that a drain converts (R150). -/
def drainVal (s : State) (o : MOp) (i col : Nat) : FVal :=
  let c := s.tileNat o i col
  let v := match o.acc with
    | 0 => Fmt.fp32.read c
    | 1 => ofInt (signedN 32 c)
    | _ => Fmt.fp64.read c
  let w := if o.acc = 1 && o.scale == 2 then scaled o.bscale (scaled o.ascale v) else v
  scaled o.dscale w

/-- The rounding of a drained element (R101, R116, R150). -/
def drainRnd (o : MOp) (i col : Nat) : Rnd :=
  let narrow := decide (2 ≤ o.dfmt) && bitAt o.fmtr.toNat 15
  ⟨if narrow then 5 else fieldN o.fmtr.toNat 10 3, nth 0 o.draws (i * o.n + col), o.sat, o.ftz⟩

/-- The codes of columns `c0` to `c1 − 1` of row `i` in the destination format (R150). -/
def drainCodes (s : State) (o : MOp) (i c0 c1 : Nat) : List Nat :=
  if isMx o.dfmt then
    (span (c0 / 32) (ceilDiv c1 32 - c0 / 32)).foldr (fun b acc =>
      let cols := span (32 * b) (Nat.min o.n (32 * b + 32) - 32 * b)
      let sc := blockScale o.dfmt (cols.map (fun c => s.drainVal o i c))
      (cols.map (fun c => blockElem o.dfmt sc (drainRnd o i c) (s.drainVal o i c))) ++ acc) []
  else (span c0 (c1 - c0)).map (fun c => elemCode o.dfmt (drainRnd o i c) (s.drainVal o i c))

/-- The scale byte of block `b` of row `i` (R131, R149). -/
def drainScale (s : State) (o : MOp) (i b : Nat) : Nat :=
  blockScale o.dfmt ((span (32 * b) (Nat.min o.n (32 * b + 32) - 32 * b)).map (fun c => s.drainVal o i c))

/-- Codes of one width packed into bytes (R112). -/
def packCodes (w : Nat) (cs : List Nat) : List Byte := leBytes (cs.length * w / 8) (pack (cs.map (fun c => (w, c))))

/-- Region `j` of an output row in operand-row layout (R149): the codes and the scale bytes it owns. -/
def drainRow (s s' : State) (o : MOp) (i j : Nat) : State :=
  let w := fmtBits o.dfmt
  let kd := fmtK o.dfmt
  let lo := j * o.lanes
  let hi := Nat.min o.n (lo + o.lanes)
  let row (k : Nat) : Nat := windowCell o.gid (o.aAddr + i * o.dStride + 256 * k)
  let s1 := (span (lo / kd) (ceilDiv hi kd - lo / kd)).foldl (fun s' k =>
    let c0 := Nat.max lo (k * kd)
    let c1 := Nat.min hi ((k + 1) * kd)
    s'.writeBytes (row k + w * (c0 - k * kd) / 8) (packCodes w (s.drainCodes o i c0 c1))) s'
  if !isMx o.dfmt then s1
  else (span (lo / 32) (ceilDiv hi 32 - lo / 32)).foldl (fun s' b =>
    s'.writeNat (row (32 * b / kd) + 192 + b % (kd / 32)) 1 (s.drainScale o i b)) s1

/-- The bytes that are written as zero, which the region of column N − 1 owns (R149). -/
def drainZeros (s : State) (o : MOp) (i : Nat) : State :=
  let kd := fmtK o.dfmt
  (span 0 o.outRows).foldl (fun s k =>
    let cols := Nat.min kd (o.n - k * kd)
    let used := if isMx o.dfmt then ceilDiv cols 32 else 0
    let a := windowCell o.gid (o.aAddr + i * o.dStride + 256 * k)
    let e := fmtBits o.dfmt * cols / 8
    (s.writeBytes (a + e) (List.replicate (192 - e) 0)).writeBytes (a + 192 + used) (List.replicate (64 - used) 0)) s

/-- Pass `j` of an MDRN: region `j` of every row (R149 to R151). -/
def mdrnPass (s : State) (o : MOp) (j : Nat) : PassRes :=
  let lo := j * o.lanes
  let hi := Nat.min o.n (lo + o.lanes)
  match s.firstPoison (tileRuns o lo hi) with
  | some va => .error va
  | none =>
    let s1 := (span 0 32).foldl (fun s' i =>
      if o.dense then
        let size := fmtBits o.dfmt / 8
        s'.writeBytes (windowCell o.gid (o.aAddr + i * o.dStride + lo * size)) (packCodes (8 * size) (s.drainCodes o i lo hi))
      else
        let s2 := drainRow s s' o i j
        if hi = o.n then s2.drainZeros o i else s2) s
    .ok (if bitAt o.mode 0 then
        (span 0 32).foldl (fun s i => s.putTile o i lo (List.replicate (hi - lo) 0)) s1
      else s1)

/-- A pass of an operation of the matrix engine. -/
def matPass (s : State) (o : MOp) : PassRes :=
  match o.kind with
  | .mma => s.mmaPass o o.passes
  | .mrot => s.mrotPass o o.passes
  | .mdrn => s.mdrnPass o o.passes
  | _ => .ok (s.mzeroPass o)

/-! The engine queue (R142, R145 to R147). -/

/-- An operation's base priority, with what locks lend its strand (R145). -/
def matBase (s : State) (o : MOp) : Nat :=
  let t := s.strand o.sid
  let p := o.basePrio s.now
  if t.task = o.task ∧ t.prioBase < t.inherit then Nat.max p t.inherit else p

/-- An operation's effective priority (R145, R146). -/
def matEff (s : State) (o : MOp) : Nat :=
  Nat.min 15 (s.matBase o + (if o.running then o.waited else o.waited + (s.now - o.since)) / 4096)

/-- Whether an operation may start or go on (R142, R143, R146). -/
def matEligible (s : State) (o : MOp) : Bool :=
  let c := s.core o.gid
  !o.running && !o.cut && (o.started || decide (o.since < s.now)) &&
  (o.started || (s.consumes o.sid o.task o.cons && s.released o.sid o.task o.pos o.vcc (fun r => o.regions.contains (r / 32)))) &&
  (c.mq ++ c.gq).all (fun p => !(decide (p.id < o.id) && p.sid == o.sid && p.task == o.task && p.meets o))

/-- Whether one operation goes before another: the higher effective priority, then the earlier issue (R146). -/
def matBefore (s : State) (o p : MOp) : Bool :=
  decide (s.matEff p < s.matEff o) || (s.matEff p == s.matEff o && decide (o.id < p.id))

/-- An operation of a matrix engine queue changed. -/
def updMat (s : State) (gid id : Nat) (f : MOp → MOp) : State :=
  s.updCore gid (fun c => { c with mq := c.mq.map (fun x => if x.id = id then f x else x) })

/-- An operation started or resumed (R143, R146). -/
def startMat (s : State) (o : MOp) : State :=
  s.updMat o.gid o.id (fun x => { x with
    running := true, started := true, waited := x.waited + (s.now - x.since), since := s.now + x.fill })

/-- The running operation of a core's engine. -/
def runningMat (s : State) (gid : Nat) : Option MOp := (s.core gid).mq.find? (fun o => o.running)

/-- An operation leaves its queue: its regions' busy counts fall, and it completes (R147, R148). -/
def endMat (s : State) (o : MOp) (kind : Nat) (fail : Option EngineFail) (cut : Bool) : State :=
  (s.updCore o.gid (fun c => { c with
    busy := unbusy c.busy o
    mq := c.mq.filter (fun x => x.id != o.id)
    gq := c.gq.filter (fun x => x.id != o.id) })).finishOp o.stamp kind o.sid o.task o.prod 0 fail cut

/-- What a report would do while the fault report ring is full: the producer holds its item (R318), and the cycles count from then on
(R333). -/
def unlessFull (s : State) (f : State → State) : State :=
  if s.frqFull then { s with telem := { s.telem with holding := true } } else f s

/-- The engine compares the running operation with the eligible ones at a pass boundary (R146). -/
def overtake (s : State) (gid : Nat) : State :=
  match s.runningMat gid with
  | none => s
  | some o =>
    match bestBy s.matBefore ((s.core gid).mq.filter s.matEligible) with
    | some p =>
      if s.matEff o < s.matEff p then
        (s.updMat gid o.id (fun x => { x with running := false, since := s.now })).startMat p
      else s
    | none => s

end State

/-- MATRIX_OP_START (R146): the idle engine starts the eligible operation of highest effective priority. -/
def execMatrixOpStart (core : Nat) (s : State) : Result :=
  .next (if s.power.hold then s else match s.runningMat core with
    | some _ => s
    | none =>
      match bestBy s.matBefore ((s.core core).mq.filter s.matEligible) with
      | some o => s.startMat o
      | none => s)

/-- MATRIX_PASS_END (R146): a pass that is not the last ends; a killed operation stops there, a failed one before it (R148). -/
def execMatrixPassEnd (core : Nat) (s : State) : Result :=
  .next (match s.runningMat core with
    | none => s
    | some o =>
      if s.now < o.due ∨ o.total ≤ o.passes + 1 then s
      else match s.matPass o with
        | .error va => s.unlessFull (fun s => s.endMat o 2 (some (State.failAt .poison va .load 0)) false)
        | .ok s1 =>
          if o.cut then s.unlessFull (fun _ => s1.endMat o 2 none true)
          else (s1.updMat core o.id (fun x => { x with passes := o.passes + 1, since := o.due })).overtake core)

/-- MATRIX_OP_COMPLETE (R147): the last pass ends; and a killed operation that stands suspended ends where it stands (Table 12-4). -/
def execMatrixOpComplete (core : Nat) (s : State) : Result :=
  .next (match (s.core core).mq.find? (fun o => o.cut && !o.running) with
    | some o => s.unlessFull (fun s => s.endMat o 2 none true)
    | none =>
      match s.runningMat core with
      | none => s
      | some o =>
        if s.now < o.due ∨ o.passes + 1 < o.total then s
        else match s.matPass o with
          | .error va => s.unlessFull (fun s => s.endMat o 2 (some (State.failAt .poison va .load 0)) false)
          | .ok s1 => s1.endMat o 2 none false)

/-! Matrix–vector multiplication in the stacks (R155 to R158, R127). -/

namespace State

/-- The 64 KiB pages of an MGV's panel (R156). -/
def panelPages (o : MOp) : List Nat := (span 0 (ceilDiv (o.r * o.n * 256) 65536)).map (fun i => o.bAddr + 65536 * i)

/-- The stack of a physical page: its module, and the channels that share a stack (R13, R170). -/
def stackOf (pa : Nat) : Nat × Nat := (pa / 2 ^ 48, pa / 2 ^ 16 % 512 / 32)

/-- The panel's pages translated (R181): the pages, or the first failure with its address. A page of 1 GiB maps to every channel of the
module (R156, R169). -/
def panelWalk (s : State) (o : MOp) : List Nat → State × Except EngineFail (List (Nat × Nat × Nat))
  | [] => (s, .ok [])
  | va :: rest =>
    let sp := s.space o.sid
    if 2 ^ 57 ≤ va then (s, .error (failAt .accv va .load 0))
    else
      let r := s.translate (dieOf o.gid) sp.1 sp.2 va .load
      match r.1 with
      | .fail c l => (r.2, .error (failAt c va .load l))
      | .page b size pa _ _ =>
        let p := pa + (va - b)
        match targetFault r.2 false (.loadRow 0 64 0) p 256 with
        | some c => (r.2, .error (failAt c va .load (sizeLevel size)))
        | none =>
          if targetOf (p % 2 ^ 48) ≠ .hbm ∨ size = 2 ^ 30 then (r.2, .error (failAt .accv va .load (sizeLevel size)))
          else
            let q := r.2.panelWalk o rest
            match q.2 with
            | .error e => (q.1, .error e)
            | .ok ps =>
              match ps with
              | (va2, _, p2) :: _ =>
                if stackOf p2 = stackOf p then (q.1, .ok ((va, Nat.min size 65536, p) :: ps)) else (q.1, .error (failAt .accv va2 .load 0))
              | [] => (q.1, .ok [(va, Nat.min size 65536, p)])

/-- Where a panel address lies, by the pages taken at the start. -/
def panelCell (o : MOp) (va : Nat) : Nat :=
  match o.pages.find? (fun x => decide (x.1 ≤ va) && decide (va < x.1 + 65536)) with
  | some x => x.2.2 + (va - x.1)
  | none => 0

/-- The MGV that a core's queue would start next (R157). -/
def mgvHead (s : State) (gid : Nat) : Option MOp :=
  match (s.core gid).gq.find? (fun o => !o.started) with
  | some o => if s.matEligible o then some o else none
  | none => none

/-- The stack that an MGV's panel begins in, as its translation stands. -/
def mgvStack (s : State) (o : MOp) : Option (Nat × Nat) :=
  ((s.translate (dieOf o.gid) (s.space o.sid).1 (s.space o.sid).2 o.bAddr .load).1.pa? o.bAddr).map stackOf

/-- An MGV changed. -/
def updMgv (s : State) (gid id : Nat) (f : MOp → MOp) : State :=
  s.updCore gid (fun c => { c with gq := c.gq.map (fun x => if x.id = id then f x else x) })

/-- The words that an MGV reads: A rows, panel rows with their scales, and the tile unless it is overwritten. -/
def mgvReads (o : MOp) : List (Nat × Nat × Nat) :=
  (span 0 o.m).map (fun i => (windowCell o.gid (o.aAddr + i * o.aStride), mgvRow o, o.aAddr + i * o.aStride)) ++
  (span 0 (o.r * o.n)).map (fun j => (panelCell o (o.bAddr + 256 * j), 192 + fmtK o.bfmt / 32, o.bAddr + 256 * j)) ++
  (if o.mode = 1 then [] else (tileRuns o 0 o.n).filter (fun x => (span 0 o.m).any (fun i =>
    (span 0 o.blocks).any (fun j => x.1 == o.cell i (j * o.lanes)))))

/-- An output element of an MGV (R127): one rounding per 32-element block, in ascending K across the operand rows. -/
def mgvElem (s : State) (o : MOp) (i j : Nat) : Nat :=
  let kb := fmtK o.bfmt
  let size := fmtBits o.afmt / 8
  (span 0 o.r).foldl (fun acc r =>
    let row := s.natAt (panelCell o (o.bAddr + (r * o.n + j) * 256)) 256
    (span 0 (kb / 32)).foldl (fun acc b =>
      let av := (span (r * kb + 32 * b) 32).map (fun k =>
        (fmtOf o.afmt).read (s.natAt (windowCell o.gid (o.aAddr + i * o.aStride + k * size)) size))
      accStep o acc (r == 0 && b == 0) av (stepVals o.bfmt 1 127 row b) [] []) acc) (s.tileNat o i j)

end State

/-- MGV_START (R157): a core's oldest MGV starts, in order of effective priority among those that address its stack; its panel is
translated (R156, R181). -/
def execMgvStart (core : Nat) (s : State) : Result :=
  .next (if s.power.hold then s else match s.mgvHead core with
    | none => s
    | some o =>
      let stack := s.mgvStack o
      let first := s.cores.all (fun e =>
        match s.mgvHead e.1 with
        | some p => e.1 == core || stack.isNone || s.mgvStack p != stack || !s.matBefore p o
        | none => true)
      if !first then s
      else
        let r := s.panelWalk o (State.panelPages o)
        match r.2 with
        | .error f => r.1.unlessFull (fun s => s.endMat o 3 (some f) false)
        | .ok ps => r.1.updMgv core o.id (fun x => { x with started := true, pages := ps, waited := x.waited + (s.now - x.since) }))

/-- MGV_COMPLETE (R157): one of a core's started MGVs, which one being free, returns its results; a killed one writes none. -/
def execMgvComplete (core : Nat) (s : State) : Result :=
  let f := s.takeFree
  let going := (s.core core).gq.filter (fun o => o.started)
  .next (match going[f.1 % going.length]? with
    | none => s
    | some o =>
      if o.cut then f.2.unlessFull (fun s => s.endMat o 3 none true)
      else match f.2.firstPoison (State.mgvReads o) with
        | some va => f.2.unlessFull (fun s => s.endMat o 3 (some (State.failAt .poison va .load 0)) false)
        | none =>
          ((span 0 o.m).foldl (fun s' i => s'.putTile o i 0 ((span 0 o.n).map (fun j => f.2.mgvElem o i j))) f.2).endMat o 3 none false)

end Sys2Proof.Machine
end

