-- ==== Sys2Proof/Machine/Copy.lean ====
section
/-! DEFINITION. The copy engine (R199 to R207), the lanyard's broadcasts (R211, R212), and the operations of the microcode stores and of
the sequence unit that its channels run (R299 to R302, R457). -/

namespace Sys2Proof.Machine

open Sys2Proof

/-! What an operation copies (R203, R457). -/

/-- The index of each level at innermost copy `i`, level 0 fastest. -/
def nestIndex : Nat → List CopyLevel → List Nat
  | _, [] => []
  | i, l :: ls => i % l.count :: nestIndex (i / l.count) ls

/-- A nest's address at the indices of an innermost copy; sums wrap at 64 bits (R203). -/
def nestAddr (base : Nat) (ixs : List Nat) (strides : List Word) : Nat :=
  (ixs.zip strides).foldl (fun a x => (a + x.1 * x.2.toNat) % 2 ^ 64) base

/-- How many innermost copies a plan makes (R203). -/
def XPlan.total : XPlan → Nat
  | .none => 0
  | .linear _ _ n => ceilDiv n 4096
  | .nest _ _ _ ls => ls.foldl (fun p l => p * l.count) 1
  | .list _ _ _ _ c _ => c
  | .store _ _ _ c => c

/-- The bytes of innermost copy `i`. -/
def XPlan.size (i : Nat) : XPlan → Nat
  | .none => 0
  | .linear _ _ n => Nat.min 4096 (n - 4096 * i)
  | .nest _ _ n _ => n
  | .list _ _ e _ _ _ => 2 ^ e
  | .store _ _ _ _ => 64

/-- The index word that innermost copy `i` reads first, if it reads one (R203). -/
def XPlan.index (i : Nat) : XPlan → Option Nat
  | .list _ _ _ x _ _ => some (x + 4 * i)
  | _ => Option.none

/-- Where innermost copy `i` reads and writes, with the index that it read (R203). A bundle of an MCW goes to a place of its own. -/
def XPlan.ends (i idx : Nat) : XPlan → Nat × Nat
  | .none => (0, 0)
  | .linear s d _ => ((s + 4096 * i) % 2 ^ 64, (d + 4096 * i) % 2 ^ 64)
  | .nest s d _ ls =>
    let ixs := nestIndex i ls
    (nestAddr s ixs (ls.map (·.ss)), nestAddr d ixs (ls.map (·.ds)))
  | .list s d e _ _ true => ((s + i * 2 ^ e) % 2 ^ 64, (d + idx * 2 ^ e) % 2 ^ 64)
  | .list s d e _ _ false => ((s + idx * 2 ^ e) % 2 ^ 64, (d + i * 2 ^ e) % 2 ^ 64)
  | .store s _ _ _ => ((s + 64 * i) % 2 ^ 64, 0)

/-- Whether a plan may read AM rows, which a late landing then holds (R68). -/
def XPlan.readsAm : XPlan → Bool
  | .linear s _ n => decide (s < 0x8100000) && decide (0x8000000 < s + n)
  | .nest _ _ _ _ => true
  | .list s _ _ _ _ _ => decide (s < 0x8100000)
  | .store s _ _ c => decide (s < 0x8100000) && decide (0x8000000 < s + 64 * c)
  | .none => false

/-- The beats of a plan, at least one for each innermost copy (R206). -/
def XPlan.beats (p : XPlan) : Nat := p.total * ceilDiv (p.size 0) 256

/-! Issue (R201). -/

/-- The key of a channel's nest level in a strand (R202). -/
def nestKey (ch lv : Nat) : Nat := 6 * ch + lv

/-- A level at dispatch: count 1, strides 0 (R202). -/
def CopyLevel.idle : CopyLevel := ⟨1, 0, 0⟩

/-- The six levels of a channel (R202). -/
def Strand.copyNest (t : Strand) (ch : Nat) : List CopyLevel := (span 0 6).map (fun l => t.cnest.get CopyLevel.idle (nestKey ch l))

namespace State

/-- An operation of the acting strand on its channel, as its issue captures it. -/
def copyOp (s : State) (o : XFields) (kind : XKind) (plan : XPlan) : XOp :=
  { id := s.nextId
    pos := s.posId
    kind := kind
    sid := s.cur
    task := s.me.task
    stamp := s.stampOf s.cur
    vcc := s.me.vcc
    a1 := s.me.val o.g1.toNat
    a2 := s.me.val o.g2.toNat
    a3 := s.me.val o.g3.toNat
    plan := plan
    total := plan.total
    next := 0
    places := none
    written := 0
    carry := []
    prod := o.prod.toNat
    cons := [o.c1.toNat, o.c2.toNat, o.c3.toNat]
    started := false
    since := s.now
    fail := none
    cut := false }

/-- An operation put into its channel, with Produce (R199, R208). -/
def pushCopy (s : State) (ch : Nat) (op : XOp) : State :=
  ((s.newId.2).updMe (fun t => t.produce op.prod)).updCore (gidOf s.cur) (fun c =>
    { c with chans := c.chans.set ch (c.chans.get [] ch ++ [op]) })

/-- The issue of an X-slot operation: POISON, then its own tests, then TOKOVF (R201). -/
def copyIssue (s : State) (o : XFields) (regs : List Nat) (rest : List (Bool × TrapClass × FaultInfo)) (f : State → State) : State :=
  s.tests ([(regs.any (fun r => s.me.pois r), .poison, noInfo)] ++ rest ++ [(s.me.overflows o.prod.toNat, .tokovf, noInfo)]) f

/-- The value of a register that the acting strand names. -/
def num (s : State) (r : BitVec 6) : Nat := (s.me.val r.toNat).toNat

end State

/-- CPY (R203, R406). -/
def execCpy (o : XFields) (s : State) : Result :=
  .next (s.copyIssue o [o.g1.toNat, o.g2.toNat, o.g3.toNat] [(decide (2 ^ 32 ≤ s.num o.g3), .illshape, noInfo)]
    (fun s => s.pushCopy o.ch.toNat (s.copyOp o .copy (.linear (s.num o.g1) (s.num o.g2) (s.num o.g3)))))

/-- CPYN (R202, R409): the produce field is the level. -/
def execCpyn (o : XFields) (s : State) : Result :=
  .next (s.tests [([o.g1.toNat, o.g2.toNat, o.g3.toNat].any (fun r => s.me.pois r), .poison, noInfo),
      (decide (2 ^ 32 ≤ s.num o.g1), .illshape, noInfo)]
    (fun s => s.updMe (fun t => { t with
      cnest := t.cnest.set (nestKey o.ch.toNat o.prod.toNat) ⟨(t.val o.g1.toNat).toNat, t.val o.g2.toNat, t.val o.g3.toNat⟩ })))

/-- CPYGO (R202, R203, R408). -/
def execCpygo (o : XFields) (s : State) : Result :=
  .next (s.copyIssue o [o.g1.toNat, o.g2.toNat, o.g3.toNat] [(s.num o.g3 == 0 || decide (4096 < s.num o.g3), .illshape, noInfo)]
    (fun s => s.pushCopy o.ch.toNat
      (s.copyOp o .copy (.nest (s.num o.g1) (s.num o.g2) (s.num o.g3) (s.me.copyNest o.ch.toNat)))))

/-- CPYG (R203, R407) with its descriptor (Table 8-2). -/
def execCpyg (o : XFields) (s : State) : Result :=
  let d := s.num o.g3
  let list := d % 2 ^ 32
  let count := fieldN d 32 12
  let esz := fieldN d 44 4
  .next (s.copyIssue o [o.g1.toNat, o.g2.toNat, o.g3.toNat]
    [(fieldN d 49 15 != 0 || decide (12 < esz), .illshape, noInfo),
     (list % 4 != 0, .align, State.atVa list .load),
     ((span 0 count).any (fun i => !s.inScratch s.cur (list + 4 * i) 4), .accv, State.atVa list .load)]
    (fun s => s.pushCopy o.ch.toNat (s.copyOp o .copy (.list (s.num o.g1) (s.num o.g2) esz list count (bitAt d 48)))))

/-- DRAIN (R207, R413): the g1 field is the scope. -/
def execDrain (o : XFields) (s : State) : Result :=
  .next (s.copyIssue o [] [] (fun s => s.pushCopy o.ch.toNat (s.copyOp o (.drain o.g1.toNat) .none)))

/-- MCW (R457). -/
def execMcw (o : XFields) (s : State) : Result :=
  let src := s.num o.g1
  let w := s.num o.g2
  let n := s.num o.g3
  let index := w % 65536
  let cl := fieldN w 16 7
  .next (s.copyIssue o [o.g1.toNat, o.g2.toNat, o.g3.toNat]
    [(fieldN w 23 41 != 0 || n == 0 || decide (4096 < n) || decide (79 < cl) || decide (65536 < index + n), .illshape, noInfo),
     (src % 64 != 0, .align, State.atVa src .load),
     (!isCtrl s.cur && decide (index < 0x800), .accv, noInfo)]
    (fun s => s.pushCopy o.ch.toNat (s.copyOp o .mcw (.store src cl index n))))

/-- KVCP (R299, R439). -/
def execKvcp (o : XFields) (s : State) : Result :=
  let g3 := s.num o.g3
  .next (s.copyIssue o [o.g1.toNat, o.g2.toNat, o.g3.toNat]
    [(fieldN g3 32 31 != 0 || (bitAt g3 63 && s.num o.g2 != 0), .illshape, noInfo)]
    (fun s => s.pushCopy o.ch.toNat (s.copyOp o .kvcp .none)))

/-- PFXL (R301, R477). -/
def execPfxl (o : XFields) (s : State) : Result :=
  .next (s.copyIssue o [o.g1.toNat, o.g2.toNat, o.g3.toNat] [(fieldN (s.num o.g3) 48 16 != 0, .illshape, noInfo)]
    (fun s => s.pushCopy o.ch.toNat (s.copyOp o .pfxl .none)))

/-- PFXI (R302, R476). -/
def execPfxi (o : XFields) (s : State) : Result :=
  .next (s.copyIssue o [o.g1.toNat, o.g2.toNat, o.g3.toNat] [(fieldN (s.num o.g3) 48 16 != 0, .illshape, noInfo)]
    (fun s => s.pushCopy o.ch.toNat (s.copyOp o .pfxi .none)))

/-- A braid's broadcasts after one more: of one step the lowest member's stands, and those too old for any LATCH go (R212, R213). -/
def putBcast (bs : List Bcast) (b : Bcast) : List Bcast :=
  let kept := bs.filter (fun x => decide (b.vcc ≤ x.vcc + 3))
  if kept.any (fun x => x.vcc == b.vcc && decide (x.member ≤ b.member)) then kept
  else kept.filter (fun x => x.vcc != b.vcc) ++ [b]

/-- BCAST (R211, R212, R390): the channel field is the size code. -/
def execBcast (o : XFields) (s : State) : Result :=
  let a := s.num o.g1
  let n := rowBytes o.ch.toNat
  .next (s.tests [(s.me.pois o.g1.toNat, .poison, noInfo), (a % 64 != 0, .align, State.atVa a .load),
      (decide (0x400000 < a + n), .accv, State.atVa a .load)]
    (fun s =>
      let c := spadBase (gidOf s.cur) + a
      let m := s.withQueued (s.me.before s.posId).wq
      match s.me.braid with
      | some b => match s.braids.get? b with
        | some x => { s with braids := s.braids.set b { x with
            bcasts := putBcast x.bcasts ⟨s.me.vcc, s.me.member, m.bytesAt c n, m.poisonAt c n⟩ } }
        | none => s
      | none => s))

/-! What a channel does (R204 to R207). -/

/-- Bytes as a copy in ascending order gives them, where the destination begins within the source (R205). -/
def ascending {α : Type} (src dst : Nat) (l : List α) : List α :=
  if src < dst ∧ dst < src + l.length then
    (span 0 l.length).filterMap (fun j => (l.take (dst - src))[j % (dst - src)]?)
  else l

/-- A run of places without its first `n` bytes. -/
def dropPieces : Nat → List (Nat × Nat) → List (Nat × Nat)
  | _, [] => []
  | n, p :: ps => if p.2 ≤ n then dropPieces (n - p.2) ps else (p.1 + n, p.2 - n) :: ps

/-- The first `n` bytes of a run of places. -/
def takePieces : Nat → List (Nat × Nat) → List (Nat × Nat)
  | _, [] => []
  | n, p :: ps => if n = 0 then [] else (p.1, Nat.min n p.2) :: takePieces (n - p.2) ps

namespace State

/-- Bytes written to a run of places with their poison (R194, R195). -/
def writeCells (s : State) : List (Nat × Nat) → List Byte → List Bool → State
  | [], _, _ => s
  | p :: ps, bs, po => (s.write (homeOf p.1) (bs.take p.2) (po.take p.2)).writeCells ps (bs.drop p.2) (po.drop p.2)

/-- The index that a CPYG reads before an element, or the element's failure (R203). -/
def copyIndex (s : State) (o : XOp) : Except EngineFail Nat :=
  match o.plan.index o.next with
  | none => .ok 0
  | some va =>
    if !s.inScratch o.sid va 4 then .error ⟨.accv, va, Kind.load.code, 0⟩
    else
      let c := windowCell (gidOf o.sid) va
      if s.poisonIn c 4 then .error ⟨.poison, va, Kind.load.code, 0⟩ else .ok (s.natAt c 4)

/-- The places of an operation's next innermost copy (R203, R204). -/
def innerPlaces (s : State) (o : XOp) : State × Except EngineFail (List (Nat × Nat) × List (Nat × Nat)) :=
  match s.copyIndex o with
  | .error f => (s, .error f)
  | .ok idx =>
    let e := o.plan.ends o.next idx
    let n := o.plan.size o.next
    let r := s.copyPlaces o.sid o.stamp e.1 n false
    match r.2 with
    | .error f => (r.1, .error f)
    | .ok src =>
      match o.plan with
      | .store _ cl i _ => (r.1, .ok (src, [(ucodeBase s.module cl + 64 * (i + o.next), 64)]))
      | _ =>
        let w := r.1.copyPlaces o.sid o.stamp e.2 n true
        match w.2 with
        | .error f => (w.1, .error f)
        | .ok dst => (w.1, .ok (src, dst))

/-- Where a beat ends that begins at byte `at_` of an innermost copy of `size` bytes: after up to 256 bytes, at the end of an aligned
8-byte word of the destination, which is written at one instant (R206, R231). -/
def beatEnd (dst : List (Nat × Nat)) (at_ size : Nat) : Nat :=
  let a := (dst.headD (0, 0)).1
  if size ≤ at_ + 256 then size else at_ + 256 - (a + at_ + 256) % 8

/-- How far a beat reads whose writes end at byte `to_`: to the end of the aligned 8-byte word of the source, which is read at one
instant (R231). -/
def readEnd (src : List (Nat × Nat)) (to_ size : Nat) : Nat :=
  let a := (src.headD (0, 0)).1
  Nat.min size (to_ + (8 - (a + to_) % 8) % 8)

/-- One beat of an innermost copy (R205, R206): `carry` are the bytes from `at_` on that the beat before has read, and what this one
reads beyond its writes is carried on. -/
def copyBeat (s : State) (src dst : List (Nat × Nat)) (at_ size : Nat) (carry : List (Byte × Bool)) : State × Nat × List (Byte × Bool) :=
  let to_ := beatEnd dst at_ size
  let from_ := at_ + carry.length
  let a := takePieces (readEnd src to_ size - from_) (dropPieces from_ src)
  let d := takePieces (to_ - at_) (dropPieces at_ dst)
  let raw := carry ++ (s.readPieces a).zip (s.poisonPieces a)
  let buf := match takePieces 1 (dropPieces at_ src), d with
    | [x], [y] => ascending (homeOf x.1) (homeOf y.1) raw
    | _, _ => raw
  let out := buf.take (to_ - at_)
  (s.writeCells d (out.map (·.1)) (out.map (·.2)), to_, buf.drop (to_ - at_))

/-- A whole innermost copy of at most 4 KiB, beat after beat (R203, R205). -/
def copyInner (s : State) (src dst : List (Nat × Nat)) (size : Nat) : State :=
  (iter (fun (a : State × Nat × List (Byte × Bool)) => if size ≤ a.2.1 then a else a.1.copyBeat src dst a.2.1 size a.2.2) 20 (s, 0, [])).1

/-- A channel's operation changed. -/
def updCopy (s : State) (gid ch id : Nat) (f : XOp → XOp) : State :=
  s.updCore gid (fun c => { c with chans := c.chans.set ch ((c.chans.get [] ch).map (fun o => if o.id = id then f o else o)) })

/-- A channel's operation gone. -/
def delCopy (s : State) (gid ch id : Nat) : State :=
  s.updCore gid (fun c => { c with chans := c.chans.set ch ((c.chans.get [] ch).filter (fun o => o.id != id)) })

/-- The operation of a channel with an identity. -/
def chanOp (s : State) (gid ch id : Nat) : Option XOp := ((s.core gid).chans.get [] ch).find? (fun o => o.id == id)

/-- Whether a started operation lets the next of its channel start (R206, R207). -/
def copyPassed (s : State) (o : XOp) : Bool :=
  o.started && (match o.kind with
    | .drain _ => false
    | _ => o.fail.isSome || o.next == o.total || decide (o.since + o.plan.beats ≤ s.now))

/-- The operations of a channel before the first that has not started, and that one. -/
def firstWaiting : List XOp → List XOp → Option (List XOp × XOp)
  | _, [] => none
  | pre, o :: os => if o.started then firstWaiting (pre ++ [o]) os else some (pre, o)

/-- An operation leaves its channel and completes; a report waits for room in the ring (R206, R318). -/
def endCopy (s : State) (gid ch : Nat) (o : XOp) : State :=
  let done (s : State) : State := ((s.delCopy gid ch o.id).releaseParts (1, o.id) none).finishOp o.stamp 4 o.sid o.task o.prod o.next o.fail o.cut
  if o.fail.isSome || o.cut then s.unlessFull done else done s

/-- What the unit does for a KVCP, PFXL or PFXI, as one step of all its changes (R277). -/
def unitEffect (s : State) (o : XOp) : UnitRes :=
  let root := (s.stampSpace o.sid o.stamp).2
  match o.kind with
  | .kvcp => s.kvcpEffect root o.a1.toNat o.a2.toNat o.a3.toNat
  | .pfxl => s.pfxlEffect o.sid o.stamp root o.a1.toNat o.a2.toNat o.a3.toNat
  | _ => s.pfxiEffect o.sid o.stamp root o.a1.toNat o.a2.toNat o.a3.toNat

end State

/-- COPY_OP_START (R206): the channel's next operation, in issue order. -/
def execCopyOpStart (core ch : Nat) (s : State) : Result :=
  .next (if s.power.hold then s else match State.firstWaiting [] ((s.core core).chans.get [] ch) with
    | none => s
    | some (pre, o) =>
      if decide (o.since < s.now) && pre.all s.copyPassed && s.consumes o.sid o.task o.cons &&
          s.released o.sid o.task o.pos o.vcc (fun _ => o.plan.readsAm) then
        s.updCopy core ch o.id (fun x => { x with started := true, since := s.now })
      else s)

/-- COPY_BEAT_WRITE (R204 to R206): an innermost copy begins with its places or its failure, and each beat is written as it
arrives, at the soonest 4 cycles after the start. -/
def execCopyBeatWrite (core ch op : Nat) (s : State) : Result :=
  .next (match s.chanOp core ch op with
    | none => s
    | some o =>
      if !o.started || o.fail.isSome || decide (o.total ≤ o.next) || decide (s.now < o.since + 4) || (o.cut && o.places.isNone) then s
      else
        let go (s : State) (src dst : List (Nat × Nat)) (at_ : Nat) : State :=
          let size := o.plan.size o.next
          let r := (s.noteParts (1, op) (takePieces (State.beatEnd dst at_ size - at_) (dropPieces at_ dst))).copyBeat src dst at_ size o.carry
          if size ≤ r.2.1 then r.1.updCopy core ch op (fun x => { x with next := o.next + 1, places := none, written := 0, carry := [] })
          else r.1.updCopy core ch op (fun x => { x with places := some (src, dst), written := r.2.1, carry := r.2.2 })
        match o.places with
        | some (src, dst) => go s src dst o.written
        | none =>
          let r := s.innerPlaces o
          match r.2 with
          | .error f => r.1.updCopy core ch op (fun x => { x with fail := some f })
          | .ok (src, dst) => go r.1 src dst 0)

/-- COPY_OP_COMPLETE (R204, R206, R207, Table 12-4): an operation ends when all is written, where it failed, or where a kill cut
it; the operations of the sequence unit perform here. -/
def execCopyOpComplete (core ch op : Nat) (s : State) : Result :=
  .next (match s.chanOp core ch op with
    | none => s
    | some o =>
      if !o.started || decide (s.now ≤ o.since) then s
      else match o.kind with
      | .drain _ => s
      | .copy => if o.fail.isSome || (o.places.isNone && (o.cut || decide (o.total ≤ o.next))) then
          s.endCopy core ch { o with cut := o.cut && decide (o.next < o.total) } else s
      | .mcw => if o.fail.isSome || (o.places.isNone && (o.cut || decide (o.total ≤ o.next))) then
          s.endCopy core ch { o with cut := o.cut && decide (o.next < o.total) } else s
      | _ =>
        match s.unitEffect o with
        | .done s1 => s1.endCopy core ch { o with cut := false }
        | .canc => (s.delCopy core ch op).completeTok o.sid o.task o.prod true
        | .fail f => s.endCopy core ch { o with fail := some f })

/-- DRAIN_COMPLETE (R207, Table 12-4): nothing earlier of the strand stands on the channel, nor, once its strand is killed, anything
earlier at all. -/
def execDrainComplete (core ch : Nat) (s : State) : Result :=
  .next (match ((s.core core).chans.get [] ch).find? (fun o => match o.kind with
      | .drain _ => o.started || (s.strand o.sid).task != o.task
      | _ => false) with
    | none => s
    | some o =>
      let before := ((s.core core).chans.get [] ch).filter (fun x => decide (x.id < o.id))
      let mine := before.filter (fun x => x.sid == o.sid && x.task == o.task)
      if (s.strand o.sid).task = o.task then
        if mine.isEmpty then s.endCopy core ch { o with cut := false } else s
      else if before.isEmpty then s.endCopy core ch { o with cut := false }
      else s)

end Sys2Proof.Machine
end

