-- ==== Sys2Proof/Machine/Comm.lean ====
section
/-! DEFINITION. The communication unit (R214 to R218, R554, R555): transfers between the members of a braid, the rendezvous between
modules, and collective plans (R219, R220). -/

namespace Sys2Proof.Machine

open Sys2Proof

/-! What a transfer is. -/

/-- Whether an operation is timed by the steps of the strand's VCC (R215). -/
def NOp.timed (o : NOp) : Bool :=
  match o.kind with
  | .send => true
  | .recv => true
  | .recva _ => true
  | _ => false

/-- Whether an operation sends (R215). -/
def NOp.sends (o : NOp) : Bool := o.kind == .send

/-- The element size of a RECVA type; the others move words of 4 bytes (R215). -/
def NKind.elem : NKind → Nat
  | .recva ty => if ty = 1 then 8 else 4
  | _ => 4

/-- The ring hops between two cores of a cluster (R215). -/
def ringHops (a b : Nat) : Nat :=
  let d := if a % 8 ≤ b % 8 then b % 8 - a % 8 else a % 8 - b % 8
  Nat.min d (8 - d)

/-- The step of an operation's next beat or completion (R215). -/
def NOp.due (o : NOp) : Nat :=
  if !o.paired then o.issued + o.lat
  else if o.sends then o.issued + ceilDiv o.len 256
  else o.issued + o.lat + o.beats

/-- The type of R369 that an element type of RECVA and REDUCE adds by (R216). -/
def addType (ty : Nat) : Nat := if ty = 0 then 2 else if ty = 1 then 3 else 0

/-- Elements added into elements (R216). -/
def addElems (ty : Nat) (old new : List Byte) : List Byte :=
  let e := if ty = 1 then 8 else 4
  ((chunks e old).zip (chunks e new)).foldr (fun x acc =>
    leBytes e ((atomicFn 0x10 (addType ty) (leNat x.1) (leNat x.2) 0).getD 0) ++ acc) []

namespace State

/-- An operation of the acting strand on its communication unit, as its issue captures it. -/
def commOp (s : State) (o : NFields) (kind : NKind) : NOp :=
  { id := s.nextId
    pos := s.posId
    kind := kind
    sid := s.cur
    task := s.me.task
    stamp := s.stampOf s.cur
    peer := o.peer.toNat
    addr := (s.me.val o.g1.toNat).toNat
    len := (s.me.val o.g2.toNat).toNat
    key := (s.me.val o.g3.toNat).toNat
    tag := o.tag.toNat
    bases := [s.me.val o.g1.toNat, s.me.val o.g2.toNat, s.me.val o.g3.toNat]
    prod := o.prod.toNat
    cons := o.cons.toNat
    issued := s.me.vcc
    data := []
    dataPo := []
    lat := 8
    beats := 0
    paired := false
    post := none
    started := kind != .rtr && kind != .put && (match kind with
      | .cpln _ => false
      | _ => true)
    cut := false }

/-- An operation put into the unit, with Produce (R208, R214). -/
def pushComm (s : State) (op : NOp) : State :=
  ((s.newId.2).updMe (fun t => t.produce op.prod)).updCore (gidOf s.cur) (fun c => { c with nq := c.nq ++ [op] })

/-- An operation of a unit changed, or gone. -/
def updComm (s : State) (gid id : Nat) (f : NOp → NOp) : State :=
  s.updCore gid (fun c => { c with nq := c.nq.map (fun o => if o.id = id then f o else o) })
def delComm (s : State) (gid id : Nat) : State := s.updCore gid (fun c => { c with nq := c.nq.filter (fun o => o.id != id) })
def commAt (s : State) (gid id : Nat) : Option NOp := (s.core gid).nq.find? (fun o => o.id == id)

/-- An operation ends: it leaves the unit and completes (R66, R181, R318, Table 12-4). -/
def finComm (s : State) (o : NOp) (kind index : Nat) (fail : Option EngineFail) (cut : Bool) : State :=
  (s.delComm (gidOf o.sid) o.id).finishOp o.stamp kind o.sid o.task o.prod index fail cut

/-- The same, held while its report finds the ring full (R318). -/
def endComm (s : State) (o : NOp) (kind index : Nat) (fail : Option EngineFail) (cut : Bool) : State :=
  if fail.isSome || cut then s.unlessFull (fun s => s.finComm o kind index fail cut) else s.finComm o kind index fail cut

/-- An operation completes with CANC set and no report. -/
def cancComm (s : State) (o : NOp) : State := (s.delComm (gidOf o.sid) o.id).completeTok o.sid o.task o.prod true

/-! Transfers in a braid (R215, R216). -/

/-- The strand of the braid member that the acting strand names as its peer, if that is another member (R215). -/
def peerOf (s : State) (peer : Nat) : Option Nat :=
  match (s.gang s.cur)[peer]? with
  | some sid => if s.me.braid.isSome && sid != s.cur then some sid else none
  | none => none

/-- Whether two operations match (R215). -/
def pairs (o p : NOp) (oMember : Nat) (peer : Nat) : Bool :=
  p.timed && !p.paired && p.sid == peer && p.task == o.task && p.issued == o.issued && p.peer == oMember && (p.sends != o.sends) &&
  p.tag == o.tag && p.len == o.len

/-- A SEND or RECV put into the unit: its fixed latency, and its match if the peer's has issued at this step (R215). -/
def issueTransfer (s : State) (op : NOp) : State :=
  match s.peerOf op.peer with
  | none => s.pushComm op
  | some peer =>
    let op1 := { op with lat := 8 + 2 * (ringHops (gidOf s.cur) (gidOf peer) - 1) }
    match (s.core (gidOf peer)).nq.find? (fun p => pairs op1 p s.me.member peer) with
    | none => s.pushComm op1
    | some p =>
      let s1 := s.updComm (gidOf peer) p.id (fun p => if p.sends then { p with paired := true }
        else { p with paired := true, data := op1.data, dataPo := op1.dataPo })
      s1.pushComm (if op1.sends then { op1 with paired := true } else { op1 with paired := true, data := p.data, dataPo := p.dataPo })

/-- The tests of a SEND or RECV at its issue (R201, R215). -/
def transferTests (s : State) (o : NFields) (e : Nat) (kind : Kind) (f : State → State) : State :=
  let a := (s.me.val o.g1.toNat).toNat
  let n := (s.me.val o.g2.toNat).toNat
  s.tests [([o.g1.toNat, o.g2.toNat].any (fun r => s.me.pois r), .poison, noInfo),
    (decide (n < 4) || decide (4096 < n) || n % e != 0, .illshape, noInfo),
    (a % e != 0, .align, State.atVa a kind), (decide (0x400000 < a + n), .accv, State.atVa a kind),
    (s.me.overflows o.prod.toNat, .tokovf, noInfo)] f

/-- One beat of a transfer, or its completion (R215, R216). -/
def transferOne (s : State) (o : NOp) : State :=
  if !o.paired || o.sends then (s.delComm (gidOf o.sid) o.id).completeTok o.sid o.task o.prod (!o.paired)
  else
    let at_ := 256 * o.beats
    let c := spadBase (gidOf o.sid) + o.addr + at_
    let bs := (o.data.drop at_).take 256
    let po := (o.dataPo.drop at_).take 256
    let s1 := match o.kind with
      | .recva ty => s.write c (addElems ty (s.bytesAt c bs.length) bs)
          (((s.poisonAt c bs.length).zip po).map (fun (x : Bool × Bool) => x.1 || x.2))
      | _ => s.write c bs po
    if o.len ≤ at_ + 256 then (s1.delComm (gidOf o.sid) o.id).completeTok o.sid o.task o.prod false
    else s1.updComm (gidOf o.sid) o.id (fun x => { x with beats := x.beats + 1 })

/-- The next timed effect of a strand's transfers that is due at a step. -/
def dueTransfer (s : State) (sid vcc : Nat) : Option NOp :=
  bestBy (fun a b => decide (a.due < b.due)) ((s.core (gidOf sid)).nq.filter (fun o =>
    o.timed && !o.cut && o.sid == sid && o.task == (s.strand sid).task && decide (o.due ≤ vcc)))

/-- The timed effects of a strand's transfers that its VCC has reached, in the order of their steps (R208, R215, R555). -/
def transfers (s : State) (sid : Nat) : State :=
  iter (fun s => match s.dueTransfer sid (s.strand sid).vcc with
    | some o => s.transferOne o
    | none => s) (17 * (s.core (gidOf sid)).nq.length) s

/-- Whether a strand's transfers go on in cycles, with no step left to time them: its task has ended, or is being saved (R555). -/
def pastSteps (s : State) (sid : Nat) : Bool :=
  let k := s.taskOf sid
  k.status == .ended || k.status == .frozenEnd || k.saving.isSome

end State

/-- SEND (R215, R494): the source is read at this step, as a load of the step would read it. -/
def execSend (o : NFields) (s : State) : Result :=
  .next (s.transferTests o 4 .load (fun s =>
    let op := s.commOp o .send
    let c := spadBase (gidOf s.cur) + op.addr
    let m := s.withQueued (s.me.before s.posId).wq
    s.issueTransfer { op with data := m.bytesAt c op.len, dataPo := m.poisonAt c op.len }))

/-- RECV (R215, R482). -/
def execRecv (o : NFields) (s : State) : Result :=
  .next (s.transferTests o 4 .store (fun s => s.issueTransfer (s.commOp o .recv)))

/-- RECVA (R215, R216, R483): the g3 field is the type. -/
def execRecva (o : NFields) (s : State) : Result :=
  let kind : NKind := .recva o.g3.toNat
  .next (s.transferTests o kind.elem .store (fun s => s.issueTransfer (s.commOp o kind)))

/-- TRANSFER_BEAT (R215, R555, Table 12-4): the next timed effect of a core's transfers at its step, or at once where no step is
left; a killed transfer stops. -/
def execTransferBeat (core : Nat) (s : State) : Result :=
  .next (match (s.core core).nq.find? (fun o => o.timed && o.cut) with
    | some o => s.endComm o 5 0 none true
    | none =>
      match bestBy (fun a b => decide (a.due < b.due)) ((s.core core).nq.filter (fun o =>
        o.timed && (s.pastSteps o.sid || decide (o.due ≤ (s.strand o.sid).vcc)))) with
      | some o => s.transferOne o
      | none => s)

/-! Rendezvous (R217, R218). -/

/-- Whether a key is malformed (R217). -/
def keyBad (k : Nat) : Bool := decide (287 < k % 512) || fieldN k 9 7 != 0 || fieldN k 32 32 != 0

/-- The module and the tag of a key (R217). -/
def keyPeer (k : Nat) : Nat := k % 512
def keyTag (k : Nat) : Nat := fieldN k 16 16

namespace State

/-- The tests of an RTR or PUT at its issue (R201, R217). -/
def rendezvousTests (s : State) (o : NFields) (rtr : Bool) (f : State → State) : State :=
  let a := (s.me.val o.g1.toNat).toNat
  let n := (s.me.val o.g2.toNat).toNat
  s.tests [([o.g1.toNat, o.g2.toNat, o.g3.toNat].any (fun r => s.me.pois r), .poison, noInfo),
    (n == 0 || decide (2 ^ 30 < n) || keyBad (s.me.val o.g3.toNat).toNat, .illshape, noInfo),
    (rtr && decide (a < 2 ^ 32), .accv, State.atVa a .store), (s.me.overflows o.prod.toNat, .tokovf, noInfo)] f

/-- The places of a posted buffer, or the failure of its translation (R181, R218). -/
def postPlaces (s : State) (p : Post) (n : Nat) : State × Except EngineFail (List (Nat × Nat)) :=
  if 2 ^ 57 < p.addr + n then (s, .error (failAt .accv p.addr .store 0))
  else
    let r := transAll (dieOf p.core) p.asid p.root .store (pageCut p.addr n) s
    match r.2 with
    | .error (c, fva, l) => (r.1, .error (failAt c fva .store l))
    | .ok ps =>
      match ps.findSome? (fun x => (copyFault r.1 false true x.1).map (fun c => (c, x.2.2.1, x.2.2.2))) with
      | some (c, fva, l) => (r.1, .error (failAt c fva .store l))
      | none => (r.1, .ok (ps.map (fun x => (x.1, x.2.1))))

/-- Bytes arriving in a posted buffer: written, or added by a REDUCE (R216, R218, R220). -/
def landPost (s : State) (p : Post) (ps : List (Nat × Nat)) (bs : List Byte) (po : List Bool) : State :=
  match p.red with
  | none => s.writeCells ps bs po
  | some ty => s.writeCells ps (addElems ty (s.readPieces ps) bs) (((s.poisonPieces ps).zip po).map (fun (x : Bool × Bool) => x.1 || x.2))

/-- `n` free bytes, which another module sends (R217). -/
def freeBytes (s : State) (n : Nat) : List Byte := (span s.free n).map (fun i => BitVec.ofNat 8 (Config.freeNat i))

/-- What a transfer from another module brings into a posted buffer (R217, R218): nothing where the PUT is longer than the post; else
free bytes of a free length. Whether it succeeded. -/
def remotePut (s : State) (p : Post) : State × Except EngineFail Bool :=
  let f := s.takeFree
  let n := f.1 % 2 ^ 30 + 1
  if p.len < n then (f.2, .ok false)
  else
    let r := f.2.postPlaces p n
    match r.2 with
    | .error e => (r.1, .error e)
    | .ok ps =>
      let s1 := r.1.landPost p ps (r.1.freeBytes n) []
      (({ s1 with free := s1.free + n } : State), .ok true)

/-- What a transfer to another module does there (R218): the bytes land in its memory at a free place, or the post was too short. -/
def putAway (s : State) (peer : Nat) (src : List (Nat × Nat)) (n : Nat) : State × Except EngineFail Unit :=
  let f := s.takeFree
  let g := f.2.takeFree
  if s.service.absent.contains peer then (s, .error (failFor .mchk))
  else if f.1 % 2 ^ 30 + 1 < n then (g.2, .error (failFor .accv))
  else (g.2.writeCells [(peer * 2 ^ 48 + g.1 % (2 ^ 40 - 2 ^ 30), n)] (s.readPieces src) (s.poisonPieces src), .ok ())

/-- The first 4 KiB chunks of a transfer, how many being free: what a kill lets it finish (Table 12-4). -/
def cutLength (s : State) (n : Nat) : Nat × State :=
  let f := s.takeFree
  (Nat.min n (4096 * (f.1 % (ceilDiv n 4096 + 1))), f.2)

/-- The operation that a post belongs to, on its core. -/
def postOwner (s : State) (p : Post) : Option NOp := s.commAt p.core p.nop

/-- A PUT whose post is on this module (R218): its bytes written, and the counters of both. -/
def rendezvous (s : State) (o : NOp) (p : Post) : State :=
  let other := s.postOwner p
  let cut := o.cut || (match other with
    | some q => q.cut
    | none => true)
  let endOther (s : State) (fail : Option EngineFail) (ok : Bool) : State :=
    match other with
    | none => s
    | some q => if ok then s.finComm q 5 0 none false
      else if fail.isSome || q.cut then s.finComm q 5 0 fail q.cut else s.cancComm q
  if !cut && decide (p.len < o.len) then s.unlessFull (fun s => endOther (s.finComm o 5 0 (some (failAt .accv o.addr .store 0)) false) none false)
  else
    let r := if cut then s.cutLength o.len else (o.len, s)
    let src := r.2.copyPlaces o.sid o.stamp o.addr r.1 false
    match src.2 with
    | .error f => s.unlessFull (fun _ => endOther (src.1.finComm o 5 0 (some f) false) none false)
    | .ok ps =>
      let dst := src.1.postPlaces p r.1
      match dst.2 with
      | .error f => s.unlessFull (fun _ => endOther (dst.1.cancComm o) (some f) false)
      | .ok ds =>
        let s1 := dst.1.landPost p ds (dst.1.readPieces ps) (dst.1.poisonPieces ps)
        if cut then s.unlessFull (fun _ => endOther (if o.cut then s1.finComm o 5 0 none true else s1.cancComm o) none false)
        else endOther (s1.finComm o 5 0 none false) none true

/-- Whether an operation has passed what holds its start (R68, R208, R239). -/
def commFree (s : State) (o : NOp) : Bool :=
  s.consumes o.sid o.task [o.cons] && s.released o.sid o.task o.pos o.issued (fun _ =>
    decide (o.addr < 0x8100000) && decide (0x8000000 < o.addr + o.len))

/-- Whether an earlier PUT with the same key stands unmatched in the module (R217). -/
def putBehind (s : State) (o : NOp) : Bool :=
  s.cores.any (fun e => e.2.nq.any (fun p => p.kind == .put && decide (p.id < o.id) && p.key == o.key && p.post.isNone && !p.cut))

end State

/-- RTR (R217, R489). -/
def execRtr (o : NFields) (s : State) : Result :=
  .next (s.rendezvousTests o true (fun s => s.pushComm (s.commOp o .rtr)))

/-- PUT (R217, R480). -/
def execPut (o : NFields) (s : State) : Result :=
  .next (s.rendezvousTests o false (fun s => s.pushComm (s.commOp o .put)))

/-- PUT_MATCH (R217, R332): an RTR is posted, at this module's table where the peer is this module; a PUT takes the oldest post with its
key. A post or a PUT of another module is not seen until RENDEZVOUS_COMPLETE. -/
def execPutMatch (core op : Nat) (s : State) : Result :=
  .next (match s.commAt core op with
    | none => s
    | some o =>
      match o.kind with
      | .rtr =>
        if o.started || o.cut || s.power.hold || !s.commFree o then s
        else if keyPeer o.key ≠ s.module then s.updComm core op (fun x => { x with started := true })
        else if 1024 ≤ s.posts.length then s
        else
          let sp := s.stampSpace o.sid o.stamp
          let p : Post := ⟨s.module, keyTag o.key, false, core, op, 0, o.addr, o.len, sp.1, sp.2, none⟩
          ({ s with posts := s.posts ++ [p] } : State).updComm core op (fun x => { x with started := true })
      | .put =>
        if o.cut || o.post.isSome || (!o.started && (s.power.hold || !s.commFree o)) then s
        else
          let s1 := s.updComm core op (fun x => { x with started := true })
          if keyPeer o.key ≠ s.module ∨ s.putBehind o then s1
          else match s.posts.find? (fun p => !p.plan && p.src == s.module && p.tag == keyTag o.key) with
            | none => s1
            | some p =>
              (({ s1 with posts := s1.posts.filter (fun q => q != p) } : State).updComm core op (fun x => { x with post := some p })).updComm
                p.core p.nop (fun x => { x with post := some p })
      | _ => s)

/-- RENDEZVOUS_COMPLETE (R218, Table 12-4). -/
def execRendezvousComplete (core op : Nat) (s : State) : Result :=
  .next (match s.commAt core op with
    | none => s
    | some o =>
      match o.kind, o.post with
      | .put, some p => s.rendezvous o p
      | .put, none =>
        if o.cut then s.endComm o 5 0 none true
        else if !o.started || keyPeer o.key == s.module then s
        else
          let src := s.copyPlaces o.sid o.stamp o.addr o.len false
          match src.2 with
          | .error f => s.unlessFull (fun _ => src.1.finComm o 5 0 (some f) false)
          | .ok ps =>
            let r := src.1.putAway (keyPeer o.key) ps o.len
            match r.2 with
            | .error f => s.unlessFull (fun _ => r.1.finComm o 5 0 (some f) false)
            | .ok _ => r.1.finComm o 5 0 none false
      | .rtr, none =>
        if !o.started || keyPeer o.key == s.module then s
        else if o.cut then s.endComm o 5 0 none true
        else
          let sp := s.stampSpace o.sid o.stamp
          let r := s.remotePut ⟨keyPeer o.key, keyTag o.key, false, core, op, 0, o.addr, o.len, sp.1, sp.2, none⟩
          match r.2 with
          | .error f => s.unlessFull (fun _ => r.1.finComm o 5 0 (some f) false)
          | .ok true => r.1.finComm o 5 0 none false
          | .ok false => r.1.cancComm o
      | _, _ => s)

/-! Collective plans (R219, R220). -/

/-- A plan entry (Table 8-5). -/
structure PlanEntry where
  op     : Nat
  ssel   : Nat
  dsel   : Nat
  ty     : Nat
  sig    : Nat
  need   : Nat
  wait   : Nat
  tag    : Nat
  module : Nat
  bytes  : Nat
  soff   : Nat
  doff   : Nat
deriving DecidableEq, Repr

/-- An entry from its 128 bits (Table 8-5). -/
def planEntryOf (v : Nat) : PlanEntry where
  op := v % 8
  ssel := fieldN v 3 2
  dsel := fieldN v 5 2
  ty := fieldN v 7 2
  sig := fieldN v 9 6
  need := fieldN v 15 8
  wait := fieldN v 23 6
  tag := fieldN v 29 10
  module := fieldN v 39 9
  bytes := fieldN v 48 16 * 64
  soff := fieldN v 64 32
  doff := fieldN v 96 32

/-- Whether an entry is malformed (Table 8-5, R220). The offset that only a COPY has is ignored elsewhere (R6). -/
def planBad (e : PlanEntry) : Bool :=
  decide (4 < e.op) || e.ssel == 3 || e.dsel == 3 || (e.op != 0 && e.bytes == 0) ||
  ((e.op == 1 || e.op == 2 || e.op == 3) && decide (287 < e.module))

namespace State

/-- The first entry and the count of a plan slot (R324). -/
def slotOf (s : State) (cl n : Nat) : Nat × Nat :=
  let w := ((s.cluster cl).slots.get 0 n).toNat
  (fieldN w 16 12, w % 2 ^ 13)

/-- An entry of a cluster's plan store. -/
def planAt (s : State) (cl e : Nat) : PlanEntry := planEntryOf ((s.cluster cl).plan.get 0 e).toNat

/-- Whether a slot fails its launch (R220, R324). -/
def slotBad (s : State) (cl n : Nat) : Bool :=
  let f := s.slotOf cl n
  f.2 == 0 || decide (4096 < f.1 + f.2) || (span f.1 f.2).any (fun e => planBad (s.planAt cl e))

/-- A launch changed. -/
def updLaunch (s : State) (cl id : Nat) (f : Launch → Launch) : State :=
  s.updCluster cl (fun c => { c with launches := c.launches.map (fun l => if l.id = id then f l else l) })

/-- An address of an entry: a base of the launch and an offset (R220). -/
def planAddr (l : Launch) (sel off : Nat) : Nat := ((nth (0 : Word) l.bases sel).toNat + off) % 2 ^ 64

/-- The entries of a cluster in flight (R220). -/
def planFlying (s : State) (cl : Nat) : Nat :=
  (s.cluster cl).launches.foldl (fun n l => n + (l.started.length - l.finished.length)) 0

/-- The tag under which an entry's posts stand: that of its slot (R220). -/
def planTag (l : Launch) (e : PlanEntry) : Nat := l.slot * 1024 + e.tag

/-- A launch that nothing more can happen to ends (R220, Table 12-4): all entries complete, or one failed, or the launch was killed,
and none is in flight. Held plan store writes go through (R219). -/
def closeLaunch (s : State) (cl : Nat) (l : Launch) : State :=
  if l.finished.length < l.started.length then s
  else match s.commAt l.core l.id with
    | none => s
    | some o =>
      let gone (s : State) : State :=
        (s.updCluster cl (fun c => { c with launches := c.launches.filter (fun x => x.id != l.id) })).releasePlan cl
      if o.cut then s.unlessFull (fun s => gone (s.endComm o 6 0 none true))
      else match l.failed with
        | some (_, c) => (gone ((s.cancComm o).addFail o.sid o.task (failFor c))).takeLate o.sid o.task
        | none => if l.finished.length = l.count then gone (s.endComm o 6 0 none false) else s

/-- An entry completed: its signal counter rises, saturating (Table 8-5). -/
def planDone (s : State) (cl : Nat) (l : Launch) (e : Nat) (sig : Nat) : State :=
  let l1 : Launch := { l with finished := l.finished ++ [e], counters := l.counters.set sig (Nat.min 255 (l.counters.get 0 sig + 1)) }
  (s.updLaunch cl l.id (fun _ => l1)).closeLaunch cl l1

/-- An entry failed or cut short: reported by its index, and no further entry starts (R220, Table 12-4). -/
def planFail (s : State) (cl : Nat) (l : Launch) (e : Nat) (f : EngineFail) : State :=
  match s.commAt l.core l.id with
  | none => s
  | some o =>
    let l1 : Launch := { l with
      finished := l.finished ++ [e]
      failed := match l.failed with
        | some x => some x
        | none => if o.cut then none else some (e, f.cls) }
    ((s.postReport (o.stamp.report 6 (if o.cut then .cancelled else f.cls) f.fva o.prod e)).updLaunch cl l.id (fun _ => l1)).closeLaunch
      cl l1

/-- A whole copy, 4 KiB by 4 KiB (R203, R204, R220). -/
def copyAll (s : State) (o : NOp) (src dst : Nat) : Nat → Nat → State × Option EngineFail
  | 0, _ => (s, none)
  | f + 1, n =>
    if n = 0 then (s, none)
    else
      let k := Nat.min 4096 n
      let a := s.copyPlaces o.sid o.stamp src k false
      match a.2 with
      | .error e => (a.1, some e)
      | .ok ps =>
        let d := a.1.copyPlaces o.sid o.stamp dst k true
        match d.2 with
        | .error e => (d.1, some e)
        | .ok ds => (d.1.copyInner ps ds k).copyAll o ((src + k) % 2 ^ 64) ((dst + k) % 2 ^ 64) f (n - k)

/-- The post of a RECV or REDUCE entry (R220). -/
def planPost (s : State) (cl : Nat) (l : Launch) (e : Nat) (o : NOp) : Post :=
  let x := s.planAt cl e
  let sp := s.stampSpace o.sid o.stamp
  ⟨x.module, planTag l x, true, l.core, l.id, e, planAddr l x.ssel x.soff, x.bytes, sp.1, sp.2, if x.op = 3 then some x.ty else none⟩

/-- A SEND entry as a PUT into a post of this module (R218, R220): both entries end. -/
def planSend (s : State) (cl : Nat) (l : Launch) (e : Nat) (o : NOp) (p : Post) : State :=
  let x := s.planAt cl e
  let s0 : State := { s with posts := s.posts.filter (fun q => q != p) }
  let peer (s : State) : Option (Nat × Launch) :=
    let c := p.core / 8
    ((s.cluster c).launches.find? (fun m => m.id == p.nop)).map (fun m => (c, m))
  let endPeer (s : State) (fail : Option EngineFail) : State :=
    match peer s with
    | none => s
    | some (c, m) => match fail with
      | some f => s.planFail c m p.entry f
      | none => s.planDone c m p.entry (s.planAt c p.entry).sig
  let again (s : State) : Launch := (((s.cluster cl).launches.find? (fun m => m.id == l.id)).getD l)
  if p.len < x.bytes then s.unlessFull (fun _ =>
    let s1 := s0.planFail cl l e (failFor .accv)
    endPeer s1 (some (failFor .accv)))
  else
    let src := s0.copyPlaces o.sid o.stamp (planAddr l x.ssel x.soff) x.bytes false
    match src.2 with
    | .error f => s.unlessFull (fun _ => endPeer (src.1.planFail cl l e f) (some f))
    | .ok ps =>
      let dst := src.1.postPlaces p x.bytes
      match dst.2 with
      | .error f => s.unlessFull (fun _ => endPeer (dst.1.planFail cl l e f) (some f))
      | .ok ds =>
        let s1 := endPeer (dst.1.landPost p ds (dst.1.readPieces ps) (dst.1.poisonPieces ps)) none
        s1.planDone cl (again s1) e x.sig

/-- Whether a SEND entry in flight of another launch or of this one started before an entry, of the same tag to this module: PUTs match in
the order of their issue (R217, R220). -/
def sendBehind (s : State) (cl : Nat) (l : Launch) (e : Nat) : Bool :=
  let tag := planTag l (s.planAt cl e)
  s.clusters.any (fun k => k.2.launches.any (fun m => m.started.any (fun x =>
    let y := s.planAt k.1 x.1
    y.op == 1 && y.module == s.module && planTag m y == tag && !(m.finished.contains x.1) && decide (x.2 < l.started.get 0 e))))

/-- The post of this module that a SEND entry meets: the oldest of its tag (R217, R220). -/
def planMatch (s : State) (cl : Nat) (l : Launch) (e : Nat) : Option Post :=
  if s.sendBehind cl l e then none
  else s.posts.find? (fun p => p.plan && p.src == s.module && p.tag == planTag l (s.planAt cl e))

/-- What an entry in flight still does when its launch is killed (Table 12-4): the 4 KiB chunks that it has begun, how many being free;
the entry of this module that a SEND has met ends with it. -/
def planCut (s : State) (cl : Nat) (l : Launch) (e : Nat) (o : NOp) : State :=
  let x := s.planAt cl e
  let c := s.cutLength x.bytes
  let src := planAddr l x.ssel x.soff
  let n := c.1
  if n = 0 then c.2
  else match x.op with
  | 4 => (c.2.copyAll o src (planAddr l x.dsel x.doff) (ceilDiv n 4096) n).1
  | 1 =>
    let a := c.2.copyPlaces o.sid o.stamp src n false
    (match a.2 with
    | .error _ => a.1
    | .ok ps =>
      if x.module ≠ s.module then (a.1.putAway x.module ps n).1
      else match c.2.planMatch cl l e with
      | none => c.2
      | some p =>
        let d := a.1.postPlaces p (Nat.min n p.len)
        let s1 : State := match d.2 with
          | .error _ => d.1
          | .ok ds => d.1.landPost p ds ((d.1.readPieces ps).take p.len) ((d.1.poisonPieces ps).take p.len)
        let s2 : State := { s1 with posts := s1.posts.filter (fun q => q != p) }
        match (s2.cluster (p.core / 8)).launches.find? (fun m => m.id == p.nop) with
        | some m => s2.planFail (p.core / 8) m p.entry (failFor .cancelled)
        | none => s2)
  | 0 => c.2
  | _ =>
    if x.module = s.module then c.2
    else
      let p := c.2.planPost cl l e o
      let d := c.2.postPlaces p n
      match d.2 with
      | .error _ => d.1
      | .ok ds => { d.1.landPost p ds (d.1.freeBytes n) [] with free := d.1.free + n }

end State

/-- CPLN (R220, R405): the bases are read at this step. -/
def execCpln (o : NFields) (s : State) : Result :=
  .next (s.tests [([o.g1.toNat, o.g2.toNat, o.g3.toNat].any (fun r => s.me.pois r), .poison, noInfo),
      (s.me.overflows o.prod.toNat, .tokovf, noInfo)]
    (fun s => s.pushComm { s.commOp o (.cpln (o.peer.toNat % 16)) with addr := 0, len := 0 }))

/-- PLAN_ENTRY_START (R220): a waiting CPLN becomes a launch, at most 4 in a cluster, or fails for a malformed slot; and a launch
starts its lowest eligible entry, at most 8 of the cluster being in flight. -/
def execPlanEntryStart (cluster launch : Nat) (s : State) : Result :=
  .next (if s.power.hold then s else match (s.cluster cluster).launches.find? (fun l => l.id == launch) with
    | none =>
      match (span (8 * cluster) 8).findSome? (fun g => (s.commAt g launch).map (fun o => (g, o))) with
      | none => s
      | some (g, o) =>
        match o.kind with
        | .cpln slot =>
          if o.started || o.cut || !s.commFree o then s
          else if s.slotBad cluster slot then s.endComm o 6 0 (some (State.failFor .illenc)) false
          else if 4 ≤ (s.cluster cluster).launches.length then s
          else
            let f := s.slotOf cluster slot
            (s.updComm g launch (fun x => { x with started := true })).updCluster cluster (fun c =>
              { c with launches := c.launches ++ [⟨launch, g, slot, f.1, f.2, o.bases, [], [], [], none⟩] })
        | _ => s
    | some l =>
      match s.commAt l.core l.id with
      | none => s
      | some o =>
        if o.cut || l.failed.isSome then s.closeLaunch cluster l
        else if 8 ≤ s.planFlying cluster then s
        else
          let ready (e : Nat) : Bool :=
            let x := s.planAt cluster e
            (l.started.get? e).isNone && decide (x.need ≤ l.counters.get 0 x.wait)
          match (span l.first l.count).find? ready with
          | none => s
          | some e =>
            let x := s.planAt cluster e
            let go (s : State) : State :=
              let n := s.newId
              n.2.updLaunch cluster l.id (fun l => { l with started := l.started.set e n.1 })
            if (x.op = 2 ∨ x.op = 3) ∧ x.module = s.module then
              if 1024 ≤ s.posts.length then s else go { s with posts := s.posts ++ [s.planPost cluster l e o] }
            else go s)

/-- PLAN_ENTRY_COMPLETE (R220, Table 12-4): an entry in flight ends. A RECV or REDUCE from this module ends with the SEND that meets
it. -/
def execPlanEntryComplete (cluster launch entry : Nat) (s : State) : Result :=
  .next (match (s.cluster cluster).launches.find? (fun l => l.id == launch) with
    | none => s
    | some l =>
      match s.commAt l.core l.id with
      | none => s
      | some o =>
        let x := s.planAt cluster entry
        if (l.started.get? entry).isNone || l.finished.contains entry then s
        else if o.cut then
          s.unlessFull (fun s =>
            let s1 := s.planCut cluster l entry o
            ({ s1 with posts := s1.posts.filter (fun p => !(p.plan && p.nop == l.id && p.entry == entry)) } : State).planFail cluster l
              entry (State.failFor .cancelled))
        else match x.op with
        | 0 => s.planDone cluster l entry x.sig
        | 4 =>
          let r := s.copyAll o (planAddr' l x) (planDest l x) (ceilDiv x.bytes 4096) x.bytes
          match r.2 with
          | some f => s.unlessFull (fun _ => r.1.planFail cluster l entry f)
          | none => r.1.planDone cluster l entry x.sig
        | 1 =>
          if x.module = s.module then
            match s.planMatch cluster l entry with
            | some p => s.planSend cluster l entry o p
            | none => s
          else
            let src := s.copyPlaces o.sid o.stamp (planAddr' l x) x.bytes false
            match src.2 with
            | .error f => s.unlessFull (fun _ => src.1.planFail cluster l entry f)
            | .ok ps =>
              let r := src.1.putAway x.module ps x.bytes
              match r.2 with
              | .error f => s.unlessFull (fun _ => r.1.planFail cluster l entry f)
              | .ok _ => r.1.planDone cluster l entry x.sig
        | _ =>
          if x.module = s.module then s
          else
            let r := s.remotePut (s.planPost cluster l entry o)
            match r.2 with
            | .error f => s.unlessFull (fun _ => r.1.planFail cluster l entry f)
            | .ok true => r.1.planDone cluster l entry x.sig
            | .ok false => s.unlessFull (fun _ => r.1.planFail cluster l entry (State.failFor .accv)))
where
  planAddr' (l : Launch) (x : PlanEntry) : Nat := State.planAddr l x.ssel x.soff
  planDest (l : Launch) (x : PlanEntry) : Nat := State.planAddr l x.dsel x.doff

end Sys2Proof.Machine
end

