-- ==== Sys2Proof/Machine/Stp.lean ====
section
/-! DEFINITION. The converting store STP (R511, Table 18-3). -/

namespace Sys2Proof.Machine

open Sys2Proof

/-- Whether STP converts lanes of an accumulator type to a format (Table 18-3). -/
def stpPair (acc fmt : Nat) : Bool :=
  (acc == 0 && (decide (1 ≤ fmt && fmt ≤ 5) || fmt == 8)) || (acc == 1 && fmt == 8) || (acc == 2 && decide (fmt ≤ 5))

/-- The value of lane `i` of a row for an accumulator type. -/
def stpLane (acc row i : Nat) : FVal :=
  match acc with
  | 0 => Fmt.fp32.read (fieldN row (32 * i) 32)
  | 1 => ofInt (signedN 32 (fieldN row (32 * i) 32))
  | _ => Fmt.fp64.read (fieldN row (64 * i) 64)

/-- Whether the acting slot has failed in this bundle: its performed bit is clear (R314). -/
def State.slotFailed (s : State) : Bool :=
  match s.me.replay with
  | some r => s.me.trap.isSome && !bitAt r.perf (9 - s.slot)
  | none => false

/-- STP (R511): converted lanes stored densely; a conversion to the lanes' own format applies FTZ and the canonical NaN alone. A
slot that fails takes no draw. -/
def execStp (o : LMFields) (s : State) : Result :=
  .next (s.guarded o.G (fun s =>
    let a := lmAddr o s.me
    let acc := s.me.acc
    let fmt := s.me.afmt
    let n := rowBytes o.size.toNat
    let m := n / (if acc = 2 then 8 else 4)
    let e := fmtBits fmt / 8
    let row := s.me.vrow o.d.toNat
    let align := Nat.min 64 (m * e)
    s.clean [o.base.toNat] (fun s =>
      if s.rowPoison row then s.raise .poison
      else if acc = 3 ∨ 12 ≤ fmt ∨ s.me.fmtScale = 3 ∨ !stpPair acc fmt ∨ (s.me.mode? 6 (decide (2 ≤ fmt))).isNone then s.raise .illfmt
      else if a % align ≠ 0 then s.raiseVa .align a .store 0
      else
        let own := (acc == 0 && fmt == 1) || (acc == 2 && fmt == 0)
        let bits := leNat (s.bytesAt (rowBase (gidOf s.cur) row) n)
        s.roundings 6 (decide (2 ≤ fmt)) (s.me.sat && !own) m (fun s1 rs =>
          let codes := (rs.zip (span 0 m)).map (fun x => elemCode fmt x.1 (stpLane acc bits x.2))
          let s2 := s1.issueAccess a (m * e) (.store (codes.foldr (fun c acc => leBytes e c ++ acc) []) false 0) false false none
          if s2.slotFailed then s2.updMe (fun t => { t with cr := t.cr.set 0x106 (s.me.cw 0x106) })
          else if s2.me.xlat.any (fun a => a.slot == s.slot) then s2.updMe (fun t => { t with draws := some (s.me.cw 0x106) })
          else s2))))

end Sys2Proof.Machine
end

