-- ==== Sys2Proof/Machine/Wake.lean ====
section
/-! DEFINITION. The events that a strand's issue waits for (R44, R58, R68, R77, R179, R265, R268), and the events at which its ordering
events and held writes perform (R221, R222, R234, R236). -/

namespace Sys2Proof.Machine

open Sys2Proof

namespace State

/-- The turn of a strand: its braid's, or its own. -/
def turnOf (s : State) (sid : Nat) : Turn :=
  match (s.strand sid).braid with
  | some b => .braid b
  | none => .strand sid

/-- A strand's turn put next on the agenda. -/
def wake (s : State) (sid : Nat) : State := { s with agenda := s.turnOf sid :: s.agenda }

/-- A wait ended: the bundle issues at its next turn without waiting again. -/
def endWait (s : State) (sid : Nat) (p : Pass) : State := s.updStrand sid (fun t => { t with wait := .none, pass := p })

end State

/-- GROUP_START (R58): the group of a stalled strand tries to start at its next turn, which is now. -/
def execGroupStart (sid : Nat) (s : State) : Result :=
  .next (match (s.strand sid).wait with
    | .stall => s.wake sid
    | .late => s.wake sid
    | .counter _ _ => s.wake sid
    | .queueFull => s.wake sid
    | _ => s)

/-- KNOT_DEPART (R77): a braid whose members have all arrived takes the step of its departure, which is now. -/
def execKnotDepart (braid : Nat) (s : State) : Result :=
  .next (match s.braids.get? braid with
    | some b => if b.depart.isSome then { s with agenda := .braid braid :: s.agenda } else s
    | none => s)

/-- SLEEP_EXPIRE (R268). -/
def execSleepExpire (sid : Nat) (s : State) : Result :=
  .next (match (s.strand sid).wait with
    | .sleep till => if till ≤ s.now then s.endWait sid .done else s
    | _ => s)

/-- WORD_WAIT_RECHECK (R268): the word is read again. -/
def execWordWaitRecheck (sid : Nat) (s : State) : Result :=
  .next (match (s.strand sid).wait with
    | .word a va x cond => if waitCond cond (s.waitedWord a) x && !s.wordHeld sid va a then s.endWait sid .done else s
    | _ => s)

/-- Which waiter a lock goes to: the highest PRIO.EFF, the earliest on ties (R265). -/
def State.waiterBefore (s : State) (a b : Waiter) : Bool :=
  decide ((s.strand b.sid).eff < (s.strand a.sid).eff) || ((s.strand a.sid).eff == (s.strand b.sid).eff && decide (a.since < b.since))

/-- LOCK_GRANT (R265): the hand-off, as a LOCK of the waiter chosen: a word that a plain write has set HELD goes to nobody, and a
waiter that it names asks again and meets LOCKSELF. -/
def execLockGrant (addr : Nat) (s : State) : Result :=
  let u := s.lockUnit addr
  .next (
    if !u.handing then s
    else match bestBy s.waiterBefore u.waiters with
    | none => s.setLock addr { u with giver := none, handing := false }
    | some w =>
      let old := s.natAt addr 8
      let id := s.strandName w.sid
      let rest := u.waiters.filter (fun x => x != w)
      if bitAt old 63 then
        if old % 2 ^ 25 = id then ((s.setLock addr { u with giver := none, waiters := rest, handing := false }).endWait w.sid .none).inheritAll
        else (s.setLock addr { u with giver := none, handing := false }).inheritAll
      else
        let word := 2 ^ 63 + (if bitAt old 62 then 2 ^ 62 else 0) + id
        (((s.writeNat addr 8 word).setLock addr ⟨some (w.sid, (s.strand w.sid).task), none, rest, false⟩).endWait w.sid
          (.lock old true)).inheritAll)

/-! Landing data (R67, R68, R236, R285). -/

/-- LANDING_DATA_ARRIVE (R68): the data of an entry arrives; a held load performs now, once nothing queued before it holds it, and a
KVAD under WAIT once no entry that it reads is PENDING. What comes late lands when it comes, and the rest at its own VCC (R63). -/
def execLandingDataArrive (sid entry : Nat) (s : State) : Result :=
  let t := s.strand sid
  let fill (vals : List LandVal) : State := (s.fillEntry sid entry vals).deliverLate sid
  .next (match t.lb.find? (fun e => e.id == entry && !e.arrived) with
    | none => s
    | some e =>
      let q := t.before entry
      match e.req with
      | .data => fill e.vals
      | .held a ps =>
        if q.heldRead (peerVa sid a.addr) a.size || q.behindRead ps a.op.acquires || !q.xlat.isEmpty then s
        else fill (s.loadVals q.wq a.op ps)
      | .queued => s
      | .kvad desc p l blk pd =>
        if q.heldRead desc 320 then s
        else
          let root := (s.space sid).2
          match s.seqUse root desc with
          | .error _ => fill (e.vals ++ [.p pd false])
          | .ok d => if s.kvWaits sid root d p l blk then s else fill (e.vals ++ [.p pd (s.kvPred root d p l blk)]))

/-- The lines of a control core's instruction cache with one more: the cache holds 64 KiB, and which line it loses is free (R15, log
entry 8). -/
def Core.icacheFill (c : Core) (free : Nat) (l : ILine) : Core :=
  let rest := c.icache.filter (fun x => !(x.asid == l.asid && x.va == l.va))
  if rest.length < 1024 then { c with icache := l :: rest }
  else
    let victim := rest[Config.freeNat free % 1024]?
    { c with icache := l :: rest.filter (fun x => some x != victim) }

/-- The poison of a line that a core fetches: the 512 bytes of eight bundles of a microcode store, or a control core's 64 (R44, R45). -/
def State.fetchPoison (s : State) (core line : Nat) : Bool :=
  if core < 4096 then s.poisonIn (ucodeBase s.module (core / 8) + 512 * line) 512
  else match (s.walk (s.ctrlSpace (core - 4096)).2 (s.ctrlBundleVa core line) .fetch).pa? (s.ctrlBundleVa core line) with
    | some pa => s.poisonIn pa 64
    | none => false

/-- A line that a core has missed brought in (R44, R45, R46): each of its bundles wholly old or wholly new. -/
def State.fillLine (s : State) (core line : Nat) : State :=
  if core < 4096 then
    let bs := (span 0 8).map (fun i => s.storeBundle (core / 8) (8 * line + i))
    s.updCore core (fun c => { c with cs := csTouch c.cs line bs })
  else match s.ctrlFetch core line with
    | .bundle b =>
      let l : ILine := ⟨(s.ctrlSpace (core - 4096)).1, s.ctrlBundleVa core line, BitVec.ofNat 512 b⟩
      let s1 := s.updCore core (fun c => c.icacheFill s.free l)
      { s1 with free := s1.free + 1 }
    | _ => s

/-- CONTROL_STORE_FILL (R15, R44, R45, R317): a line comes from the microcode store, or to a control core's instruction cache from
memory, and the strands that wait for it go on; an uncorrectable word in it kills their tasks. -/
def execControlStoreFill (core line : Nat) (s : State) : Result :=
  let waiting := (span (8 * core) 8).filter (fun sid => (s.strand sid).wait == .fill line)
  .next (
    if waiting.isEmpty then s
    else if s.fetchPoison core line then
      waiting.foldl (fun s sid => if isCtrl sid then s.killCtrl sid .mchk else s.killTask (s.strand sid).task .mchk) s
    else waiting.foldl (fun s sid => s.endWait sid (s.strand sid).pass) (s.fillLine core line))

/-- An STP that traps once its translation is known takes back the draws of its issue, for it draws again when it reissues (R116). -/
def State.undraw (s : State) (sid : Nat) : State :=
  match (s.strand sid).draws with
  | none => s
  | some w =>
    if s.slot ≠ Slot.w.index then s
    else s.updStrand sid (fun t => { t with
      draws := none, cr := if s.slotFailed then t.cr.set 0x106 w else t.cr })

/-- TRANSLATION_RESOLVE (R179, R180): a paused access goes on with its translation, or traps; when no access of the gang is left
paused, its bundles close. -/
def execTranslationResolve (sid : Nat) (s : State) : Result :=
  .next (match (s.strand sid).xlat with
    | [] => s
    | a :: rest =>
      let s1 := s.updStrand sid (fun t => { t with xlat := rest, wait := if rest.isEmpty then .none else t.wait })
      let s2 := (({ s1 with cur := sid, slot := a.slot } : State).finish a).undraw sid
      if (s2.gang sid).all (fun m => (s2.strand m).xlat.isEmpty) then
        s2.closeGang sid ((s2.gang sid).filter (fun m => !(s2.strand m).wait.idle))
      else s2)

/-! The write queue (R221, R222, R234, R236). -/

namespace State

/-- A merged group's one update of its word (R222): integer sums and maxima as they are, floating-point sums exact and rounded
once. -/
def applyGroup (s : State) : List SwRed → State
  | [] => s
  | r :: rs =>
    let a := homeOf r.pa
    let n := typeBytes r.ty
    let old := s.natAt a n
    if s.poisonIn a n then s
    else
      let f := if r.ty = 2 then Fmt.fp32 else Fmt.fp64
      let v := if r.fn = 0x18 ∧ 2 ≤ r.ty then f.write (Rnd.rne false) (FVal.sum false ((old :: r.x :: rs.map (·.x)).map f.read))
        else (r :: rs).foldl (fun acc x => (atomicFn x.fn x.ty acc x.x 0).getD acc) old
      s.writeNat a n v

/-- Whether two contributions may be merged (R222). -/
def mergeable (a b : SwRed) : Bool := a.pa == b.pa && a.fn == b.fn && a.ty == b.ty

/-- One contribution applied at its home, merged with those others that a free value names (R222). -/
def applyRed (s : State) (r : SwRed) : State :=
  let f := s.takeFree
  let rest := s.swRed.erase r
  let same := rest.filter (mergeable r)
  let merged := ((same.zip (span 0 same.length)).filter (fun x => bitAt f.1 x.2)).map (·.1)
  ({ f.2 with swRed := merged.foldl (fun l x => l.erase x) rest } : State).applyGroup (r :: merged)

/-- The contributions of a strand issued before a place in its program order, driven home by flush markers (R221, R243). -/
def flushReds (s : State) (sid id : Nat) : Nat → State
  | 0 => s
  | n + 1 =>
    match s.swRed.find? (fun r => r.sid == sid && decide (r.id < id)) with
    | some r => (s.applyRed r).flushReds sid id n
    | none => s

end State

/-- Whether an item is a release: a fence or a handle release, or a write ordered as one (Table 9-2). -/
def WqItem.releases (i : WqItem) : Bool :=
  match i.what with
  | .write _ _ o => o.releases
  | .order .full _ _ _ => true
  | .order .rel _ _ _ => true
  | .order .relh _ _ _ => true
  | _ => false

/-- Whether an item makes every covered write visible, as R248 asks of a writer of a microcode store. -/
def WqItem.releasesAll (i : WqItem) : Bool :=
  match i.what with
  | .order .relh _ _ _ => false
  | _ => i.releases

/-- The scope of a release. -/
def WqItem.scope (i : WqItem) : Nat :=
  match i.what with
  | .order _ sc _ _ => sc
  | .write _ _ (.store _ _ sc) => sc
  | .write _ _ (.unlock sc) => sc
  | .write _ _ (.atomic _ _ _ _ _ _ _ sc _) => sc
  | .write _ _ (.reduce _ _ _ _ sc) => sc
  | _ => 0

/-- Whether every read issued before an item has performed. -/
def Strand.readsDone (t : Strand) (id : Nat) : Bool :=
  (t.before id).lb.all (fun e => !e.unread) && (t.before id).xlat.isEmpty

/-- Whether every write issued before an item has performed. -/
def Strand.writesDone (t : Strand) (id : Nat) : Bool :=
  (t.before id).wq.all (fun i => !i.isWrite) && (t.before id).xlat.isEmpty

/-- Whether every ordering event queued before an item has performed. -/
def Strand.ordersDone (t : Strand) (id : Nat) : Bool := (t.before id).wq.all (fun i => i.isWrite)

/-- Where an operation of the matrix engine or an MGV writes: an MDRN's destination, and the rows of its tile. -/
def MOp.writeSpans (o : MOp) : List (Nat × Nat) :=
  (match o.kind with
    | .mdrn => [(o.aAddr, o.aAddr + 31 * o.dStride + o.outBytes - 1)]
    | _ => []) ++ o.regions.map (fun r => (0x8000000 + r * 0x4000, 0x8000000 + r * 0x4000 + 0x3FFF))

/-- Where a copy may write; the whole space where the manual's parameters do not tell before it runs. -/
def XOp.writeSpans (o : XOp) : List (Nat × Nat) :=
  match o.kind, o.plan with
  | .drain _, _ => []
  | .mcw, _ => []
  | .copy, .linear _ d n => [(d, d + n - 1)]
  | .copy, .list _ d e _ c false => [(d, d + c * 2 ^ e - 1)]
  | _, _ => [(0, 2 ^ 64)]

/-- Where an operation of the communication unit may write on this side. -/
def NOp.writeSpans (o : NOp) : List (Nat × Nat) :=
  match o.kind with
  | .send => []
  | .put => []
  | .cpln _ => [(0, 2 ^ 64)]
  | _ => [(o.addr, o.addr + o.len - 1)]

namespace State

/-- Whether an engine operation of a strand, issued before an item, that writes into a span is in flight (Table 9-2, RELH). -/
def engineBefore (s : State) (sid id lo hi : Nat) : Bool :=
  let t := s.strand sid
  let c := s.core (gidOf sid)
  let into (ws : List (Nat × Nat)) : Bool := ws.any (fun w => decide (peerVa sid w.1 ≤ hi) && decide (lo ≤ peerVa sid w.2))
  (c.mq ++ c.gq).any (fun o => o.sid == sid && o.task == t.task && decide (o.pos < id) && into o.writeSpans) ||
  c.chans.any (fun ch => ch.2.any (fun o => o.sid == sid && o.task == t.task && decide (o.pos < id) && into o.writeSpans)) ||
  c.nq.any (fun o => o.sid == sid && o.task == t.task && decide (o.pos < id) && into o.writeSpans)

/-- Whether no contribution of a strand, issued before an item, to a span stands in the switches (R222, R234). -/
def redsDone (s : State) (sid id lo hi : Nat) : Bool :=
  s.swRed.all (fun r => r.sid != sid || decide (id ≤ r.id) || decide (hi < r.va) || decide (r.va + typeBytes r.ty ≤ lo))

/-- Whether an item of a strand's write queue may perform (R232, R234, R236, Table 9-2). -/
def mayPerform (s : State) (sid : Nat) (i : WqItem) : Bool :=
  let t := s.strand sid
  let q := t.before i.id
  let home := i.scope != 5 || i.gathered
  match i.what with
  | .write va ps o =>
    if o.releases then t.readsDone i.id && t.writesDone i.id && t.ordersDone i.id && s.redsDone sid i.id 0 (2 ^ 64) && home
    else !q.heldWrite va (piecesSize ps) && !q.behind ps && q.xlat.isEmpty
  | .order .acqLoad _ _ _ => t.lb.all (fun e => e.id != i.id || !e.unread) && t.wq.all (fun j => j.id != i.id || !j.isWrite)
  | .order .relh _ lo hi =>
    t.ordersDone i.id && !s.engineBefore sid i.id lo hi && s.redsDone sid i.id lo hi && q.xlat.isEmpty && home &&
    q.wq.all (fun j => match j.what with
      | .write va ps _ => decide (hi < va) || decide (va + piecesSize ps ≤ lo)
      | _ => true)
  | .order k _ _ _ =>
    t.readsDone i.id && t.ordersDone i.id &&
    (k == .acq || k == .acqh || (t.writesDone i.id && s.redsDone sid i.id 0 (2 ^ 64) && home))

/-- An item leaves the queue and, if it is a write, performs. A release makes the strand's writes of microcode visible: to its own
cluster from CLUSTER scope on, to others from CHIP (R248). -/
def performItem (s : State) (sid : Nat) (i : WqItem) : State :=
  let s0 := s.updStrand sid (fun t => { t with wq := t.wq.erase i })
  let s1 := if i.releasesAll && decide (2 ≤ i.scope) then
      s0.releaseParts (s.writer sid) (if 4 ≤ i.scope ∨ isCtrl sid then none else some (clusterOf sid))
    else s0
  match i.what with
  | .write va ps o => s1.performWrite sid i.id va ps o
  | .order _ _ _ _ => s1

/-- One of the items that may perform now, which one being free. -/
def performOne (s : State) (sid : Nat) (ok : WqItem → Bool) : State :=
  let items := (s.strand sid).wq.filter (fun i => ok i && s.mayPerform sid i)
  let f := s.takeFree
  match items[f.1 % items.length]? with
  | some i => f.2.performItem sid i
  | none => s

end State

/-- HELD_WRITE_PERFORM (R236): a write of the queue that is no release performs. -/
def execHeldWritePerform (sid : Nat) (s : State) : Result := .next (s.performOne sid (fun i => i.isWrite && !i.releases))

/-- ORDERING_EVENT_PERFORM (R234): a release, an acquire or a fence performs. -/
def execOrderingEventPerform (sid : Nat) (s : State) : Result := .next (s.performOne sid (fun i => !i.isWrite || i.releases))

/-- POD_FLUSH_GATHER (R221, R243): the strand's earlier writes have been acknowledged, and the home has gathered the markers of its
first POD release; the contributions it drove ahead of them are applied. -/
def execPodFlushGather (sid : Nat) (s : State) : Result :=
  .next (match (s.strand sid).wq.find? (fun i => i.releases && i.scope == 5 && !i.gathered) with
    | none => s
    | some i =>
      if (s.strand sid).writesDone i.id then
        (s.flushReds sid i.id s.swRed.length).updStrand sid (fun t =>
          { t with wq := t.wq.map (fun x => if x = i then { x with gathered := true } else x) })
      else s)

/-- REDUCTION_APPLY (R222): as many contributions as `count` to a word, of the type and function of the first, are applied as one
update. -/
def execReductionApply (addr count : Nat) (s : State) : Result :=
  .next (match s.swRed.find? (fun r => r.pa == addr) with
    | none => s
    | some r =>
      let group := (s.swRed.filter (State.mergeable r)).take count
      ({ s with swRed := group.foldl (fun l x => l.erase x) s.swRed } : State).applyGroup group)

end Sys2Proof.Machine
end

