-- ==== Sys2Proof/Machine/Save.lean ====
section
/-! DEFINITION. The save area of a strand (R104, R319 to R321, Table 12-9): what a forced pre-emption writes to it, and what the
restoring reads back. -/

namespace Sys2Proof.Machine

open Sys2Proof

/-! The images of a strand's items (Tables 3-6, 4-1, 12-9). -/

/-- A nest level in 128 bytes, its items each at a multiple of 8 (Table 3-6, R320). -/
def NestLevel.image (n : NestLevel) : List Byte :=
  let att (i : Nat) : Nat := match n.atts[i]? with
    | some a => pack [(6, a.addr), (6, a.aux), (64, a.value.toNat), (2, a.kind)]
    | none => 0
  leBytes 8 n.active.toNat ++ leBytes 8 n.counter ++ leBytes 8 n.trip ++ leBytes 8 (pack [(16, n.start), (16, n.stop)]) ++
  leBytes 8 n.depth ++ leBytes 40 (pack ((span 0 4).map (fun i => (78, att i)))) ++
  (span 0 6).foldr (fun i acc => (if i < 4 then leBytes 8 (nth (0 : Word) n.saved i).toNat else leBytes 8 0) ++ acc) []

/-- A nest level as its image says; how many attachments it has is the level's own. -/
def NestLevel.ofImage (n : NestLevel) (v : Nat) : NestLevel where
  active := bitAt v 0
  counter := fieldN v 64 32
  trip := fieldN v 128 32
  start := fieldN v 192 16
  stop := fieldN v 208 16
  depth := fieldN v 256 4
  atts := (n.atts.zip (span 0 4)).map (fun x =>
    let a := fieldN v (320 + 78 * x.2) 78
    ⟨a % 64, fieldN a 6 6, BitVec.ofNat 64 (fieldN a 12 64), fieldN a 76 2⟩)
  saved := (n.saved.zip (span 0 4)).map (fun x => BitVec.ofNat 64 (fieldN v (640 + 64 * x.2) 64))

/-- The data of a landing buffer entry (R106). -/
def LandEntry.image (e : LandEntry) : List Byte :=
  let bs := e.vals.foldr (fun v acc => (match v with
    | .g _ v _ => leBytes 8 v.toNat
    | .row _ bs _ => bs
    | _ => []) ++ acc) []
  bs.take 512 ++ List.replicate (512 - bs.length) 0

/-- A landing buffer entry with its data as the image has it. -/
def LandEntry.ofImage (e : LandEntry) (bs : List Byte) : LandEntry :=
  { e with vals := (e.vals.foldl (fun (acc : List LandVal × List Byte) v => match v with
      | .g r _ p => (acc.1 ++ [.g r (BitVec.ofNat 64 (leNat (acc.2.take 8))) p], acc.2.drop 8)
      | .row r b p => (acc.1 ++ [.row r (acc.2.take b.length) p], acc.2.drop b.length)
      | v => (acc.1 ++ [v], acc.2)) ([], bs)).1 }

/-- The numbers of the control registers in a save area, in ascending order (Tables 4-4, 12-9). -/
def savedCregs : List Nat := span 1 9 ++ [0x010, 0x011, 0x012, 0x020, 0x030] ++ span 0x100 8

namespace State

/-- Bytes written by the device over as many pages as they span, with poison as it is. -/
def sysPut (s : State) (va : Nat) (bs : List Byte) (po : List Bool) : State :=
  ((pageCut va bs.length).foldl (fun (acc : State × List Byte × List Bool) p =>
    let s1 := match acc.1.sysPa p.1 .store with
      | some pa => acc.1.write pa (acc.2.1.take p.2) (acc.2.2.take p.2)
      | none => acc.1
    (s1, acc.2.1.drop p.2, acc.2.2.drop p.2)) (s, bs, po)).1

/-- Bytes and their poison as the device reads them at a virtual address of its own; none where a page does not translate. -/
def sysGet (s : State) (va n : Nat) : Option (List Byte × List Bool) :=
  (pageCut va n).foldr (fun p acc => match acc, s.sysPa p.1 .load with
    | some x, some pa => some (s.bytesAt pa p.2 ++ x.1, s.poisonAt pa p.2 ++ x.2)
    | _, _ => none) (some ([], []))

/-- The save area of a strand from offset 0x80 to 0xAFF (Table 12-9, R321). -/
def areaHead (s : State) (sid home : Nat) : List Byte :=
  let t := s.strand sid
  let bitsOf (f : Nat → Bool) (n : Nat) : Nat := pack ((span 0 n).map (fun i => (1, (f i).toNat)))
  let held := match t.handler with
    | some h => h.replay
    | none => t.replay
  let hand := match t.handler with
    | some h => (h.hmpc, h.hvcc)
    | none => (0, 0)
  let bundle := match held with
    | some r => leBytes 64 r.bundle ++ leBytes 8 (r.perf + 2 ^ 10)
    | none => leBytes 72 0
  (span 0 64).foldr (fun i acc => leBytes 8 (t.val i).toNat ++ acc) [] ++
  leBytes 8 (bitsOf t.pois 64) ++ leBytes 8 (bitsOf t.pred 16) ++
  (span 0 32).foldr (fun i acc => leBytes 4 (s.creg sid (0x080 + i)) ++ acc) [] ++
  savedCregs.foldr (fun n acc => leBytes 8 (s.creg sid n) ++ acc) [] ++
  leBytes 8 (pack [(4, t.opened), (4, 0), (16, home), (4, t.depth)]) ++
  leBytes 8 (pack [(16, hand.1), (1, t.handler.isSome.toNat), (1, held.isSome.toNat)]) ++ leBytes 8 hand.2 ++ leBytes 40 0 ++
  (span 0 6).foldr (fun l acc => (t.level l).image ++ acc) [] ++
  (span 0 15).foldr (fun i acc => leBytes 8 (nth 0 t.rstack i) ++ acc) [] ++ bundle ++ leBytes 64 0 ++
  (span 0 4).foldr (fun ch acc => (t.copyNest ch).foldr (fun l acc => leBytes 8 l.count ++ leBytes 8 l.ss.toNat ++ leBytes 8 l.ds.toNat ++
    leBytes 8 0 ++ acc) [] ++ acc) []

/-- A strand's state written to its save area (R320): the landing descriptors and the shadow latches, of which the manual gives no
layout, are free bytes. -/
def saveStrand (s : State) (sid home : Nat) : State :=
  let va := s.saveArea sid
  let t := s.strand sid
  let rows := rowBase (gidOf sid) t.amBase
  let data := (t.lb.take 32).foldr (fun e acc => e.image ++ acc) []
  let s1 := (s.sysPut (va + 0x80) (s.areaHead sid home) []).sysPut (va + 0x1000) data []
  let s2 := ({ s1 with free := s1.free + 0x4200 } : State).sysPut (va + 0x5000) (s1.freeBytes 0x4200) []
  s2.sysPut (va + 0x10000) (s2.bytesAt rows (512 * t.amRows)) (s2.poisonAt rows (512 * t.amRows))

end State

/-! What the restoring reads (R319). -/

/-- The registers, predicates, counters and control registers of a strand as the head of its save area has them; `at_` is a number of
`n` bytes at an offset of the area. -/
def Strand.loadRegs (t : Strand) (at_ : Nat → Nat → Nat) : Strand :=
  let t1 := (span 1 63).foldl (fun (t : Strand) i => t.setReg i (BitVec.ofNat 64 (at_ (0x80 + 8 * i) 8)) (bitAt (at_ 0x280 8) i)) t
  let t2 := (span 1 15).foldl (fun (t : Strand) i => t.setPred i (bitAt (at_ 0x288 8) i)) t1
  let t3 := (span 1 31).foldl (fun (t : Strand) i =>
    let v := at_ (0x290 + 4 * i) 4
    t.setTok i ⟨v % 256, fieldN v 8 8, bitAt v 16⟩) t2
  let cregs := (savedCregs.zip (span 0 22)).map (fun x => (x.1, at_ (0x310 + 8 * x.2) 8))
  cregs.foldl (fun (t : Strand) x =>
    if x.1 = 0x001 then { t with vcc := x.2 }
    else if x.1 = 0x004 then { t with scopeId := x.2 % 65536 }
    else if x.1 = 0x007 then { t with fmtr := BitVec.ofNat 21 x.2 }
    else if x.1 = 0x011 then { t with trapRec := BitVec.ofNat 64 x.2 }
    else if x.1 = 0x012 then { t with mpc := x.2 % 65536 }
    else if x.1 = 0x002 ∨ x.1 = 0x003 ∨ x.1 = 0x020 then t
    else { t with cr := t.cr.set x.1 (Strand.crKeep x.1 (BitVec.ofNat 64 x.2)) }) t3

/-- The call depth, return stack, nest levels, replay buffer, handler words and copy nests of a strand as its save area has them. -/
def Strand.loadFlow (t : Strand) (at_ : Nat → Nat → Nat) : Strand :=
  let depth := fieldN (at_ 0x3C0 8) 24 4
  let held : Option Replay := if bitAt (at_ 0x3C8 8) 17 then some ⟨at_ 0x778 64, at_ 0x7B8 8 % 1024⟩ else none
  { t with
    depth := depth
    opened := at_ 0x3C0 8 % 16
    rstack := (span 0 depth).map (fun i => at_ (0x700 + 8 * i) 8)
    nest := (span 0 6).foldl (fun m l => m.set l ((t.level l).ofImage (at_ (0x400 + 128 * l) 128))) t.nest
    cnest := (span 0 4).foldl (fun m ch => (span 0 6).foldl (fun m l =>
      let a := 0x800 + 192 * ch + 32 * l
      m.set (nestKey ch l) ⟨at_ a 8, BitVec.ofNat 64 (at_ (a + 8) 8), BitVec.ofNat 64 (at_ (a + 16) 8)⟩) m) t.cnest
    replay := if t.handler.isSome then t.replay else held
    handler := t.handler.map (fun h => { h with hmpc := at_ 0x3C8 8 % 65536, hvcc := at_ 0x3D0 8, replay := held }) }

namespace State

/-- A saved strand as its save area has it, with its AM window (R319): what the area's layout does not give, the latches' and landing
descriptors' own fields, and all of it where the area cannot be read, is as it was kept (log entry 35). -/
def loadStrand (s : State) (x : Saved) : Saved :=
  let va := s.saveArea x.sid
  match s.sysGet (va + 0x80) 0xA80, s.sysGet (va + 0x1000) 0x4000, s.sysGet (va + 0x10000) (512 * x.strand.amRows) with
  | some head, some data, some rows =>
    let all := leNat head.1
    let at_ (off n : Nat) : Nat := fieldN all (8 * (off - 0x80)) (8 * n)
    let t := (x.strand.loadRegs at_).loadFlow at_
    let lb := (t.lb.zip (span 0 t.lb.length)).map (fun e => if e.2 < 32 then e.1.ofImage (data.1.drop (512 * e.2)) else e.1)
    ⟨x.sid, { t with lb := lb }, rows.1, rows.2⟩
  | _, _, _ => x

/-- The saved strands of a task as their areas have them; a braid's VCC is that of member 0's area (R104, R320). -/
def loadSaved (s : State) (xs : List Saved) : List Saved :=
  match xs.map (fun x => s.loadStrand x) with
  | [] => []
  | y :: ys => y :: ys.map (fun x => { x with strand := { x.strand with vcc := y.strand.vcc } })

end State

end Sys2Proof.Machine
end

