-- ==== Sys2Proof/Machine/Sched.lean ====
section
/-! DEFINITION. The operator sequencers (R34, R38 to R43, R249 to R256, R269 to R273): which entry is ready, which the sequencer takes,
where its strands lie, its dispatch and its resumption, ageing, reservations, eviction and ballast. -/

namespace Sys2Proof.Machine

open Sys2Proof

namespace State

/-! Resources (R41 to R43). -/

/-- Whether AM rows from `base` on are free on a core (R41). -/
def rowsFree (s : State) (gid base n : Nat) : Bool :=
  (span (8 * gid) 8).all (fun sid =>
    let t := s.strand sid
    t.task == 0 || decide (base + n ≤ t.amBase) || decide (t.amBase + t.amRows ≤ base))

/-- The lowest-numbered free strand of a core and the lowest free window of `n` rows, aligned to 32 (R41, R42). -/
def coreFits (s : State) (gid n : Nat) : Option (Nat × Nat) :=
  if (s.core gid).removed || s.service.mapping == some gid then none
  else match (span (8 * gid) 8).find? (fun sid => (s.strand sid).task == 0), (span 0 64).find? (fun i =>
      decide (32 * i + n ≤ 2048) && s.rowsFree gid (32 * i) n) with
    | some sid, some i => some (sid, 32 * i)
    | _, _ => none

/-- The cores that a standing reservation keeps from new slack tasks (R43). -/
def reservedCores (s : State) (cl : Nat) : List Nat :=
  match (s.cluster cl).reserve with
  | none => []
  | some id =>
    match s.tasks.get? id with
    | some k => if k.status = .pool then ((span (8 * cl) 8).filter (fun g => !(s.core g).removed)).take k.width else []
    | none => []

/-- The lowest free braid line of a cluster (R40, R41). -/
def freeLine (s : State) (cl : Nat) : Option Nat := (span (4 * cl) 4).find? (fun b => (s.braids.get? b).isNone)

/-- The strands and windows that a new task would take, and its braid line (R41, R42). -/
def place4 (s : State) (k : Task) (cl : Nat) : Option (List (Nat × Nat) × Option Nat) :=
  let barred := if k.width = 1 then s.reservedCores cl else []
  let fits := ((span (8 * cl) 8).filterMap (fun g => if barred.contains g then none else s.coreFits g k.amRows)).take k.width
  if fits.length < k.width then none
  else if k.width = 1 then some (fits, none)
  else (s.freeLine cl).map (fun b => (fits, some b))

/-- Whether the strands, windows and line of a saved task are free (R254, R270). -/
def homeFree (s : State) (k : Task) : Bool :=
  k.saved.all (fun x => (s.strand x.sid).task == 0 && !(s.core (gidOf x.sid)).removed && s.service.mapping != some (gidOf x.sid) &&
    s.rowsFree (gidOf x.sid) x.strand.amBase x.strand.amRows) &&
  (match k.line with
    | some b => (s.braids.get? b).isNone
    | none => true)

/-! Readiness and order (R249 to R252). -/

/-- Whether two boxes of tasks of different records conflict (R190). -/
def boxesMeet (a b : Box) : Bool :=
  a.base == b.base && decide (a.lo ≤ b.hi) && decide (b.lo ≤ a.hi) && (a.write || b.write)

/-- Whether every conflicting task of an earlier-issued record has retired (R190), and every transfer that the walker has made for such a
record, or to go before this one's tasks, is over (R223). -/
def boardClear (s : State) (k : Task) : Bool :=
  s.tasks.all (fun e => !(decide (e.2.record < k.record) &&
    e.2.boxes.any (fun a => k.boxes.any (fun b => boxesMeet a b)))) &&
  s.lowered.all (fun l => !(l.record == k.record && l.first) &&
    !(decide (l.record < k.record) && k.boxes.any (fun b => b.base == l.h.base + l.h.region.toNat * 2 ^ 64)))

/-- Whether the release at CLUSTER that a SPAWN makes of its parent's covered writes has performed (R234, R254). -/
def spawnVisible (s : State) (k : Task) : Bool :=
  match k.after with
  | some (sid, n) => (s.strand sid).readsDone n && (s.strand sid).writesDone n && s.redsDone sid n 0 (2 ^ 64)
  | none => true

/-- Whether a mark, a save or a kill keeps a waiting entry from going on (R270, R310, R319). -/
def heldBack (s : State) (k : Task) : Bool := k.marked.isSome || k.saving.isSome || s.isDoomed k.id 0

/-- Whether nothing but the sequencer's choice stands between an entry and running (R249). -/
def ready (s : State) (k : Task) : Bool :=
  match k.status with
  | .pool => s.ctxLive k.ctx && !s.deadAt k.cluster k.home && s.boardClear k && s.spawnVisible k
  | .yielded => s.ctxLive k.ctx && !s.heldBack k
  | .evicted => s.ctxLive k.ctx && !s.heldBack k
  | .saved => s.ctxLive k.ctx && !s.heldBack k
  | .parked => s.ctxLive k.ctx && !s.heldBack k && k.hold.contains k.asker
  | _ => false

/-- The effective priority of a task, on its strands or saved (R99, R250). -/
def taskEff (s : State) (k : Task) : Nat :=
  k.strands.foldl (fun m sid => Nat.max m (s.strandOrSaved sid k.id).eff) 0

/-- The PRIO.EFF of the strands whose KVAD waits on the entry of a queued backfill job, which then is taken as a foreground entry
(R251, R285). -/
def promoted (s : State) (k : Task) : Option Nat :=
  match k.seq with
  | none => none
  | some q => s.strands.foldl (fun m e =>
      if e.2.lb.any (fun x => match x.req with
        | .kvad desc p l blk _ => !x.arrived && desc == q.desc && l == q.layer && (if blk then p / 16 == q.pos / 16 else p == q.pos)
        | _ => false) then some (Nat.max (m.getD 0) e.2.eff) else m) none

/-- The queue that an entry sits in (R250, R251). -/
def queueOf (s : State) (k : Task) : Nat :=
  match k.status with
  | .pool => k.prio
  | .queued => (s.promoted k).getD k.prio
  | _ => if k.kind = .backfill then (s.promoted k).getD (s.taskEff k) else s.taskEff k

/-- The age of an entry now (R251). -/
def ageOf (s : State) (k : Task) : Nat := k.age + (if k.nextAge ≤ s.now then (s.now - k.nextAge) / 4096 + 1 else 0)

/-- The effective priority at which the sequencer takes an entry (R251). -/
def entryPrio (s : State) (k : Task) : Nat := Nat.min 15 (s.queueOf k + s.ageOf k)

/-- Whether the sequencer takes one entry before another (R251). -/
def entryBefore (s : State) (a b : Task) : Bool :=
  let x := s.entryPrio a
  let y := s.entryPrio b
  let q := s.queueOf a
  let r := s.queueOf b
  decide (y < x) || (x == y && (decide (q < r) || (q == r && (decide (a.readyAt < b.readyAt) ||
    (a.readyAt == b.readyAt && decide (a.id < b.id))))))

/-- Whether a work item waits in a cluster's queues (R36, R296). -/
def Task.waits (k : Task) : Bool :=
  match k.status with
  | .pool => true
  | .yielded => true
  | .evicted => true
  | .parked => true
  | .saved => true
  | _ => false

/-- The queued tasks of a cluster (R36, R296). -/
def queuedIn (s : State) (cl : Nat) : Nat := (s.tasks.filter (fun e => e.2.cluster == cl && Task.waits e.2)).length

/-- The cluster with the fewest queued tasks, the lowest number on ties (R36, R260, R296). -/
def leastLoaded (s : State) (cls : List Nat) : Option Nat :=
  bestBy (fun a b => decide (s.queuedIn a < s.queuedIn b) || (s.queuedIn a == s.queuedIn b && decide (a < b))) cls

/-- The backfill jobs queued on a die that it may dispatch (R296, R309). -/
def jobsOf (s : State) (die : Nat) : List Task :=
  ((s.backfill.get [] die).filterMap (fun id => s.tasks.get? id)).filter (fun k => k.status == .queued && s.ctxLive k.ctx && !s.deadAt (80 + die) k.home)

/-- The cluster that a die's next job runs on (R296). -/
def jobCluster (s : State) (die : Nat) : Nat := (s.leastLoaded (span (10 * die) 10)).getD (10 * die)

/-- A job with what its operator entry gives it, as an entry of the cluster that it would run on (R27, R296). -/
def jobSeat (s : State) (k : Task) (cl : Nat) : Task :=
  { k with cluster := cl, amRows := (s.entryAt cl (microOf k).entry).amRows, width := 1 }

/-- The class with which a job fails before any bundle runs, if it does (R295, R297). -/
def jobFault (s : State) (k : Task) (cl : Nat) : Option TrapClass :=
  let e := s.entryAt cl (microOf k).entry
  match k.seq with
  | none => some .illshape
  | some q =>
    if e.bad || e.width != 0 then some .illenc
    else match s.seqUse (s.ctx k.ctx).walker.troot q.desc with
      | .error c => some c
      | .ok d => if d.layers ≤ q.layer then some .illshape else none

/-- Whether an entry's resources are free (R41, R249); a job that fails before any bundle needs none. -/
def resourcesFree (s : State) (k : Task) : Bool :=
  match k.status with
  | .pool => (s.place4 k k.cluster).isSome
  | .queued => (s.jobFault k k.cluster).isSome || (s.place4 k k.cluster).isSome
  | .yielded => true
  | _ => s.homeFree k

/-- The queued jobs of a cluster's die that would run on the cluster, those that a KVAD waits on or the others (R251, R296). -/
def queuedJobs (s : State) (cl : Nat) (wanted : Bool) : List Task :=
  if s.jobCluster (cl / 10) = cl then
    ((s.jobsOf (cl / 10)).filter (fun j => (s.promoted j).isSome == wanted)).map (fun j => s.jobSeat j cl)
  else []

/-- The ready entries of a class of a cluster: the foreground, with the jobs that a KVAD waits on, or the backfill jobs (R251). -/
def entriesOf (s : State) (cl : Nat) (fore : Bool) : List Task :=
  (s.tasks.filter (fun e => e.2.cluster == cl && (e.2.kind != .backfill || (s.promoted e.2).isSome) == fore && s.ready e.2)).map (·.2) ++
    s.queuedJobs cl fore

/-- The ready foreground entries of a cluster (R251). -/
def foreground (s : State) (cl : Nat) : List Task := s.entriesOf cl true

/-- The ready entries of the class from which the sequencer takes one in this cycle: the first that holds one whose resources are free
(R251). -/
def classOf (s : State) (cl : Nat) : List Task :=
  if (s.foreground cl).any s.resourcesFree then s.foreground cl else s.entriesOf cl false

/-- The entry that the sequencer of a cluster takes in this cycle (R251). -/
def taken (s : State) (cl : Nat) : Option Task := bestBy s.entryBefore ((s.classOf cl).filter s.resourcesFree)

/-- The best entries of the other queues that tie with the one taken age by 1, within the class that is taken (R252). -/
def ageTies (s : State) (cl : Nat) (k : Task) : State :=
  let all := s.classOf cl
  (span 0 16).foldl (fun (s' : State) q =>
    if q = s.queueOf k then s'
    else match bestBy s.entryBefore (all.filter (fun x => s.queueOf x == q)) with
      | some x => if s.entryPrio x = s.entryPrio k && s.resourcesFree x then s'.updTask x.id (fun x => { x with age := x.age + 1 }) else s'
      | none => s') s

/-- One pool entry that has come free held for a parked parent, which is when it becomes ready (R254); which parent comes first is
free. -/
def grantOne (s : State) (cl : Nat) : State :=
  let waiting := (s.tasks.filter (fun e => e.2.cluster == cl && e.2.status == .parked && !e.2.hold.contains e.2.asker &&
    !s.needsWeight e.2)).map (·.1)
  if waiting.isEmpty || s.poolFull cl then s
  else
    let f := s.takeFree
    match waiting[f.1 % waiting.length]? with
    | some id => f.2.updTask id (fun k => { k with hold := k.asker :: k.hold, age := 0, readyAt := s.now, nextAge := s.now + 4096 })
    | none => s

/-- Every pool entry that has come free held for a parked parent, for as long as there are both (R254, R256). -/
def grantParked (s : State) (cl : Nat) : State := iter (fun s => s.grantOne cl) s.tasks.length s

/-- The same in every cluster. -/
def grantAll (s : State) : State := ((s.tasks.map (fun e => e.2.cluster)).eraseDups).foldl (fun s cl => s.grantParked cl) s

/-! Dispatch and resumption (R34, R38, R255). -/

/-- The seed of the stochastic rounding generator (R117). -/
def srSeed (ordinal member : Nat) : Word :=
  BitVec.ofNat 64 ((0x6A09E667 + 0x9E3779B9 * (ordinal % 2 ^ 32) + 0x85EBCA6B * member) % 2 ^ 32)

/-- A member's strand at dispatch (R34, R117, R255, R296). -/
def seatStrand (s : State) (k : Task) (member sid base : Nat) (line : Option Nat) : State :=
  let crs : Map Word := [(0x006, BitVec.ofNat 64 base), (0x030, BitVec.ofNat 64 k.prio), (0x106, srSeed k.ordinal member)]
  let t : Strand := { Strand.idle with
    task := k.id
    scopeId := k.scopeId
    cr := k.crs.foldl (fun m x => Map.set m x.1 x.2) crs
    member := member
    braid := line
    amBase := base
    amRows := k.amRows }
  ((s.setStrand sid t).loadMicro k sid member).updStrand sid (fun t => k.args.foldl (fun (t : Strand) (x : Nat × Word) => t.setReg x.1 x.2 false) t)

/-- A task dispatched onto strands (R34, R40, R241, R249). -/
def dispatch (s : State) (k : Task) (cl : Nat) (seats : List (Nat × Nat)) (line : Option Nat) : State :=
  let k1 : Task := { k with
    status := .running
    cluster := cl
    age := 0
    started := s.now
    strands := seats.map (·.1)
    line := line }
  let s1 := s.updTask k.id (fun _ => k1)
  let s2 := match line with
    | some b => { s1 with braids := s1.braids.set b ⟨k.id, seats.map (·.1), [], none, []⟩ }
    | none => s1
  let s3 := (seats.zip (span 0 seats.length)).foldl (fun (s : State) (x : (Nat × Nat) × Nat) => s.seatStrand k1 x.2 x.1.1 x.1.2 line) s2
  (s3.updCluster cl (fun c => { c with reserve := if c.reserve = some k.id then none else c.reserve })).grantParked cl

/-- A continuation, or a saved task put back on its strands from its save areas, going on (R38, R86, R254, R270, R319). -/
def resume (s : State) (k : Task) : State :=
  let s1 := s.updTask k.id (fun k => { k with status := .running, age := 0, saved := [], marked := none, gang := none })
  if k.status = .yielded then
    k.strands.foldl (fun s sid => s.updStrand sid (fun t => { t with wait := if t.wait = .idleYield then .none else t.wait })) s1
  else
    let s2 := match k.line with
      | some b => { s1 with braids := s1.braids.set b (k.gang.getD ⟨k.id, k.strands, [], none, []⟩) }
      | none => s1
    let s3 := (s.loadSaved k.saved).foldl (fun s x =>
      let t := x.strand
      (s.write (rowBase (gidOf x.sid) t.amBase) x.rows x.marks).setStrand x.sid
        { t with wait := if t.wait = .idleYield then .none else t.wait }) s2
    s3.updTask k.id (fun k => { k with status := if k.strands.all (fun sid => (s3.strand sid).wait == .idleEnd) then
      (match k.strands.any (fun sid => (s3.strand sid).trap.isSome) with
        | true => .frozenEnd
        | false => .ended) else .running })

end State

/-- TASK_DISPATCH (R251): the entry that the sequencer takes is a pool entry, and is dispatched; ties age (R252). Power control may
hold it (R332). -/
def execTaskDispatch (cluster : Nat) (s : State) : Result :=
  .next (if s.power.hold then s
    else match s.taken cluster with
    | none => s
    | some k =>
      if k.status = .pool then
        match s.place4 k cluster with
        | some (seats, line) => (s.ageTies cluster k).dispatch k cluster seats line
        | none => s
      else s)

/-- TASK_RESUME (R38, R251, R254, R270): the entry that the sequencer takes is a continuation, an evicted or saved task, or a parked
parent. -/
def execTaskResume (cluster : Nat) (s : State) : Result :=
  .next (if s.power.hold then s
    else match s.taken cluster with
    | none => s
    | some k => if k.status = .pool ∨ k.status = .queued then s else (s.ageTies cluster k).resume k)

/-- AGE_TICK (R251): a ready entry's age rises once its 4,096 cycles have passed. -/
def execAgeTick (task : Nat) (s : State) : Result :=
  .next (match s.tasks.get? task with
    | none => s
    | some k =>
      if (s.ready k || k.status == .queued) && decide (k.nextAge ≤ s.now) then
        s.updTask task (fun k => { k with age := k.age + 1, nextAge := k.nextAge + 4096 })
      else s)

namespace State

/-- The oldest braid task of a cluster that waits for dispatch (R43). -/
def oldestBraid (s : State) (cl : Nat) : Option Task :=
  bestBy (fun a b => decide (a.readyAt < b.readyAt) || (a.readyAt == b.readyAt && decide (a.id < b.id)))
    ((s.foreground cl).filter (fun k => k.status == .pool && decide (1 < k.width)))

/-- The ready entry of highest EP of a cluster, if its resources are not free (R269). -/
def starved (s : State) (cl : Nat) : Option Task :=
  match bestBy s.entryBefore (s.foreground cl) with
  | some k => if s.resourcesFree k then none else some k
  | none => none

/-- What has stood since when, as time goes on: what is noted stays while it is the same, and starts afresh otherwise. -/
def since (now : Nat) (old : Option (Nat × Nat)) (k : Option Task) : Option (Nat × Nat) :=
  match k, old with
  | none, _ => none
  | some k, some (id, t) => if id = k.id then some (id, t) else some (k.id, now)
  | some k, none => some (k.id, now)

/-- What time leaves its mark on in a cluster (R43, R251, R269): entries that are not ready do not age, and the oldest braid and the
starved entry are noted. -/
def noteTime (s : State) (n : Nat) : State :=
  let later := s.now + n
  let s1 := s.tasks.foldl (fun (s' : State) e =>
    if Task.waits e.2 && !s.ready e.2 then s'.updTask e.1 (fun k => { k with age := 0, readyAt := later, nextAge := later + 4096 })
    else s') s
  let cls := (s.tasks.map (fun e => e.2.cluster)).eraseDups
  cls.foldl (fun (s' : State) cl => s'.updCluster cl (fun c =>
    { c with oldest := since s.now c.oldest (s.oldestBraid cl), top := since s.now c.top (s.starved cl) })) s1

end State

/-- BRAID_RESERVATION (R43). -/
def execBraidReservation (cluster : Nat) (s : State) : Result :=
  .next (match s.oldestBraid cluster, (s.cluster cluster).oldest with
    | some k, some (id, t) =>
      if id = k.id && decide (t + 65536 < s.now) && (s.reservedCores cluster).isEmpty then
        s.updCluster cluster (fun c => { c with reserve := some k.id })
      else s
    | _, _ => s)

/-! Eviction (R269, R270). -/

namespace State

/-- Whether a task holds a lock or waits at a knot, which keeps it from being chosen (R269). -/
def notVictim (s : State) (k : Task) : Bool :=
  s.locks.any (fun e => match e.2.holder with
    | some h => h.2 == k.id
    | none => false) ||
  k.strands.any (fun sid => (s.strand sid).wait == .knot)

/-- The tasks of a cluster that an entry may evict, in the order in which the sequencer chooses them (R269). -/
def victims (s : State) (cl : Nat) (e : Task) : List Task :=
  let all := (s.tasks.filter (fun x => x.2.cluster == cl && (x.2.status == .running || x.2.status == .yielded) && x.2.saving.isNone &&
    x.2.kind != .ballast && !s.notVictim x.2 && (x.2.kind == .backfill || decide (s.taskEff x.2 + 4 ≤ s.queueOf e)))).map (·.2)
  all.foldl (fun acc k => insertVictim k acc) []
where
  insertVictim (k : Task) : List Task → List Task
    | [] => [k]
    | x :: xs =>
      if decide (s.taskEff k < s.taskEff x) || (s.taskEff k == s.taskEff x && decide (x.started < k.started)) then k :: x :: xs
      else x :: insertVictim k xs

/-- The state as it would be with tasks off their strands. -/
def without (s : State) (ks : List Task) : State := ks.foldl (fun s k => s.freeStrands k) s

/-- The shortest run of victims whose eviction frees what an entry needs (R269). -/
def victimRun (s : State) (e : Task) : List Task → List Task → Option (List Task)
  | _, [] => none
  | pre, k :: ks =>
    let run := pre ++ [k]
    if (s.without run).resourcesFree e then some run else s.victimRun e run ks

end State

/-- EVICTION_MARK (R269): an entry starved for 4,096 cycles marks its victims. -/
def execEvictionMark (cluster : Nat) (s : State) : Result :=
  .next (match s.starved cluster, (s.cluster cluster).top with
    | some e, some (id, t) =>
      if id = e.id && decide (t + 4096 ≤ s.now) then
        match s.victimRun e [] (s.victims cluster e) with
        | some ks => ks.foldl (fun s k => s.updTask k.id (fun k => { k with marked := some s.now, victimOf := e.id })) s
        | none => s
      else s
    | _, _ => s)

/-- EVICTION (R267, R270): a mark is cleared where the entry no longer needs it, or where the task has since taken a lock; a victim leaves at its yield, or after 16,384 cycles by
forced pre-emption. PREEMPT_SAVE_COMPLETE saves it. -/
def execEviction (task : Nat) (s : State) : Result :=
  .next (match s.tasks.get? task with
    | none => s
    | some k =>
      match k.marked with
      | none => s
      | some m =>
        let needed := match s.tasks.get? k.victimOf with
          | some e =>
            if e.status = .queued then (s.queuedJobs k.cluster true).any (fun j => j.id == e.id && !s.resourcesFree j)
            else s.ready e && !s.resourcesFree e
          | none => false
        if !needed || s.notVictim k then s.updTask task (fun k => { k with marked := none })
        else if k.saving.isSome then s
        else if k.status = .yielded ∨ (k.status = .running ∧ m + 16384 ≤ s.now) then
          s.updTask task (fun k => { k with saving := some .evicted })
        else s)

/-! Ballast (R272, R273). -/

namespace State

/-- The ballast tasks that run on a core. -/
def ballastOn (s : State) (gid : Nat) : Nat :=
  (s.tasks.filter (fun e => e.2.kind == .ballast && e.2.strands.any (fun sid => gidOf sid == gid))).length

/-- The ballast tasks of a cluster. -/
def ballastIn (s : State) (cl : Nat) : List Task := (s.tasks.filter (fun e => e.2.kind == .ballast && e.2.cluster == cl)).map (·.2)

/-- Whether a ready foreground entry or backfill job of the cluster needs the strand or the rows of a ballast task (R273): it fits without
that task, or without all of the cluster's ballast but not without the others alone. -/
def ballastWanted (s : State) (k : Task) : Bool :=
  let all := s.ballastIn k.cluster
  (s.foreground k.cluster ++ s.entriesOf k.cluster false).any (fun e => !s.resourcesFree e &&
    ((s.without [k]).resourcesFree e || ((s.without all).resourcesFree e && !(s.without (all.filter (fun x => x.id != k.id))).resourcesFree e)))

end State

/-- BALLAST_DISPATCH (R43, R272): a free strand that no foreground entry or backfill job could use in this cycle, and on no reserved core,
takes a ballast task; an entry that may not run is counted in telemetry. -/
def execBallastDispatch (cluster : Nat) (s : State) : Result :=
  let e := s.entryAt cluster (fieldN (s.devReg 0x200) 36 12)
  let want := (s.cluster cluster).demand
  .next (if want = 0 ∨ !bitAt (s.devReg 0x200) 35 then s
    else if e.bad || e.outMask != 0 || e.inMask != 0 || e.width != 0 then { s with telem := { s.telem with ballast := s.telem.ballast + 1 } }
    else if (s.taken cluster).isSome then s
    else
      let barred := s.reservedCores cluster
      let core := (span (8 * cluster) 8).findSome? (fun g =>
        if !barred.contains g && decide (s.ballastOn g < want) then s.coreFits g e.amRows else none)
      match core with
      | none => s
      | some seat =>
        let n := s.newId
        let k : Task := { Task.empty with
          id := n.1
          kind := .ballast
          status := .running
          cluster := cluster
          micros := [⟨0, fieldN (s.devReg 0x200) 36 12, [0, 0, 0, 0, 0, 0], [1, 1, 1, 1, 1, 1], [], [], []⟩]
          amRows := e.amRows }
        ({ n.2 with tasks := n.2.tasks.set n.1 k } : State).dispatch k cluster [seat] none)

/-- BALLAST_KILL (R273, R310): a ballast task goes at its next bundle boundary when an entry or a job needs its strand or rows, or when
demand falls. -/
def execBallastKill (task : Nat) (s : State) : Result :=
  .next (match s.tasks.get? task with
    | none => s
    | some k =>
      let beyond := k.strands.any (fun sid => decide ((s.cluster k.cluster).demand < s.ballastOn (gidOf sid)))
      if k.kind = .ballast && (beyond || s.ballastWanted k) then s.killTask task .cancelled else s)

end Sys2Proof.Machine
end

