-- ==== Sys2Proof/Machine/Retire.lean ====
section
/-! DEFINITION. How work ends (R39, R283, R296, R297): backfill jobs, the retirement of tasks and records, the detection of termination
(R257 to R259), and work stealing (R260, R261). -/

namespace Sys2Proof.Machine

open Sys2Proof

namespace State

/-- Whether an engine operation of a task is in flight on the cores of its strands (R39). -/
def taskEngines (s : State) (k : Task) : Bool :=
  k.strands.any (fun sid =>
    let c := s.core (gidOf sid)
    (c.mq ++ c.gq).any (fun o => o.task == k.id) || c.chans.any (fun ch => ch.2.any (fun o => o.task == k.id)) ||
    c.nq.any (fun o => o.task == k.id))

/-- Whether a task may retire: its microprograms have ended, its engine operations have completed, no failure of one is untaken, its
own accesses have performed, and none of its contributions stands in the switches (R39, R241, R556); a task to be killed does not. -/
def mayRetire (s : State) (k : Task) : Bool :=
  k.status == .ended && k.saving.isNone && !s.isDoomed k.id 0 && !s.taskEngines k && s.swRed.all (fun r => r.task != k.id) &&
  k.strands.all (fun sid =>
    let t := s.strand sid
    t.fails.isEmpty && t.wq.isEmpty && t.lb.all (fun e => !e.unread))

/-- A task leaves its strands, closes the scopes that each of them still has open, and leaves all its writes visible (R39, R241, R307). -/
def leaveStrands (s : State) (k : Task) : State :=
  (k.strands.foldl (fun s sid => s.releaseParts (2 * k.id, sid) none) (s.scopeCloseAll (k.strands.map s.strand))).freeStrands k

/-- The record that a context issues makes no more tasks: the weight it has not handed out is back at the walker (R259). -/
def endIssueOf (s : State) (c : Nat) : State :=
  { s with records := s.records.map (fun e => if e.1 = (s.ctx c).issued then
      (e.1, { e.2 with issuing := false, wBack := e.2.wBack + e.2.wLeft, wLeft := 0 }) else e) }

/-- A context that a request of the sequence unit for a task that has already issued finds failed (R279): it enters state 3, and the
trap report names the task's record. -/
def failCtx (s : State) (k : Task) (cls : TrapClass) : State :=
  let c := k.ctx
  if (s.ctx c).state = 0 ∨ (s.ctx c).state = 3 then s
  else
    let m := microOf k
    let s1 := (s.endIssueOf c).updCtx c (fun x => { x with state := 3, wait := .none, progress := 0, issued := 0, trap := some (cls, m.recIdx, m.entry) })
    ({ s1 with clusters := s1.clusters.map (fun e => (e.1, { e.2 with allocWait := e.2.allocWait.filter (fun x => x.1 != c) })) } : State).postReport
      ⟨8, cls, 0, m.recIdx, m.entry, 0, 0, k.home, c, 0⟩

/-- What the sequence unit does for a task of a SEQ record at its retirement (R280, R283, R290). -/
def retireSeq (s : State) (k : Task) : SeqRes :=
  match k.seq with
  | none => .ok s
  | some q =>
    let root := (s.ctx k.ctx).walker.troot
    let s1 := if k.strands.any (fun sid => bitAt ((s.strand sid).cwn 0x008) 0) then
        match s.seqDesc root q.desc with
        | .ok d => s.seqFlag root d 62 true
        | .error _ => s
      else s
    if q.app then s1.inTurn (1, k.id) (s1.appendRun root q.desc q.layer q.pos q.count) else .ok s1

/-- A task retired: its strands and windows are free, its boxes too, and its record has one task fewer (R39, R191, R306). -/
def retireNow (s : State) (k : Task) : State :=
  let s1 := s.leaveStrands k
  let s2 := ({ s1 with tasks := s1.tasks.del k.id } : State).boardTask k false
  (s2.scopeUnbind k.home).recordReturn k.record k.weight

end State

/-- TASK_RETIRE (R39, R191, R283, R306): an append that waits for a block keeps the task (R280), and one that fails fails the context
(R279). -/
def execTaskRetire (task : Nat) (s : State) : Result :=
  .next (match s.tasks.get? task with
    | none => s
    | some k =>
      if k.kind = .backfill || !s.mayRetire k then s
      else match s.retireSeq k with
      | .wait => s.kvJoin (1, k.id)
      | .busy => s
      | .fail c => (s.failCtx k c).retireNow k
      | .ok s1 => s1.retireNow k)

/-! Backfill jobs (R296, R297). -/

namespace State

/-- A job out of its die's queue (R296). -/
def unqueue (s : State) (die id : Nat) : State := { s with backfill := s.backfill.set die ((s.backfill.get [] die).filter (· != id)) }

/-- A job's entry brought from PENDING to a state, under R244 (R297). -/
def settleEntry (s : State) (k : Task) (st : Nat) : State :=
  match k.seq with
  | none => s
  | some q =>
    let root := (s.ctx k.ctx).walker.troot
    match s.seqDesc root q.desc with
    | .error _ => s
    | .ok d => if s.kvStateOr root d q.pos q.layer = 2 then s.setKvState root d q.pos q.layer st else s

/-- A job gone: its scope has one item fewer (R306). -/
def endJob (s : State) (k : Task) : State := ({ s with tasks := s.tasks.del k.id } : State).scopeUnbind k.home

end State

/-- BACKFILL_DISPATCH (R251, R252, R296, R297): the entry that the sequencer of the cluster for the die's next job takes is a queued
job. It fails, or it is dispatched; power control may hold that (R332). -/
def execBackfillDispatch (die : Nat) (s : State) : Result :=
  let cl := s.jobCluster die
  .next (match s.taken cl with
    | none => s
    | some k =>
      if k.status ≠ .queued then s
      else match s.jobFault k cl with
      | some c => (s.unqueue die k.id).updTask k.id (fun k => { k with status := .ended, failed := some c })
      | none =>
        match s.place4 k cl with
        | some (seats, line) => if s.power.hold then s else ((s.ageTies cl k).unqueue die k.id).dispatch k cl seats line
        | none => s)

/-- BACKFILL_RETIRE (R297): the entry of a job that ran to its end becomes VALID, that of one that failed DROPPED, with its one
report. -/
def execBackfillRetire (task : Nat) (s : State) : Result :=
  .next (match s.tasks.get? task with
    | none => s
    | some k =>
      if k.kind ≠ .backfill then s
      else match k.failed with
      | some c => s.unlessFull (fun s =>
          let sid := k.strands.headD 0
          let r := s.reportOf 7 c 0 0 0 sid task
          let r1 : Report := { r with strand := if k.strands.isEmpty then 0 else r.strand }
          ((s.settleEntry k 3).endJob k).postReport r1)
      | none => if s.mayRetire k then ((s.settleEntry k 1).leaveStrands k).endJob k else s)

/-! Records (R39, R257 to R259). -/

/-- RECORD_RETIRE (R39, R258, R259): every task has retired, spawned ones too, and every transfer made for the record is over (R223); the
join counter falls (R425). -/
def execRecordRetire (record : Nat) (s : State) : Result :=
  .next (match s.records.get? record with
    | none => s
    | some r =>
      let done := !r.issuing && r.returned == r.total && s.lowered.all (fun l => l.record != record) &&
        (if s.weighted r.ctx then r.wBack == r.wTotal else !r.spawned || r.declared)
      if !done then s
      else
        let s1 : State := { s with records := s.records.del record }
        match r.join with
        | none => s1
        | some j => s1.updCtx r.ctx (fun c => { c with walker := { c.walker with j := c.walker.j.set j (c.walker.j.get 0 j - 1) } }))

namespace State

/-- The module signal of a context (R257): no entry, strand, resume slot or job of it, and no engine operation in flight. -/
def quietCtx (s : State) (c : Nat) : Bool :=
  s.tasks.all (fun e => e.2.ctx != c || e.2.kind == .ballast || e.2.status == .away) &&
  s.cores.all (fun g => (g.2.mq ++ g.2.gq).all (fun o => o.stamp.ctx != c || isCtrl o.sid) &&
    g.2.chans.all (fun ch => ch.2.all (fun o => o.stamp.ctx != c || isCtrl o.sid)) &&
    g.2.nq.all (fun o => o.stamp.ctx != c || isCtrl o.sid))

/-- Whether a context has an open spawning record (R258). -/
def openSpawn (s : State) (c : Nat) : Bool := s.records.any (fun e => e.2.ctx == c && e.2.spawned && !e.2.declared)

end State

/-- TERMINATION_SAMPLE (R258): the walker of a context with an open spawning record samples the signal and the two counts. -/
def execTerminationSample (ctx : Nat) (s : State) : Result :=
  .next (if s.weighted ctx || !s.openSpawn ctx then s
    else
      let x := (s.now, s.quietCtx ctx, s.steal.sent.get 0 ctx, s.steal.done.get 0 ctx)
      { s with steal := { s.steal with samples := s.steal.samples.set ctx (s.steal.samples.get [] ctx ++ [x]) } })

/-- TERMINATION_DECLARE (R258): two samples 64 cycles apart that agree declare termination. -/
def execTerminationDeclare (ctx : Nat) (s : State) : Result :=
  let xs := s.steal.samples.get [] ctx
  let agree := xs.any (fun a => xs.any (fun b => a.1 + 64 == b.1 && a.2.1 && b.2.1 && a.2.2.1 == a.2.2.2 && b.2.2.1 == b.2.2.2 &&
    a.2.2 == b.2.2))
  .next (if !agree then s
    else { s with
      records := s.records.map (fun e => if e.2.ctx = ctx ∧ e.2.spawned ∧ !e.2.issuing then (e.1, { e.2 with declared := true }) else e)
      steal := { s.steal with samples := s.steal.samples.set ctx [] } })

/-- WEIGHT_FETCH (R256, R259): a parent at weight 1 gets 2^31 more, and its record's total grows; a parent that was parked for it may
then have its entry. -/
def execWeightFetch (task : Nat) (s : State) : Result :=
  .next (match s.tasks.get? task with
    | none => s
    | some k =>
      if !s.needsWeight k then s
      else
        let s1 := s.updTask task (fun k => { k with weight := k.weight + 2 ^ 31 })
        let s2 : State := match s1.records.get? k.record with
          | some r => { s1 with records := s1.records.set k.record { r with wTotal := r.wTotal + 2 ^ 31 } }
          | none => s1
        s2.grantParked k.cluster)

/-! Stealing (R260, R261). -/

namespace State

/-- Whether a parent's covered accesses are done but for what the switches hold, which the release at POD scope drives home (R221,
R260). -/
def parentDone (s : State) (k : Task) : Bool :=
  match k.after with
  | some (sid, n) => (s.strand sid).readsDone n && (s.strand sid).writesDone n
  | none => true

/-- The tasks of the module that may be stolen, oldest first (R260). -/
def stealable (s : State) : List Task :=
  (s.tasks.filter (fun e => e.2.status == .pool && e.2.steal && !e.2.region && s.parentDone e.2 && s.ctxLive e.2.ctx &&
    !s.deadAt e.2.cluster e.2.home)).map (·.2)

/-- The release at POD scope of a parent's covered writes that goes before a stolen task (R221, R260). -/
def releaseParent (s : State) (k : Task) : State :=
  match k.after with
  | some (sid, n) => s.flushReds sid n s.swRed.length
  | none => s

/-- A task sent to another module (R260, R261). -/
def sendTask (s : State) (k : Task) : State :=
  let s1 := (s.releaseParent k).updTask k.id (fun k => { k with status := .away })
  (({ s1 with steal := { s1.steal with sent := s1.steal.sent.set k.ctx (s1.steal.sent.get 0 k.ctx + 1) } } : State)).grantParked k.cluster

/-- A microprogram of a task that another module sends, its record's fields and its handles' being free (R34, R255). -/
def strangeMicro (f : Nat) : Micro :=
  let v (i : Nat) : Nat := Config.freeNat (f + i)
  ⟨v 0 % 2 ^ 32, v 1 % 4096, (span 2 6).map v, (span 8 6).map (fun i => v i % 2 ^ 32), (span 14 6).map (fun i => BitVec.ofNat 64 (v i)), [], []⟩

/-- A task that another module sends (R260, R261): what it brings of R34 or R255 is free, and it runs on the cluster with the fewest
queued tasks. Its home scope here is the root of its context (log entry 33). -/
def stealIn (s : State) : State :=
  let v (i : Nat) : Nat := Config.freeNat (s.free + i)
  let child := decide (v 0 % 2 = 1)
  let n := if child then 1 else v 1 % 16 + 1
  let micros := (span 0 n).map (fun i => strangeMicro (s.free + 32 + 32 * i))
  let s0 : State := { s with free := s.free + 32 + 32 * n }
  let cl := (s0.leastLoaded (span 0 80)).getD 0
  let es := micros.map (fun m => s0.entryAt cl m.entry)
  let c := v 2 % 64
  if es.any (fun e => e.bad) || !s0.ctxLive c || s0.poolFull cl then s0
  else
    let id := s0.newId
    id.2.addTask { Task.empty with
      id := id.1
      kind := if child then .child else .op
      status := .pool
      ctx := c
      cluster := cl
      micros := micros
      ordinal := v 3 % 2 ^ 32
      width := es.foldl (fun m e => Nat.max m (e.width + 1)) 1
      amRows := es.foldl (fun m e => Nat.max m e.amRows) 0
      home := (s0.ctx c).walker.root
      scopeId := v 4 % 65536
      prio := v 5 % 16
      steal := true
      args := if child then (13, BitVec.ofNat 64 (v 6)) :: (15, BitVec.ofNat 64 c) :: (span 16 6).map (fun r => (r, BitVec.ofNat 64 (v r))) else []
      crs := [(0x005, BitVec.ofNat 64 (v 7 % 2 ^ 32)), (0x009, BitVec.ofNat 64 (v 8 / 64 * 64))]
      readyAt := s0.now
      nextAge := s0.now + 4096 }

/-- Whether the token may pass to a module now (R261): it goes in ascending order and wraps around, one module per 1 µs, and does not
miss this module; which others have joined is free. -/
def tokenNext (s : State) (module : Nat) : Bool :=
  match s.steal.token with
  | none => decide (module < 288)
  | some (at_, since) =>
    let far (m : Nat) : Nat := (m + 287 - at_) % 288
    decide (module < 288) && decide (since + 1200 ≤ s.now) && !s.service.absent.contains module &&
      (module == s.module || decide (far module < far s.module))

end State

/-- STEAL_TOKEN_PASS (R261): the token reaches a module. At this module a request is attached, granted or dropped; what another module
does is free, and `count` is its load. -/
def execStealTokenPass (module count : Nat) (s : State) : Result :=
  let low := s.devReg 0x200 % 4096
  let high := fieldN (s.devReg 0x200) 12 12
  let setReq (s : State) (r : Option Nat) : State := { s with steal := { s.steal with request := r } }
  let note (s : State) (n : Nat) : State :=
    { s with steal := { s.steal with counts := s.steal.counts.set module n, token := some (module, s.now) } }
  .next (if !bitAt (s.devReg 0x200) 34 || !s.tokenNext module then s
    else if module = s.module then
      let own := s.stealable
      let s1 := note s own.length
      match s.steal.request with
      | none => if own.length < low then setReq s1 (some module) else s1
      | some r =>
        if r = module then setReq s1 none
        else if high < own.length then
          setReq ((own.take (Nat.min 16 ((own.length - high) / 2))).foldl (fun s k => s.sendTask k) s1) none
        else s1
    else
      let f := (note s count).takeFree
      match s.steal.request with
      | none => if f.1 % 2 = 1 then setReq f.2 (some module) else f.2
      | some r =>
        if r = module then setReq f.2 none
        else if r = s.module then
          (if f.1 % 18 = 0 then f.2 else setReq (iter (fun s => s.stealIn) (f.1 % 18 - 1) f.2) none)
        else if f.1 % 2 = 1 then setReq f.2 none
        else f.2)

/-- STOLEN_TASK_COMPLETION (R261): the thief's message arrives, DONE rises, and the task has retired. -/
def execStolenTaskCompletion (task : Nat) (s : State) : Result :=
  .next (match s.tasks.get? task with
    | none => s
    | some k =>
      if k.status ≠ .away then s
      else
        let s1 : State := { s with
          tasks := s.tasks.del k.id
          steal := { s.steal with done := s.steal.done.set k.ctx (s.steal.done.get 0 k.ctx + 1) } }
        ((s1.boardTask k false).scopeUnbind k.home).recordReturn k.record k.weight)

end Sys2Proof.Machine
end

