-- ==== Sys2Proof/Machine/Faults.lean ====
section
/-! DEFINITION. Work that stops before it finishes (R308 to R321): a CANCEL taking effect and completing, the commands of STRANDCMD on
a frozen or running strand, an uncorrectable error in a strand or an engine, and when a pre-empted task is saved. -/

namespace Sys2Proof.Machine

open Sys2Proof

namespace State

/-! The fate of the work of a scope or context (Table 12-2). -/

/-- One work item killed or removed (Table 12-2): the state after, and what it adds to KILLED and REMOVED. One that is to be killed
already is not killed again. -/
def fell (s : State) (k : Task) : State × Nat × Nat :=
  if s.isDoomed k.id 0 then (s, 0, 0)
  else match k.status with
  | .pool => (s.dropTask k .cancelled, 0, 1)
  | .queued => (((s.settleEntry k 3).unqueue (((s.backfill.find? (fun e => e.2.contains k.id)).map (·.1)).getD 0) k.id).endJob k, 0, 1)
  | .parked => (s.killTask k.id .cancelled, 0, 1)
  | .evicted => (s.killTask k.id .cancelled, 0, 1)
  | .saved => (s.killTask k.id .cancelled, 0, 1)
  | .away => (s, 0, 0)
  | _ => if k.failed.isSome then (s, 0, 0) else (s.killTask k.id .cancelled, 1, 0)

/-- Every work item of a kind killed or removed (R310, R322), with the counts. -/
def sweep (s : State) (p : Task → Bool) : State × Nat × Nat :=
  (s.tasks.filter (fun e => p e.2)).foldl (fun (acc : State × Nat × Nat) e =>
    match acc.1.tasks.get? e.1 with
    | some k =>
      let r := acc.1.fell k
      (r.1, acc.2.1 + r.2.1, acc.2.2 + r.2.2)
    | none => acc) (s, 0, 0)

end State

/-- CANCEL_TAKE_EFFECT (R309, R310): the work of the subtree goes at the unit, at a bundle boundary, and with it what a unit that the
CANCEL had not reached has meanwhile sent to one that it had; from now on the unit sees the scope cancelled. -/
def execCancelTakeEffect (cancel unit : Nat) (s : State) : Result :=
  .next (match s.cancels.get? cancel with
    | none => s
    | some c =>
      let taken := c.taken ++ [unit]
      let mine (k : Task) : Bool := s.scopeUnder c.target k.home &&
        (if k.status = .queued then taken.any (fun u => 80 ≤ u && u < 88 && (s.backfill.get [] (u - 80)).contains k.id)
         else taken.contains k.cluster)
      if c.taken.contains unit || 152 ≤ unit then s
      else
        let s1 : State := { s with cancels := s.cancels.set cancel { c with taken := taken } }
        if c.void || c.target = 0 then s1
        else
          let r := s1.sweep mine
          let s2 := r.1.grantAll
          match s2.cancels.get? cancel with
          | some d => { s2 with cancels := s2.cancels.set cancel { d with killed := d.killed + r.2.1, removed := d.removed + r.2.2 } }
          | none => s2)

namespace State

/-- Whether an engine operation of a killed task of a context is in flight. -/
def deadEngines (s : State) (c : Nat) : Bool :=
  let gone (sid task : Nat) (p : Stamp) : Bool := p.ctx == c && !isCtrl sid &&
    (match s.tasks.get? task with
      | none => true
      | some k => k.failed.isSome)
  s.cores.any (fun g => (g.2.mq ++ g.2.gq).any (fun o => gone o.sid o.task o.stamp) ||
    g.2.chans.any (fun ch => ch.2.any (fun o => gone o.sid o.task o.stamp)) || g.2.nq.any (fun o => gone o.sid o.task o.stamp))

/-- Whether a contribution of a task that has gone stands in the switches: its write has still to perform (R222, R247). -/
def deadReds (s : State) : Bool := s.swRed.any (fun r => r.task != 0 && (match s.tasks.get? r.task with
  | none => true
  | some k => k.failed.isSome))

/-- Whether a cancelled subtree is quiescent (R247, R311). -/
def quiescent (s : State) (c : CancelOp) : Bool :=
  c.void || (!s.deadEngines c.ctx && !s.deadReds &&
    (c.target == 0 || (cancelUnits.all (fun u => c.taken.contains u) &&
      s.tasks.all (fun e => !s.scopeUnder c.target e.2.home || e.2.status == .away))))

/-- The completion word of a CANCEL (Table 12-3). -/
def cancelWord (c : CancelOp) : Nat :=
  pack [(20, Nat.min c.removed (2 ^ 20 - 1)), (20, Nat.min c.killed (2 ^ 20 - 1)), (22, 0), (1, c.void.toNat), (1, 1)]

/-- A completion word written at a virtual address, as a release at CHIP (R308); or the class with which it cannot be. -/
def putWord (s : State) (root va v : Nat) : Except TrapClass State :=
  if va < 2 ^ 32 ∨ 2 ^ 57 < va + 8 then .error .accv
  else match s.vplaces root .store [(va, 8)] with
    | .ok _ => .ok (s.vput root va 8 v)
    | .error c => .error c

end State

/-- CANCEL_COMPLETE (R308, R309, R311, R421): the completion word is written, or its failure reported, and the counter completes. Every
unit has taken the CANCEL then, and so any other of its scope. -/
def execCancelComplete (cancel : Nat) (s : State) : Result :=
  .next (match s.cancels.get? cancel with
    | none => s
    | some c =>
      if !s.quiescent c then s
      else
        let close (s : State) (canc : Bool) : State :=
          let s1 : State := { s with cancels := (s.cancels.del cancel).map (fun e =>
            if e.2.target = c.target ∧ c.target ≠ 0 then (e.1, { e.2 with taken := State.cancelUnits }) else e) }
          match c.sid with
          | some sid => s1.completeTok sid c.task c.prod canc
          | none => s1
        let root := match c.sid with
          | some sid => if isCtrl sid then (s.ctrlSpace (gidOf sid - 4096)).2 else (s.ctx c.ctx).walker.troot
          | none => (s.ctx c.ctx).walker.troot
        if c.word = 0 then close s false
        else match s.putWord root c.word (State.cancelWord c) with
          | .ok s1 => close s1 false
          | .error cls => s.unlessFull (fun s => close (s.postReport (c.stamp.report 10 cls c.word c.prod 0)) true))

/-! STRANDCMD (R315, R316). -/

namespace State

/-- A command over: ERR tells whether it was refused, and BUSY is clear (Tables 12-5, 13-2). -/
def endCommand (s : State) (off : Nat) (err : Bool) : State :=
  s.setDev off (setField (setField (s.devReg off) 61 1 err.toNat) 62 1 0)

/-- The strand that a command's target names, if a task is bound to it (R315). -/
def cmdStrand (s : State) (target : Nat) : Option Nat :=
  let sid := target % 2 ^ 16
  let t := s.strand sid
  if target / 2 ^ 16 ≠ s.module then none
  else if isCtrl sid then (if gidOf sid < 4096 + 64 ∧ (t.mpc ≠ 0 ∨ t.trap.isSome) then some sid else none)
  else if sid < 5120 ∧ t.task ≠ 0 then some sid
  else none

/-- A command that has begun and not ended: BUSY reads 1 (Table 12-5). -/
def busyCommand (s : State) (off : Nat) : State := s.setDev off (setField (s.devReg off) 62 1 1)

/-- Whether the trap of a strand's gang still waits for room in the report queue: the strand then stays frozen (R318). -/
def reportHeld (s : State) (sid : Nat) : Bool :=
  (s.gang sid).any (fun m => s.frqHeld.any (fun r => r.kind == 0 && r.strand == s.strandName m))

/-- The class with which a command kills: that of the trap the strand is frozen by, or runs a handler for. -/
def killClass (s : State) (sid : Nat) : TrapClass :=
  let traps := (s.gang sid).filterMap (fun m => match (s.strand m).trap, (s.strand m).handler with
    | some t, _ => some t.cls
    | none, some h => some h.trap.cls
    | none, none => none)
  traps.headD .cancelled

end State

/-- STRANDCMD_RESUME (R315 action 0, R318, R556). -/
def execStrandcmdResume (target : Nat) (s : State) : Result :=
  .next (match s.cmdStrand target with
    | none => s.endCommand 0x528 true
    | some sid =>
      if !s.frozen sid then s.endCommand 0x528 true
      else if s.reportHeld sid then s.busyCommand 0x528
      else
        let s1 := (s.resumeGang sid).endCommand 0x528 false
        if (s.taskOf sid).status = .frozenEnd then
          let s2 := s1.updTask (s.strand sid).task (fun k => { k with status := .ended })
          (s2.freezeLast sid).getD s2
        else s1)

/-- STRANDCMD_HANDLER (R315 action 1, R316, R318). -/
def execStrandcmdHandler (target handler : Nat) (s : State) : Result :=
  .next (match s.cmdStrand target with
    | none => s.endCommand 0x528 true
    | some sid =>
      if (s.strand sid).trap.isNone || (s.strand sid).braid.isSome || (s.taskOf sid).status == .frozenEnd || handler < 0x800 then
        s.endCommand 0x528 true
      else if s.reportHeld sid then s.busyCommand 0x528
      else (s.enterHandler sid handler).endCommand 0x528 false)

/-- STRANDCMD_KILL (R315 action 2): the kill is reported with the class of the trap. -/
def execStrandcmdKill (target : Nat) (s : State) : Result :=
  .next (match s.cmdStrand target with
    | none => s.endCommand 0x528 true
    | some sid =>
      let cls := s.killClass sid
      (if isCtrl sid then s.killCtrl sid cls else s.killTask (s.strand sid).task cls).endCommand 0x528 false)

/-- STRANDCMD_PREEMPT (R315 action 3): the task is to be saved. A control core's strand has no task to save (log entry 10), and a ballast
task is not saved (R273). -/
def execStrandcmdPreempt (target : Nat) (s : State) : Result :=
  .next (match s.cmdStrand target with
    | none => s.endCommand 0x528 true
    | some sid =>
      if isCtrl sid then s.endCommand 0x528 true
      else
        let k := s.taskOf sid
        (if k.kind = .ballast then s.killTask k.id .cancelled else s.updTask k.id (fun k => { k with saving := some .saved })).endCommand
          0x528 false)

/-- The matrix engine's running operation, or the first MGV that has started, of a core. -/
def State.engineOp (s : State) (gid : Nat) (mgv : Bool) : Option MOp :=
  if mgv then (s.core gid).gq.find? (fun o => o.started) else s.runningMat gid

/-- UNCORRECTABLE_ERROR (R148, R317): an error in a strand's own state kills its task, and nothing else. The numbers from 2^16 name the
matrix engine of a core, those from 2^17 a core's MGV in a base die: an error in the engine's own buffers fails the operation that runs
with MCHK, its tile as the last completed pass left it. -/
def execUncorrectableError (sid : Nat) (s : State) : Result :=
  let engine (mgv : Bool) (kind : Nat) : State :=
    match s.engineOp (sid % 2 ^ 16) mgv with
    | some o => s.unlessFull (fun s => s.endMat o kind (some (State.failAt .mchk 0 .load 0)) false)
    | none => s
  .next (let t := s.strand sid
    if 2 ^ 17 ≤ sid then engine true 3
    else if 2 ^ 16 ≤ sid then engine false 2
    else if isCtrl sid then (if t.mpc = 0 then s else s.killCtrl sid .mchk)
    else if t.task = 0 then s else s.killTask t.task .mchk)

/-! Saving (R319 to R321). -/

namespace State

/-- The next bundle of a strand held with PERF 0, and its wait left to start again (R319). What waits in a SLEEP, at a knot or for
its braid goes on waiting when it is back. -/
def holdNext (s : State) (sid : Nat) : State :=
  let t := s.strand sid
  let wait := match t.wait with
    | .sleep till => Wait.sleep till
    | w => if w.idle then w else .none
  let s1 := match t.wait with
    | .lock _ => s.lockLeave sid
    | _ => s
  let hold := t.replay.isNone && t.handler.isNone && t.trap.isNone && !t.wait.idle && 0x800 ≤ t.mpc
  s1.setStrand sid { t with
    wait := wait
    replay := if hold then some ⟨s.peekBundle sid t.mpc, 0⟩ else t.replay
    grp := Group.new }

/-- Whether a task may be saved (R92, R319, R321): at a bundle boundary, with its landing data arrived, its accesses performed, its
engine operations and CANCELs over, no trap of it waiting for its report, and in handler mode the handler's results landed. A task to be
killed is not saved. -/
def maySave (s : State) (k : Task) : Bool :=
  !s.isDoomed k.id 0 && !s.taskEngines k && !k.strands.any s.reportHeld && k.strands.all (fun sid =>
    let t := s.strand sid
    t.xlat.isEmpty && t.wq.isEmpty && t.lb.all (fun e => e.arrived) && (t.handler.isNone || t.settled)) &&
  s.cancels.all (fun c => c.2.task != k.id)

end State

/-- PREEMPT_SAVE_COMPLETE (R319): the strands of a task are saved and freed, and a pre-emption by STRANDCMD is reported. -/
def execPreemptSaveComplete (task : Nat) (s : State) : Result :=
  .next (match s.tasks.get? task with
    | none => s
    | some k =>
      match k.saving with
      | none => s
      | some st =>
        if !s.maySave k then s
        else
          let save (s : State) : State :=
            let s1 := if k.status = .running then k.strands.foldl (fun s sid => s.holdNext sid) s else s
            let s2 := (k.strands.foldl (fun s sid => s.saveStrand sid k.home) s1).inheritAll
            let saved := k.strands.map (fun sid =>
              let t := s2.strand sid
              let rows := rowBase (gidOf sid) t.amBase
              (⟨sid, t, s2.bytesAt rows (512 * t.amRows), s2.poisonAt rows (512 * t.amRows)⟩ : Saved))
            let gang := k.line.bind (fun b => s2.braids.get? b)
            let s3 := (s2.updTask task (fun k => { k with
              status := st, saving := none, saved := saved, gang := gang, marked := none
              age := 0, readyAt := s.now, nextAge := s.now + 4096 })).freeStrands k
            s3.grantParked k.cluster
          if st = .saved then
            s.unlessFull (fun s =>
              let r := s.reportOf 9 .preempt 0 0 0 (k.strands.headD 0) task
              (save s).postReport r)
          else save s)

end Sys2Proof.Machine
end

