-- ==== Sys2Proof/Machine/Walker.lean ====
section
/-! DEFINITION. The graph walker (R23 to R26, R416, R417): its reads, its traps, the order of its records and their waits, and how a
graph context ends. -/

namespace Sys2Proof.Machine

open Sys2Proof

namespace State

/-- The walker that acts. -/
def wk (s : State) : Walker := (s.ctx s.curCtx).walker
def updWk (s : State) (f : Walker → Walker) : State := s.updCtx s.curCtx (fun c => { c with walker := f c.walker })

/-- A dimension register of the walker that acts, and a write of one (R24, R416). -/
def dim (s : State) (r : Nat) : Nat := (s.wk.d.get 0 r).toNat
def setDim (s : State) (r v : Nat) : State := s.updWk (fun w => { w with d := w.d.set r (BitVec.ofNat 64 v) })

/-- The index of the current record (R25). -/
def recIndex (s : State) (c : Nat) : Nat :=
  let w := (s.ctx c).walker
  codeN 64 ((w.gpc : Int) - w.gbase) / 32 % 2 ^ 32

/-- GPC moved by a number of records, the record over (R416). -/
def leap (s : State) (disp : Int) : State :=
  s.updCtx s.curCtx (fun c => { c with
    state := 1, wait := .none, progress := 0, issued := 0
    walker := { c.walker with gpc := codeN 64 ((c.walker.gpc : Int) + 32 * disp) } })

/-- The next record (R416). -/
def advance (s : State) : State := s.leap 1

/-- A transfer by the signed displacement of imm32 (R416). -/
def leapTo (s : State) (imm : Nat) : State := s.leap (signedN 32 imm)

/-- The context waits at its record (R416). -/
def waitAt (s : State) (w : CtxWait) : State := s.updCtx s.curCtx (fun c => { c with state := 2, wait := w })

/-- The operator entry field of a record, for trap reports (R28, R51). -/
def entryField (w : Nat) : Nat := if w % 256 = 0x01 ∨ w % 256 = 0x0C ∨ w % 256 = 0x10 then fieldN w 16 12 else 0

/-- The record being issued makes no more tasks. -/
def endIssue (s : State) : State := s.endIssueOf s.curCtx

/-- What a record of a context has issued taken back (R357): its tasks leave, those still in a pool unseen and those dispatched as
killed ones, and its join counter falls (log entry 44). -/
def undoRecord (s : State) (c : Nat) (cls : TrapClass) : State :=
  let id := (s.ctx c).issued
  match s.records.get? id with
  | none => s
  | some r =>
    let mine := (s.tasks.filter (fun e => e.2.record == id)).map (·.2)
    let s1 := mine.foldl (fun s k => if k.status = .pool then s.dropTask k cls else s.killTask k.id cls) (s.endIssueOf c)
    let s2 : State := { s1 with
      records := s1.records.map (fun e => if e.1 = id then (e.1, { e.2 with join := none }) else e)
      lowered := s1.lowered.filter (fun l => l.record != id) }
    match r.join with
    | none => s2
    | some j => s2.updCtx c (fun x => { x with walker := { x.walker with j := x.walker.j.set j (x.walker.j.get 0 j - 1) } })

/-- A walker trap with room for its report (R25, R51, R357): the context enters state 3, a report of kind 8 names the record, and the
record has no effect. -/
def walkerFault (s : State) (cls : TrapClass) (entry : Nat) : State :=
  let c := s.curCtx
  let i := s.recIndex c
  let s1 := (s.postReport ⟨8, cls, 0, i, entry, 0, 0, s.wk.wscope, c, 0⟩).undoRecord c cls
  (s1.updCtx c (fun x => { x with state := 3, wait := .none, progress := 0, issued := 0, trap := some (cls, i, entry) })).kvLeave (0, c)

/-- A WALKER TRAP (R357). While the fault report queue is full the walker holds its record (R318). -/
def walkerTrap (s : State) (cls : TrapClass) (entry : Nat) : State := s.unlessFull (fun s => s.walkerFault cls entry)

/-- `n` bytes read by the walker as an acquire at CHIP (R248, R416); poison fails with POISON. -/
def wread (s : State) (va n : Nat) : Except TrapClass Nat :=
  if va < 2 ^ 32 ∨ 2 ^ 57 < va + n then .error .accv
  else match s.vplaces s.wk.troot .load (pageCut va n) with
    | .ok ps =>
      if ps.any (fun p => s.poisonIn p.1 p.2) then .error .poison
      else .ok (leNat (ps.foldr (fun p acc => s.bytesAt p.1 p.2 ++ acc) []))
    | .error c => .error c

/-- The attribute pool words of a record (R355). -/
def attrWord (s : State) (attr n : Nat) : Except TrapClass Nat := s.wread (codeN 64 ((s.wk.gbase : Int) + 8 * attr)) n

/-- What follows a walker read; a failed one is a walker trap. -/
def withRead (s : State) (r : Except TrapClass Nat) (f : State → Nat → State) : State :=
  match r with
  | .ok v => f s v
  | .error c => s.walkerTrap c 0

/-- The address of a descriptor (R330). -/
def handleVa (s : State) (h : Nat) : Nat := codeN 64 ((s.wk.htva : Int) + 64 * h)

/-- A record whose work is over, as G.JOIN all sees it (R425): no operator record of the context and none of its jobs. -/
def allJoined (s : State) (c : Nat) : Bool :=
  s.records.all (fun e => e.2.ctx != c) && s.tasks.all (fun e => e.2.ctx != c || e.2.kind != .backfill)

/-! How a context ends (R187, R305, R331, R428). -/

/-- The granules of a region given back (R185). -/
def freeRegion (s : State) (id : Nat) : State :=
  s.updCluster (regionCluster id) (fun c =>
    let u := fieldN id 10 3 * 1024 + id % 1024
    match c.regions.used.find? (fun x => x.2 == u) with
    | some x => { c with regions := c.regions.give 10 x, owners := c.owners.del id }
    | none => c)

/-- Every region of a context freed, and its waits for regions withdrawn (R187, R188). -/
def freeRegions (s : State) (c : Nat) : State :=
  let ids := s.clusters.foldr (fun k acc => (k.2.owners.filter (fun o => o.2 == c)).map (·.1) ++ acc) []
  let s1 := ids.foldl (fun s id => s.freeRegion id) s
  { s1 with clusters := s1.clusters.map (fun k => (k.1, { k.2 with allocWait := k.2.allocWait.filter (fun x => x.1 != c) })) }

/-- A scope and all that is open under it freed, whatever is still bound to it. -/
def dropScopes (s : State) (root : Nat) : State :=
  let ids := (s.scopes.filter (fun e => s.scopeUnder root e.1)).map (·.1)
  ids.foldl (fun (s : State) n => s.scopeDrop n) s

/-- The regions, scopes and root scope of a context that stops freed (R331, R428). -/
def releaseCtx (s : State) (c : Nat) : State := (s.freeRegions c).dropScopes (s.ctx c).walker.root

/-! Waits (R416). -/

/-- A context goes on with its record at the walker's next turn, which is now. -/
def wakeCtx (s : State) (c : Nat) : State :=
  let s1 := s.updCtx c (fun x => { x with state := 1, wait := .none })
  { s1 with agenda := .walker c :: s1.agenda }

end State

/-- RECORD_WAIT_END (R416, R421): a record that waits for room, for a scoreboard box, for earlier records, jobs or blocks, or for a
CANCEL to complete tries again. -/
def execRecordWaitEnd (ctx : Nat) (s : State) : Result :=
  .next (if (s.ctx ctx).leaving then s
    else match (s.ctx ctx).wait with
    | .record => s.wakeCtx ctx
    | .quiescent c =>
      if (s.cancels.get? c).isNone then
        ({ s with curCtx := ctx } : State).advance
      else s
    | _ => s)

/-- HANDLE_REWRITE_PERFORM (R26, R191): a held G.VIEW, G.TENSOR or G.FREE tries again. -/
def execHandleRewritePerform (ctx : Nat) (s : State) : Result :=
  .next (if (s.ctx ctx).wait = .rewrite && !(s.ctx ctx).leaving then s.wakeCtx ctx else s)

/-- ALLOC_GRANT (R188): the request at the head of a cluster's line tries again, once a block is free for it. -/
def execAllocGrant (cluster : Nat) (s : State) : Result :=
  .next (match (s.cluster cluster).allocWait with
    | (c, j) :: _ => if ((s.cluster cluster).regions.take j).isSome && !(s.ctx c).leaving then s.wakeCtx c else s
    | [] => s)

/-- YIELD_TIMER_EXPIRE (R435). -/
def execYieldTimerExpire (ctx : Nat) (s : State) : Result :=
  .next (match (s.ctx ctx).wait with
    | .timer till => if till ≤ s.now && !(s.ctx ctx).leaving then ({ s with curCtx := ctx } : State).advance else s
    | _ => s)

/-- DOORBELL_CHANGE (R435): the doorbell word is read again. -/
def execDoorbellChange (ctx : Nat) (s : State) : Result :=
  .next (match (s.ctx ctx).wait with
    | .bell va r =>
      let s1 : State := { s with curCtx := ctx }
      if (s.ctx ctx).leaving then s
      else match s1.wread va 8 with
      | .ok v => if v = s1.dim r then s else (s1.setDim r v).advance
      | .error c => s1.walkerTrap c 0
    | _ => s)

end Sys2Proof.Machine
end

