-- ==== Sys2Proof/Machine/Graph.lean ====
section
/-! DEFINITION. The graph records that make no tasks (R418 to R426, R428 to R431, R433 to R435) and G.EXIT (R291 to R294, R423). -/

namespace Sys2Proof.Machine

open Sys2Proof

/-- The registers that a record names in bits 149:144 and 155:150, and the bits above them (Table 16-1). -/
def regA (r : GFields) : Nat := r.spec16.toNat % 64
def regB (r : GFields) : Nat := r.spec16.toNat / 64 % 64
def regHigh (r : GFields) : Nat := r.spec16.toNat / 4096

/-! Loops, branches and calls. -/

/-- G.LOOP (R426). -/
def execGLoop (r : GFields) (s : State) : Result :=
  .next (let s1 := s.setDim (regA r) 0
    if s1.dim (regB r) = 0 then s1.leapTo r.imm32.toNat else s1.advance)

/-- G.ENDLOOP (R422). -/
def execGEndloop (r : GFields) (s : State) : Result :=
  .next (let s1 := s.setDim (regA r) (s.dim (regA r) + 1)
    if s1.dim (regA r) < s1.dim (regB r) then s1.leapTo r.imm32.toNat else s1.advance)

/-- The condition of a G.BR (R419). -/
def brTakes (cond a b : Nat) : Bool :=
  match cond with
  | 0 => true
  | 1 => a == b
  | 2 => a != b
  | 3 => decide (a < b)
  | _ => decide (b ≤ a)

/-- G.BR (R419). -/
def execGBr (r : GFields) (s : State) : Result :=
  .next (if brTakes (regHigh r) (s.dim (regA r)) (s.dim (regB r)) then s.leapTo r.imm32.toNat else s.advance)

/-- G.CALL (R420). -/
def execGCall (r : GFields) (s : State) : Result :=
  .next (if 15 ≤ s.wk.stack.length then s.walkerTrap .accv 0
    else (s.updWk (fun w => { w with stack := codeN 64 ((w.gpc : Int) + 32) :: w.stack })).leapTo r.imm32.toNat)

/-- G.RET (R428): a return, or the end of the program once all of its work is over. -/
def execGRet (r : GFields) (s : State) : Result :=
  let va := r.spec64.toNat
  .next (if va % 8 ≠ 0 then s.walkerTrap .align 0
    else match s.wk.stack with
    | pc :: rest => (s.updWk (fun w => { w with stack := rest, gpc := pc })).leap 0
    | [] =>
      if !s.allJoined s.curCtx then s.waitAt .record
      else match (if va = 0 then Except.ok s else s.putWord s.wk.troot va r.imm32.toNat) with
        | .error c => s.walkerTrap c 0
        | .ok s1 =>
          (s1.releaseCtx s.curCtx).updCtx s.curCtx (fun c => { c with state := 0, wait := .none, discarded := false, seqs := [] }))

/-- G.SETDIM (R430). -/
def execGSetdim (r : GFields) (s : State) : Result :=
  let imm := r.imm32.toNat
  let plus (v : Nat) : Nat := codeN 64 ((v : Int) + signedN 32 imm)
  .next (match r.flags.toNat with
    | 0 => (s.setDim (regA r) imm).advance
    | 1 => (s.setDim (regA r) (plus (s.dim (regB r)))).advance
    | _ =>
      if r.spec64.toNat % 8 ≠ 0 then s.walkerTrap .align 0
      else s.withRead (s.wread r.spec64.toNat 8) (fun s v => (s.setDim (regA r) (plus v)).advance))

/-- G.YIELD (R435). -/
def execGYield (r : GFields) (s : State) : Result :=
  .next (if r.flags.toNat = 0 then s.waitAt (.timer (s.now + 1200 * r.imm32.toNat))
    else if r.spec64.toNat % 8 ≠ 0 then s.walkerTrap .align 0
    else s.withRead (s.wread r.spec64.toNat 8) (fun s v =>
      if v = s.dim (regA r) then s.waitAt (.bell r.spec64.toNat (regA r)) else (s.setDim (regA r) v).advance))

/-! Joins and scopes. -/

/-- G.JOIN (R425). -/
def execGJoin (r : GFields) (s : State) : Result :=
  let mask := r.imm32.toNat
  .next (if (if mask = 0 then s.allJoined s.curCtx else (span 0 16).all (fun j => !bitAt mask j || s.wk.j.get 0 j == 0)) then s.advance
    else s.waitAt .record)

/-- G.SCOPE open (R429). -/
def execGScopeOpen (r : GFields) (s : State) : Result :=
  .next (match s.scopes.get? s.wk.wscope with
    | none => s.walkerTrap .accv 0
    | some e =>
      if e.depth = 15 then s.walkerTrap .accv 0
      else match s.freeScope with
      | none => s.waitAt .record
      | some n =>
        let s1 := (s.setScope s.wk.wscope { e with live := e.live + 1 }).setScope n ⟨0, false, false, e.depth + 1, e.ctx, s.wk.wscope⟩
        let s2 := s1.updWk (fun w => { w with wscope := n, wopen := w.wopen + 1 })
        (if r.flags.toNat = 2 then s2.setDim (regA r) n else s2).advance)

/-- G.SCOPE close (R429). -/
def execGScopeClose (_r : GFields) (s : State) : Result :=
  .next (if s.wk.wopen = 0 then s.walkerTrap .accv 0
    else match s.scopes.get? s.wk.wscope with
    | none => s.walkerTrap .accv 0
    | some e => ((s.scopeCloseAt s.wk.wscope).updWk (fun w => { w with wscope := e.parent, wopen := w.wopen - 1 })).advance)

/-- G.CANCEL (R421): the scope is marked at the scope unit, and units take it later (R309). -/
def execGCancel (r : GFields) (s : State) : Result :=
  let t := s.dim (regA r)
  let word := r.spec64.toNat
  .next (
    if 65536 ≤ t then s.walkerTrap .illshape 0
    else if word % 8 ≠ 0 then s.walkerTrap .align 0
    else if word ≠ 0 ∧ word < 2 ^ 32 then s.walkerTrap .accv 0
    else if t = 0 then s.walkerTrap .accv 0
    else if ((s.scopes.get? t).map (fun e => e.ctx != s.curCtx)).getD false then s.walkerTrap .accv 0
    else
      let n := s.newId
      let s1 := match n.2.scopes.get? t with
        | some e => n.2.setScope t { e with cancelled := true }
        | none => n.2
      let stamp : Stamp := ⟨s.recIndex s.curCtx, 0, s.wk.wscope, s.curCtx, 0⟩
      let c : CancelOp := ⟨n.1, t, (s.scopes.get? t).isNone, word, stamp, none, 0, 0, s.curCtx, 0, 0, s.takenAlready t⟩
      let s2 : State := { s1 with cancels := s1.cancels.set n.1 c }
      if r.flags.toNat = 1 then s2.waitAt (.quiescent n.1) else s2.advance)

/-! Regions and handles. -/

/-- The order of the block that holds `n` bytes (R186). -/
def orderOf (n : Nat) : Nat := ((span 0 11).find? (fun j => decide (n ≤ 2 ^ j * 4096))).getD 10

/-- G.ALLOC (R186, R188, R418). -/
def execGAlloc (r : GFields) (s : State) : Result :=
  let cl := r.entry.toNat % 128
  let n := r.imm32.toNat
  let j := orderOf n
  let c := s.curCtx
  .next (
    if 80 ≤ cl then s.walkerTrap .accv 0
    else if n = 0 ∨ 2 ^ 22 < n then s.walkerTrap .illshape 0
    else
      let line := (s.cluster cl).allocWait
      let mine := line.any (fun x => x.1 == c)
      let turn := match line with
        | [] => true
        | x :: _ => x.1 == c
      match (if turn then (s.cluster cl).regions.take j else none) with
      | some (u, b) =>
        let id := 2 ^ 20 + cl * 2 ^ 13 + u
        let base := spadBase (8 * cl + u / 1024) + u % 1024 * 4096
        let s1 := s.updCluster cl (fun x => { x with
          regions := b, owners := x.owners.set id c, allocWait := x.allocWait.filter (fun y => y.1 != c) })
        ((s1.zeroFill base (base + 2 ^ j * 4096)).setDim (regA r) id).advance
      | none =>
        if r.flags.toNat = 1 then (s.setDim (regA r) 0).advance
        else (if mine then s else s.updCluster cl (fun x => { x with allocWait := x.allocWait ++ [(c, j)] })).waitAt .alloc)

/-- Whether an issued and unretired operator names a handle on a region (R187). -/
def State.regionNamed (s : State) (id : Nat) : Bool :=
  s.tasks.any (fun e => e.2.boxes.any (fun b => b.base == 2 ^ 64 + id)) || s.records.any (fun e => e.2.handles.any (fun h => h.2 == 2 ^ 64 + id))

/-- Whether an issued and unretired operator of the context names a handle (R26). -/
def State.handleNamed (s : State) (h : Nat) : Bool :=
  s.records.any (fun e => e.2.ctx == s.curCtx && e.2.handles.any (fun x => x.1 == h))

/-- G.FREE (R187, R424). -/
def execGFree (r : GFields) (s : State) : Result :=
  let id := s.dim (regA r)
  let u := fieldN id 10 3 * 1024 + id % 1024
  let held := id / 2 ^ 20 == 1 && decide (regionCluster id < 80) && (s.cluster (regionCluster id)).regions.used.any (fun x => x.2 == u)
  .next (if !held then s.walkerTrap .accv 0
    else if s.regionNamed id then s.waitAt .rewrite
    else (s.freeRegion id).advance)

/-- The class with which a record that names a descriptor fails, if it does (R189, R356, R358, R359). -/
def handleFault (d : Map Word) (h : Handle) : Option TrapClass :=
  if 4 ≤ h.layout then some .illenc
  else if h.rank = 0 ∨ h.rank = 7 then some .illshape
  else if (h.dims.take h.rank).any (fun x => bitAt x 23 && fieldN x 6 17 != 0) then some .illenc
  else if (h.dims.take h.rank).any (dimBad d) then some .illshape
  else if h.amBad (h.sizes d) then some .illshape
  else none

/-- The class with which a descriptor cannot be written, if it cannot (R433). -/
def templateFault (v : Nat) : Option TrapClass :=
  let h := handleOf v
  if 4 ≤ h.layout then some .illenc
  else if h.rank = 0 ∨ h.rank = 7 then some .illshape
  else if (h.dims.take h.rank).any (fun x => bitAt x 23 && fieldN x 6 17 != 0) then some .illenc
  else none

namespace State

/-- A descriptor rewritten, once no issued task names it (R26, R191). -/
def rewrite (s : State) (h v : Nat) : State :=
  s.withRead (s.wread (s.handleVa h) 64) (fun s old =>
    if fieldN old 64 48 != 0 || s.handleNamed h then s.waitAt .rewrite
    else match s.vplaces s.wk.troot .store [(s.handleVa h, 64)] with
      | .error c => s.walkerTrap c 0
      | .ok _ => (s.vput s.wk.troot (s.handleVa h) 64 v).advance)

end State

/-- G.TENSOR (R433). -/
def execGTensor (r : GFields) (s : State) : Result :=
  .next (s.withRead (s.attrWord r.attr.toNat 64) (fun s v =>
    match templateFault v with
    | some c => s.walkerTrap c 0
    | none =>
      let base := if r.flags.toNat = 1 then s.dim (regA r) else v % 2 ^ 64
      s.rewrite r.h0.toNat (setField (setField (setField v 0 64 base) 64 64 0) 128 1 1)))

/-- G.VIEW (R434). -/
def execGView (r : GFields) (s : State) : Result :=
  .next (s.withRead (s.attrWord r.attr.toNat 64) (fun s v =>
    match templateFault v with
    | some c => s.walkerTrap c 0
    | none =>
      if r.h1.toNat = 0 then s.walkerTrap .illenc 0
      else s.withRead (s.wread (s.handleVa r.h1.toNat) 64) (fun s old =>
        if !bitAt old 128 then s.walkerTrap .illenc 0
        else if bitAt old 129 && r.imm32.toNat != 0 then s.walkerTrap .illshape 0
        else
          let base := codeN 64 (((old % 2 ^ 64 : Nat) : Int) + signedN 32 r.imm32.toNat)
          s.rewrite r.h0.toNat (setField (setField (setField (setField v 0 64 base) 64 64 0) 128 1 1) 129 1 (fieldN old 129 1)))))

/-- Whether a mesh block is malformed (R431). -/
def meshBad (w0 w1 : Nat) (entries : List Nat) : Bool :=
  let sizes := (span 0 6).map (fun i => fieldN w0 (10 * i) 10)
  let p := sizes.foldl (fun a b => a * b) 1
  decide (2 ^ 60 ≤ w0) || decide (2 ^ 28 ≤ w1) || fieldN w1 9 7 != 0 || fieldN w1 16 6 == 0 ||
  sizes.any (fun x => x == 0 || decide (288 < x)) || decide (288 < fieldN w1 0 9 + p) ||
  entries.any (fun e => decide (2 ^ 20 ≤ e) || (span 0 6).any (fun i => fieldN e (3 * i) 3 == 7))

/-- G.SHARD (R223, R431): the mesh is replaced once every earlier record has retired. -/
def execGShard (r : GFields) (s : State) : Result :=
  let n := r.imm32.toNat
  .next (if n = 0 ∨ 2047 < n then s.walkerTrap .illshape 0
    else s.withRead (s.attrWord r.attr.toNat (8 * (n + 2))) (fun s v =>
      let words := (span 0 (n + 2)).map (fun i => fieldN v (64 * i) 64)
      let w0 := nth 0 words 0
      let w1 := nth 0 words 1
      let p := (span 0 6).foldl (fun a i => a * fieldN w0 (10 * i) 10) 1
      if meshBad w0 w1 (words.drop 2) then s.walkerTrap .illshape 0
      else if s.module < fieldN w1 0 9 ∨ fieldN w1 0 9 + p ≤ s.module then s.walkerTrap .accv 0
      else if !s.allJoined s.curCtx then s.waitAt .record
      else (s.updWk (fun w => { w with mesh := words.map (fun x => BitVec.ofNat 64 x) })).advance))

/-! Exit (R291 to R294). -/

/-- How a walker's request ends: done, a wait of the context, or a walker trap. -/
inductive WalkRes where
  | ok (s : State)
  | wait (s : State)
  | fail (c : TrapClass)

namespace State

/-- A handle that a record names, read and checked (R356, R358). -/
def namedHandle (s : State) (h : Nat) : Except TrapClass Handle :=
  match s.wread (s.handleVa h) 64 with
  | .error c => .error c
  | .ok v =>
    let x := handleOf v
    if !x.valid then .error .illenc
    else match handleFault s.wk.d x with
      | some c => .error c
      | none => .ok x

/-- The descriptor address in entry `i` of a sequence table, and the descriptor (R281, R291); an extent outside the pool fails the context
with ACCV (R279). -/
def seqEntry (s : State) (table i : Nat) : Except TrapClass (Nat × SeqDesc) :=
  if table % 8 ≠ 0 then .error .align
  else match s.wread (codeN 64 ((table : Int) + 8 * i)) 8 with
    | .error c => .error c
    | .ok va =>
      if va % 64 ≠ 0 then .error .illshape
      else match s.seqDesc s.wk.troot va with
        | .error c => .error c
        | .ok d => if s.extentOut d then .error .accv else .ok (va, d)

/-- A sequence that the context has named (R303). -/
def nameSeq (s : State) (va : Nat) : State := s.nameSeqOf s.curCtx va

/-- The backfill jobs of one sequence, layer by layer (R292 step 1). Under a scope that the queue sees cancelled an entry becomes DROPPED
at once, as Table 12-2 gives for a queued job. -/
def exitLayers (s : State) (va p entry prio arg : Nat) (spans : List (Nat × Nat × Nat)) : List Nat → WalkRes
  | [] => .ok s
  | l :: ls =>
    let root := s.wk.troot
    match s.seqDesc root va with
    | .error c => .fail c
    | .ok d =>
      if s.hwmOf root d l ≠ p then s.exitLayers va p entry prio arg spans ls
      else match s.inTurn (0, s.curCtx) (s.readyPos root va p) with
        | .wait => .wait (s.kvJoin (0, s.curCtx))
        | .busy => .wait s
        | .fail c => .fail c
        | .ok s1 =>
          match s1.seqDesc root va with
          | .error c => .fail c
          | .ok d1 =>
            let die := s1.jobDie root d1 p l
            if s1.jobsFull die then .wait s1
            else
              let dead := s1.deadAt (80 + die) s1.wk.wscope
              let s2 := (s1.setKvState root d1 p l (if dead then 3 else 2)).setHwm root d1 l (p + 1)
              let s3 := if dead then s2
                else s2.addJob die s.curCtx (s.recIndex s.curCtx) spans s2.wk.d s1.wk.wscope va arg p l entry prio
              s3.exitLayers va p entry prio arg spans ls

/-- One sequence of the test form (R292). -/
def exitOne (s : State) (r : GFields) (h : Handle) (sizes : List Nat) (i : Nat) : WalkRes :=
  let root := s.wk.troot
  match s.seqEntry r.spec64.toNat i with
  | .error c => .fail c
  | .ok (va, d) =>
    let s0 := s.nameSeq va
    if !d.exreq || d.exited then .ok s0
    else
      let e := s.dim (regA r)
      let p := d.cur
      let spans := match h.span sizes with
        | some x => [(r.h0.toNat, x.1, x.2)]
        | none => []
      match s0.exitLayers va p r.entry.toNat (r.sched.toNat % 16) (h.at sizes [i]) spans ((span 0 d.layers).filter (fun l => decide (e < l))) with
      | .fail c => .fail c
      | .wait s1 => .wait s1
      | .ok s1 =>
        let s2 := if p < d.cap then s1.vput root (d.exits + 2 * p) 2 (e % 2 ^ 16) else s1
        .ok ((s2.seqFlag root d 63 true).seqFlag root d 62 false)

/-- The sequences of a G.EXIT, in ascending order. -/
def exitAll (f : State → Nat → WalkRes) : List Nat → State → WalkRes
  | [], s => .ok s
  | i :: is, s =>
    match f s i with
    | .ok s1 => exitAll f is s1
    | r => r

/-- One sequence of the advance form (R293). -/
def exitAdvOne (s : State) (table i : Nat) : WalkRes :=
  match s.seqEntry table i with
  | .error c => .fail c
  | .ok (va, d) =>
    let root := s.wk.troot
    let s1 := (s.nameSeq va).seqField root d 0 32 (s.committed root d)
    .ok ((s1.seqFlag root d 63 false).seqFlag root d 62 false)

/-- The frame of both forms (R291, R294): the earlier records that name the same table have retired, then every entry of the table. -/
def exitRecord (s : State) (r : GFields) (f : Handle → List Nat → State → Nat → WalkRes) (done : Nat → State → State) : State :=
  match s.namedHandle r.h0.toNat with
  | .error c => s.walkerTrap c r.entry.toNat
  | .ok h =>
    let sizes := h.sizes s.wk.d
    if s.records.any (fun e => e.2.ctx == s.curCtx && e.2.seqt == r.spec64.toNat) then s.waitAt .record
    else match exitAll (f h sizes) (span 0 (nth 0 sizes 0)) s with
      | .fail c => s.walkerTrap c r.entry.toNat
      | .wait s1 => s1.waitAt .record
      | .ok s1 => done (nth 0 sizes 0) s1

end State

/-- G.EXIT, the test form (R292, R294, R423). -/
def execGExitTest (r : GFields) (s : State) : Result :=
  .next (s.exitRecord r (fun h sizes s i => s.exitOne r h sizes i) (fun n s =>
    let out := (span 0 n).all (fun i => match s.seqEntry r.spec64.toNat i with
      | .ok x => x.2.exited
      | .error _ => false)
    if out && r.imm32.toNat != 0 then s.leapTo r.imm32.toNat else s.advance))

/-- G.EXIT, the advance form (R293, R294, R423). -/
def execGExitAdv (r : GFields) (s : State) : Result :=
  .next (s.exitRecord r (fun _ _ s i => s.exitAdvOne r.spec64.toNat i) (fun _ s => s.advance))

end Sys2Proof.Machine
end

