-- ==== Sys2Proof/Machine/Shard.lean ====
section
/-! DEFINITION. Sharding (R223 to R226, R431): the mesh, what each module holds of a tensor, the transfers into which the walker lowers
the attributes of handles, and the stage queue. Log entry 28 says what the spec leaves open here. -/

namespace Sys2Proof.Machine

open Sys2Proof

/-! The split (R224). -/

/-- The number of items that module `i` of `d` receives of `e` (R224). -/
def shareSize (e d i : Nat) : Nat := e / d + (if i < e % d then 1 else 0)

/-- Its first item (R224). -/
def shareFirst (e d i : Nat) : Nat := i * (e / d) + Nat.min i (e % d)

/-- Its items. -/
def shareItems (e d i : Nat) : List Nat := span (shareFirst e d i) (shareSize e d i)

/-- The items of stages `i`, `i + p`, …, `i + (v − 1)p` of `v × p` (Table 8-6). -/
def stageItems (e v p i : Nat) : List Nat := (span 0 v).foldr (fun k acc => shareItems e (v * p) (i + k * p) ++ acc) []

/-- Whether a position of a KV block is padding: a block has as many positions as the largest share, and those past the module's own share
are padded (R225). -/
def padded (e d i p : Nat) : Bool := decide (shareSize e d i ≤ p)

/-- The items that a KV block of module `i` brings: a padded position brings none, as its score is masked (R225). -/
def blockItems (e d i : Nat) : List Nat := ((span 0 (ceilDiv e d)).filter (fun p => !padded e d i p)).map (fun p => shareFirst e d i + p)

/-! The mesh (R431). Axes are 1 data, 2 fsdp, 3 stage, 4 tensor, 5 sequence, 6 expert; 0 is not split. -/

def meshWord (mesh : List Word) (i : Nat) : Nat := (nth 0 mesh i).toNat

/-- The size of an axis; 1 where no mesh is declared. -/
def meshSize (mesh : List Word) (axis : Nat) : Nat :=
  if axis = 0 ∨ mesh.isEmpty then 1 else fieldN (meshWord mesh 0) (10 * (axis - 1)) 10

/-- A module's coordinate on an axis: row-major from M0, the expert axis fastest. -/
def meshCoord (mesh : List Word) (module axis : Nat) : Nat :=
  (module - fieldN (meshWord mesh 1) 0 9) / (span (axis + 1) (6 - axis)).foldl (fun p a => p * meshSize mesh a) 1 % meshSize mesh axis

/-- The attribute entry that a descriptor names (R358); 0, which splits nothing, where it names none. -/
def meshEntry (mesh : List Word) (h : Handle) : Nat := if h.shard = 0 then 0 else meshWord mesh (h.shard + 1)

/-- The axis over which a dimension of a handle is split. -/
def axisOf (mesh : List Word) (h : Handle) (dim : Nat) : Nat := fieldN (meshEntry mesh h) (3 * dim) 3

/-- The role of a handle: 0 activation, 1 parameter, 2 gradient, 3 optimiser state. -/
def roleOf (mesh : List Word) (h : Handle) : Nat := fieldN (meshEntry mesh h) 18 2

/-- The dimensions of a handle that are split over an axis. -/
def dimsOn (mesh : List Word) (h : Handle) (rank axis : Nat) : List Nat := (span 0 rank).filter (fun i => axisOf mesh h i == axis)

/-- The items of a dimension of `e` that a module holds (R224, Table 8-6). -/
def heldItems (mesh : List Word) (module axis e : Nat) : List Nat :=
  if axis = 0 then span 0 e
  else if axis = 3 then stageItems e (fieldN (meshWord mesh 1) 16 6) (meshSize mesh 3) (meshCoord mesh module 3)
  else shareItems e (meshSize mesh axis) (meshCoord mesh module axis)

/-! The lowering (Table 8-6). -/

/-- A transfer that Table 8-6 asks for: what it is, the dimension and the axis of the split, and whether it goes before the tasks. -/
structure Lower where
  kind  : Lowering
  dim   : Nat
  axis  : Nat
  first : Bool
deriving DecidableEq, Repr

/-- What Table 8-6 asks for a handle that a record reads or writes; `partial_` says that the record reads a handle split over the tensor
axis. Whether a producer is the last one, whether an operator needs a gather or a reduction, and whether it is an attention are free,
as nothing tells the walker: the bits of `f`. -/
def lowerings (mesh : List Word) (h : Handle) (rank : Nat) (reads writes partial_ : Bool) (f : Nat) : List Lower :=
  let on (axis : Nat) (go : Bool) (k : Nat → List Lower) : List Lower :=
    if go then (dimsOn mesh h rank axis).foldr (fun i acc => k i ++ acc) [] else []
  let all : List Lower :=
    on 2 (reads && roleOf mesh h == 1) (fun i => [⟨.allGather, i, 2, true⟩, ⟨.release, i, 2, false⟩]) ++
    on 5 (reads && bitAt f 0) (fun i => [⟨.ring, i, 5, true⟩]) ++
    on 6 reads (fun i => [⟨.allToAll, i, 6, true⟩]) ++
    on 2 (writes && roleOf mesh h == 2) (fun i => [⟨.reduceScatter, i, 2, false⟩]) ++
    (if writes && roleOf mesh h == 2 && bitAt f 1 then [⟨.allReduce, 0, 1, false⟩] else []) ++
    on 4 (writes && bitAt f 2) (fun i => [⟨.gather, i, 4, false⟩]) ++
    (if writes && partial_ && (dimsOn mesh h rank 4).isEmpty && bitAt f 2 then [⟨.allReduce, 0, 4, false⟩] else [])
  all.filter (fun x => decide (1 < meshSize mesh x.axis))

/-! The steps of a transfer (R225). -/

/-- Every index vector with its coordinates in the given lists. -/
def boxIndexes : List (List Nat) → List (List Nat)
  | [] => [[]]
  | is :: rest => is.foldr (fun i acc => (boxIndexes rest).map (fun x => i :: x) ++ acc) []

/-- The bytes of one element of a handle: of its code, and of its scale in an operand row of an MX format (R112, R189). -/
def elemBytes (h : Handle) (sizes idx : List Nat) : List Nat :=
  match h.boxSpan sizes idx (idx.map (fun _ => 1)) with
  | none => []
  | some (lo, hi) =>
    let p := nth 0 idx (sizes.length - 1) % fmtK h.fmt
    if isMx h.fmt && h.layout % 2 == 1 then span lo ((p * fmtBits h.fmt % 8 + fmtBits h.fmt + 7) / 8) ++ [hi] else span lo (hi + 1 - lo)

/-- The key under which the tasks' boxes name a handle (R190). -/
def Handle.key (h : Handle) : Nat := h.base + h.region.toNat * 2 ^ 64

namespace State

/-- A byte that another module sends, written where a handle has it; it is free. -/
def arriveByte (s : State) (root : Nat) (h : Handle) (va : Nat) : State :=
  let f := s.takeFree
  let b : Byte := BitVec.ofNat 8 f.1
  let id := h.base % 2 ^ 21
  if h.region then
    f.2.writeBytes (spadBase (8 * regionCluster id + fieldN id 10 3) + id % 1024 * 4096 + (va - h.origin)) [b]
  else f.2.vwrite root va [b]

/-- The elements of a box of a handle as another module's data makes them. -/
def arrive (s : State) (root : Nat) (h : Handle) (sizes : List Nat) (items : List (List Nat)) : State :=
  (boxIndexes items).foldl (fun s idx => (elemBytes h sizes idx).foldl (fun s va => s.arriveByte root h va) s) s

/-- One step of a transfer (R223 to R225): what this module receives. In a ring a module takes D − 1 steps, at each of which it receives
the block of the module one further behind it, which may be empty, and forwards what it has. -/
def lowerStep (s : State) (l : Lowered) : State :=
  let w := (s.ctx l.ctx).walker
  let e := nth 0 l.sizes l.dim
  let d := meshSize w.mesh l.axis
  let me := meshCoord w.mesh s.module l.axis
  let from_ := (me + d - 1 - l.step) % d
  let held := (l.sizes.zip (span 0 6)).map (fun x => heldItems w.mesh s.module (axisOf w.mesh l.h x.2) x.1)
  let of (items : List Nat) : List (List Nat) := (held.zip (span 0 6)).map (fun x => if x.2 = l.dim then items else x.1)
  match l.kind with
  | .ring => s.arrive w.troot l.h l.sizes (of (blockItems e d from_))
  | .allGather => s.arrive w.troot l.h l.sizes (of (shareItems e d from_))
  | .gather => s.arrive w.troot l.h l.sizes (of (shareItems e d from_))
  | .release => s.arrive w.troot l.h l.sizes (of (shareItems e d from_))
  | .reduceScatter => s.arrive w.troot l.h l.sizes (of (shareItems e d me))
  | .allToAll => s.arrive w.troot l.h l.sizes (of (shareItems e d me))
  | .allReduce => s.arrive w.troot l.h l.sizes held

/-- Whether a transfer may take its next step: before its record's tasks, once those of earlier records on the tensor have retired; after
them, once they have returned; and always after the earlier transfers on the tensor (R190, R223). -/
def lowerReady (s : State) (l : Lowered) : Bool :=
  s.lowered.all (fun x => x.h.key != l.h.key || !(decide (x.record < l.record) || (x.record == l.record && x.first == l.first && decide (x.id < l.id)))) &&
  (if l.first then s.tasks.all (fun e => decide (l.record ≤ e.2.record) || e.2.boxes.all (fun b => b.base != l.h.key))
  else match s.records.get? l.record with
    | some r => !r.issuing && r.returned == r.total
    | none => true)

/-- A TRANSFER OF A SHARDING ATTRIBUTE TAKES ITS NEXT STEP (R223, R225): D − 1 of them, whatever the shares hold. -/
def lowerTurn (s : State) (id : Nat) : State :=
  match s.lowered.find? (fun l => l.id == id) with
  | none => s
  | some l =>
    if !s.lowerReady l then s
    else
      let s1 := s.lowerStep l
      let l1 : Lowered := { l with step := l.step + 1, sent := l.sent + 1 }
      if meshSize (s.ctx l.ctx).walker.mesh l.axis ≤ l1.step + 1 then { s1 with lowered := s1.lowered.filter (fun x => x.id != id) }
      else { s1 with lowered := s1.lowered.map (fun x => if x.id = id then l1 else x) }

/-- A transfer put among those that the walker has made. -/
def addLowered (s : State) (record : Nat) (h : Handle) (sizes : List Nat) (x : Lower) : State :=
  let n := s.newId
  { n.2 with lowered := n.2.lowered ++ [⟨n.1, s.curCtx, record, x.kind, h, sizes, x.dim, x.axis, 0, 0, x.first⟩] }

/-! The stage queue (R226). -/

/-- How many micro-batches a stage queue holds. -/
def stageDepth (mesh : List Word) : Nat := fieldN (meshWord mesh 1) 22 6 + 1

/-- Whether an output of a handle enters the stage queue: it is split over a stage axis of more than one module. -/
def entersStage (mesh : List Word) (h : Handle) (rank : Nat) : Bool :=
  decide (1 < meshSize mesh 3) && !(dimsOn mesh h rank 3).isEmpty

/-- Whether the stage queue of the context is full (R226). -/
def stageFull (s : State) : Bool := decide (stageDepth s.wk.mesh ≤ s.stageq.get 0 s.curCtx)

/-- A CONSUMER TAKES AN ENTRY of a stage queue (R226). -/
def stageTake (s : State) (c : Nat) : State := { s with stageq := s.stageq.set c (s.stageq.get 0 c - 1) }

end State

end Sys2Proof.Machine
end

