-- ==== Sys2Proof/Machine/Launch.lean ====
section
/-! DEFINITION. The operator records G.OP and G.SPAWN (R30 to R37, R190, R191, R241, R249, R281, R282, R427, R432): their checks, their
grid, and the placing of their tasks, one task for each walker turn. -/

namespace Sys2Proof.Machine

open Sys2Proof

/-- A handle position of a record: its number, handle, descriptor and sizes. -/
structure Named where
  pos   : Nat
  num   : Nat
  h     : Handle
  sizes : List Nat
deriving DecidableEq, Repr

/-- A record of a fusing group as its issue finds it: its fields, entry, handles, and its grid of six dimensions padded with 1:
sizes D, tile extents T'. -/
structure Part where
  r     : GFields
  entry : Entry
  named : List Named
  grid  : Option Nat
  dims  : List Nat
  tiles : List Nat
deriving DecidableEq, Repr

/-- The handles of a record, h0 first. -/
def handlesOf (r : GFields) : List Nat := [r.h0.toNat, r.h1.toNat, r.h2.toNat, r.h3.toNat, r.h4.toNat, r.h5.toNat]

/-- The grid handle's position (R30). -/
def gridPos (e : Entry) (r : GFields) : Option Nat :=
  match (span 0 6).find? (fun k => bitAt e.outMask k) with
  | some k => if nth 0 (handlesOf r) k = 0 then none else some k
  | none => none

/-- The extents T' of a grid (R30). -/
def tileOf (dim t : Nat) : Nat := if t = 0 ∨ dim ≤ t then dim else t

/-- The number of tiles along each dimension (R30). -/
def Part.counts (p : Part) : List Nat := (p.dims.zip p.tiles).map (fun x => ceilDiv x.1 x.2)

/-- The number of tasks of a record (R30). -/
def Part.total (p : Part) : Nat := p.counts.foldl (fun a b => a * b) 1

/-- The grid coordinates of an ordinal, the last dimension fastest (R31). -/
def coordsOf (t : Nat) : List Nat → List Nat
  | [] => []
  | g :: gs =>
    let rest := gs.foldl (fun a b => a * b) 1
    (t / rest % g) :: coordsOf (t % rest) gs

/-- The origin of a task (R31). -/
def Part.origin (p : Part) (t : Nat) : List Nat := ((coordsOf t p.counts).zip p.tiles).map (fun x => x.1 * x.2)

/-- The extent of a task (R31). -/
def Part.extent (p : Part) (t : Nat) : List Nat :=
  (((p.origin t).zip p.tiles).zip p.dims).map (fun x => Nat.min x.1.2 (x.2 - x.1.1))

/-- Whether two records of a group have the same task count and the same extents, task for task (R32). -/
def sameTasks (a b : Part) : Bool :=
  a.total == b.total && ((a.dims == b.dims && a.tiles == b.tiles) || (span 0 a.total).all (fun t => a.extent t == b.extent t))

namespace State

/-- The handles that a record names, or the class with which it fails (R356). -/
def nameAll (s : State) : List (Nat × Nat) → Except TrapClass (List Named)
  | [] => .ok []
  | (k, n) :: rest =>
    if n = 0 then s.nameAll rest
    else match s.namedHandle n with
      | .error c => .error c
      | .ok h => (s.nameAll rest).map (fun l => ⟨k, n, h, h.sizes s.wk.d⟩ :: l)

/-- One record of a group (R27, R28, R30). -/
def partOf (s : State) (r : GFields) : Except TrapClass Part :=
  let e := s.entryAt 0 r.entry.toNat
  if e.bad then .error .illenc
  else match s.nameAll ((span 0 6).zip (handlesOf r)) with
    | .error c => .error c
    | .ok named =>
      let g := gridPos e r
      let sizes := match g with
        | some k => ((named.find? (fun x => x.pos == k)).map (·.sizes)).getD []
        | none => []
      let dims := sizes ++ List.replicate (6 - sizes.length) 1
      let tiles := (dims.zip (span 0 6)).map (fun x => if x.2 < sizes.length then tileOf x.1 (nth 0 e.tiles x.2) else 1)
      .ok ⟨r, e, named, g, dims, tiles⟩

/-- The records of a fusing group after the first (R32): each must be a G.OP that lies in the graph program. -/
def chainRest (s : State) (gpc : Nat) : Nat → Except TrapClass (List GFields)
  | 0 => .ok []
  | n + 1 =>
    if (Config.programRecords s.wk.gbase).toNat ≤ codeN 64 ((gpc : Int) + 32 - s.wk.gbase) / 32 then .error .illenc
    else match s.wread (gpc + 32) 32 with
    | .error c => .error c
    | .ok w => match decodeG w with
      | some (.gOp r) => (s.chainRest (gpc + 32) n).map (fun l => r :: l)
      | _ => .error .illenc

/-- Every record of a group resolved. -/
def partsOf (s : State) : List GFields → Except TrapClass (List Part)
  | [] => .ok []
  | r :: rs =>
    match s.partOf r with
    | .error c => .error c
    | .ok p => (s.partsOf rs).map (fun l => p :: l)

/-- The cluster set of a record (R35, R36): the clusters of its mask, or all where near placement gives no mask. -/
def clusterSet (s : State) (r : GFields) : Except TrapClass (List Nat) :=
  if r.mode.toNat ≠ 0 ∧ r.attr.toNat = 0 then .ok (span 0 80)
  else match s.attrWord r.attr.toNat 16 with
    | .error c => .error c
    | .ok v => if v = 0 ∨ 2 ^ 80 ≤ v then .error .illenc else .ok ((span 0 80).filter (fun i => bitAt v i))

/-- The cluster of a task (R33, R35 to R37). DESIGN CHOICE (log entry 56): the placement translates as a load does, so a page without RD
gives no place; and a tile in another module's HBM4E is placed by its channel's number there as if it lay here. -/
def placeTask (s : State) (p : Part) (set : List Nat) (t : Nat) : Nat :=
  let plain := nth 0 set (t % set.length)
  if p.r.mode.toNat = 0 then plain
  else match p.named.find? (fun x => x.pos + 1 == p.r.mode.toNat) with
    | none => plain
    | some x =>
      if x.sizes.any (· == 0) then plain
      else
        let a := x.h.at x.sizes (p.origin t)
        if a < 2 ^ 32 ∨ 2 ^ 57 ≤ a then plain
        else match (s.walk s.wk.troot a .load).pa? a with
          | none => plain
          | some pa =>
            if targetOf (pa % 2 ^ 48) ≠ .hbm then plain
            else
              let die := pa / 2 ^ 16 % 512 / 64
              let near := set.filter (fun c => c / 10 == die)
              (s.leastLoaded (if near.isEmpty then set else near)).getD plain

/-- The boxes of a task (R190): its tile of the grid handle, and every other handle whole. -/
def boxesOf (p : Part) (t : Nat) : List Box :=
  p.named.filterMap (fun x =>
    let sp := if p.grid = some x.pos then x.h.boxSpan x.sizes (p.origin t) (p.extent t) else x.h.span x.sizes
    sp.map (fun y => ⟨x.num, x.h.key, y.1, y.2, bitAt p.entry.inMask x.pos, bitAt p.entry.outMask x.pos⟩))

/-- A microprogram of a task (R32, R34, R51). -/
def microFor (s : State) (p : Part) (recIdx t : Nat) : Micro where
  recIdx := recIdx
  entry := p.r.entry.toNat
  origin := p.origin t
  extent := p.extent t
  descs := (handlesOf p.r).map (fun h => BitVec.ofNat 64 (if h = 0 then 0 else s.handleVa h))
  spans := p.named.filterMap (fun x => (x.h.span x.sizes).map (fun y => (x.num, y.1, y.2)))
  dims := s.wk.d

/-- The boxes in use on a cluster's scoreboard (R191). -/
def boxesIn (s : State) (cl : Nat) : Nat :=
  (s.tasks.filter (fun e => e.2.cluster == cl)).foldl (fun n e => n + e.2.boxes.length) 0

end State

/-- The sequence fields of a record (R281): table, layer, count, append. -/
structure SeqReq where
  table : Nat
  layer : Nat
  count : Nat
  app   : Bool
deriving DecidableEq, Repr

namespace State

/-- The sequence fields of a record that has SEQ set (R281). -/
def seqReq (s : State) (r : GFields) : Option SeqReq :=
  if r.seq then some ⟨r.spec64.toNat, s.dim (regA r), s.dim (regB r), r.kvapp⟩ else none

/-- The class with which a record breaks R281, if it does. -/
def seqBad (s : State) (p : Part) : Option TrapClass :=
  let rows := nth 1 p.dims 0
  match s.seqReq p.r with
  | none => if p.r.kvapp then some .illshape else none
  | some q =>
    if q.count = 0 ∨ (p.grid.isSome ∧ p.total ≠ 0 ∧ nth 1 p.tiles 0 ≠ 1) then some .illshape
    else (span 0 rows).findSome? (fun i =>
      match s.seqEntry q.table (if p.grid.isSome then i else 0) with
      | .error c => some c
      | .ok x => if x.2.layers ≤ q.layer then some .illshape else none)

/-- The class with which a group fails before any task of it issues, if it does (R28, R30, R32, R33, R187, R281). -/
def groupBad (s : State) (ps : List Part) (set : List Nat) : Option TrapClass :=
  match ps with
  | [] => some .illenc
  | p :: rest =>
    let mode := p.r.mode.toNat
    let regions := ps.foldr (fun q acc => (q.named.filter (fun x => x.h.region)).map (fun x => regionCluster (x.h.base % 2 ^ 21)) ++ acc) []
    if 7 ≤ mode ∨ (mode ≠ 0 ∧ nth 0 (handlesOf p.r) (mode - 1) = 0) then some .illenc
    else if ps.any (fun q => decide (2 ^ 32 < q.total)) then some .illshape
    else if rest.any (fun q => !sameTasks p q) then some .illshape
    else if mode = 0 && regions.any (fun c => (set.take p.total).any (fun x => x != c)) then some .accv
    else ps.findSome? s.seqBad

/-- The record's tasks are all issued (R416): GPC passes the group. -/
def endLaunch (s : State) (chain : Nat) : State := (s.endIssue).leap (chain + 1)

/-- What SEQ asks of a task at its issue (R282), once the context has named the sequence: nothing where the task is skipped. -/
def seqStart (s : State) (q : SeqReq) (row : Nat) : Except TrapClass (State × Option (SeqRes × SeqPart × Nat)) :=
  match s.seqEntry q.table row with
  | .error c => .error c
  | .ok (va, d) =>
    let root := s.wk.troot
    let hwm := s.hwmOf root d q.layer
    let s1 := s.nameSeq va
    if d.exited ∨ d.cur + q.count ≤ hwm then .ok (s1, none)
    else
      let r := if q.app then s1.inTurn (0, s.curCtx) (s1.readyRun root va d.cur q.count) else .ok s1
      .ok (s1, some (r, ⟨va, q.layer, q.count, d.cur, q.app⟩, hwm + q.count))

/-- The weight that a record's next task takes: half of what the walker still has to hand out of the record's 2^31, which it tops up when
that falls to 1 (R259, log entry 33). What is left, and what was added. -/
def weightOf (r : OpRecord) : Nat × Nat × Nat :=
  let more := if r.wLeft ≤ 1 then 2 ^ 31 else 0
  let have_ := r.wLeft + more
  (have_ / 2, have_ - have_ / 2, more)

/-- A task of a group put into the pool of its cluster (R34, R190, R249, R259). -/
def issueTask (s : State) (ps : List Part) (recIdx t cl : Nat) (seq : Option (SeqPart × Nat)) : State :=
  let c := s.curCtx
  let lead := ps.head?
  let sched := match lead with
    | some p => p.r.sched.toNat
    | none => 0
  let n := s.newId
  let w := match s.records.get? (s.ctx c).issued with
    | some r => if s.weighted c then weightOf r else (0, 0, 0)
    | none => (0, 0, 0)
  let k : Task := { Task.empty with
    id := n.1
    kind := .op
    status := .pool
    ctx := c
    record := (s.ctx c).issued
    cluster := cl
    micros := (ps.zip (span 0 ps.length)).map (fun x => s.microFor x.1 (recIdx + x.2) t)
    ordinal := t
    width := ps.foldl (fun m p => Nat.max m (p.entry.width + 1)) 1
    amRows := ps.foldl (fun m p => Nat.max m p.entry.amRows) 0
    home := s.wk.wscope
    scopeId := s.wk.wscope
    prio := sched % 16
    steal := bitAt sched 4
    crs := match seq with
      | some x => [(0x005, BitVec.ofNat 64 x.2), (0x009, BitVec.ofNat 64 x.1.desc)]
      | none => []
    seq := seq.map (·.1)
    boxes := ps.foldr (fun p acc => boxesOf p t ++ acc) []
    region := ps.any (fun p => p.named.any (fun x => x.h.region))
    weight := w.1
    readyAt := s.now
    nextAge := s.now + 4096 }
  let s1 := ((n.2.addTask k).boardTask k true)
  { s1 with
    records := s1.records.map (fun e => if e.1 = k.record then (e.1, { e.2 with total := e.2.total + 1, wTotal := e.2.wTotal + w.2.2, wLeft := w.2.1 }) else e)
    steal := { s1.steal with samples := s1.steal.samples.set c [] } }

/-- The next task of a group that is being issued: the cluster it is placed on must have room (R36, R191, R249, R282). -/
def launchOne (s : State) (ps : List Part) (set : List Nat) (chain : Nat) : State :=
  let c := s.curCtx
  let t := (s.ctx c).progress
  match ps with
  | [] => s
  | p :: _ =>
    let next (s : State) : State :=
      if p.total ≤ t + 1 then s.endLaunch chain
      else s.updCtx c (fun x => { x with state := 1, wait := .none, progress := t + 1 })
    let cl := s.placeTask p set t
    let boxes := ps.foldl (fun n q => n + (boxesOf q t).length) 0
    let away := ps.any (fun q => q.named.any (fun x => x.h.region && regionCluster (x.h.base % 2 ^ 21) != cl))
    let go (s : State) (q : Option (SeqPart × Nat)) : State :=
      if s.poolFull cl || decide (1024 < s.boxesIn cl + boxes) then s.waitAt .record
      else next (s.issueTask ps (s.recIndex c) t cl q)
    if away then s.walkerTrap .accv p.r.entry.toNat
    else match s.seqReq p.r with
      | none => go s none
      | some q =>
        if s.poolFull cl || decide (1024 < s.boxesIn cl + boxes) then s.waitAt .record
        else match s.seqStart q (nth 0 (p.origin t) 0) with
          | .error e => s.walkerTrap e p.r.entry.toNat
          | .ok (s0, none) => next (s0.kvLeave (0, c))
          | .ok (_, some (.ok s1, part, len)) => go s1 (some (part, len))
          | .ok (s0, some (.wait, _, _)) => (s0.kvJoin (0, c)).waitAt .record
          | .ok (s0, some (.busy, _, _)) => s0.waitAt .record
          | .ok (_, some (.fail e, _, _)) => s.walkerTrap e p.r.entry.toNat

/-- The transfers that the walker makes of the sharding attributes of a record's handles (R223). -/
def lowerHandles (s : State) (record : Nat) (p : Part) : State :=
  let mesh := s.wk.mesh
  let split := p.named.any (fun x => bitAt p.entry.inMask x.pos && !(dimsOn mesh x.h x.sizes.length 4).isEmpty)
  p.named.foldl (fun s x =>
    let f := s.takeFree
    (lowerings mesh x.h x.sizes.length (bitAt p.entry.inMask x.pos) (bitAt p.entry.outMask x.pos) split f.1).foldl
      (fun s l => s.addLowered record x.h x.sizes l) f.2) s

/-- Whether an output of a group enters the context's stage queue (R226). -/
def entersQueue (s : State) (ps : List Part) : Bool :=
  ps.any (fun p => p.named.any (fun x => bitAt p.entry.outMask x.pos && entersStage s.wk.mesh x.h x.sizes.length))

/-- A group's record opened (R39, R223, R226, R259, R432): it is listed, its join counter rises, its output takes an entry of the stage
queue, and the transfers of its handles are made. -/
def openRecord (s : State) (r : GFields) (ps : List Part) (join : Option Nat) : State :=
  let c := s.curCtx
  let n := s.newId
  let w := if s.weighted c then 2 ^ 31 else 0
  let handles := ps.foldr (fun p acc => p.named.map (fun x => (x.num, x.h.key)) ++ acc) []
  let rec_ : OpRecord := ⟨n.1, c, s.recIndex c, true, join, false, false, if r.seq then r.spec64.toNat else 0, 0, 0, w, 0, w, handles⟩
  let s1 : State := { n.2 with records := n.2.records.set n.1 rec_ }
  let s2 := match join with
    | some j => s1.updWk (fun w => { w with j := w.j.set j (w.j.get 0 j + 1) })
    | none => s1
  let s3 : State := if s.entersQueue ps then { s2 with stageq := s2.stageq.set c (s2.stageq.get 0 c + 1) } else s2
  (if s.wk.mesh.isEmpty then s3 else ps.foldl (fun s p => s.lowerHandles n.1 p) s3).updCtx c (fun x => { x with issued := n.1, progress := 0 })

/-- An operator record's turn (R427): its checks and its start, when nothing of it has issued, and then its next task. Under a scope
that the walker sees cancelled it makes no further task (R309, R421). DESIGN CHOICE (log entry 56): a chained record with a bad entry is
reported with the group's first record, the one at GPC, and that record's entry, as R32 says of its own failures. -/
def launch (s : State) (r : GFields) (join : Option Nat) : State :=
  let c := s.curCtx
  let chain := r.chain.toNat
  let fresh := (s.ctx c).issued = 0
  if s.deadAt (88 + c) s.wk.wscope then s.endLaunch chain
  else
    let found : Except TrapClass (List Part × List Nat) :=
      match s.chainRest s.wk.gpc chain with
      | .error e => .error e
      | .ok rs => match s.partsOf (r :: rs) with
        | .error e => .error e
        | .ok ps => match s.clusterSet r with
          | .error e => .error e
          | .ok set => .ok (ps, set)
    match found with
    | .error e => s.walkerTrap e r.entry.toNat
    | .ok (ps, set) =>
      if !fresh then s.launchOne ps set chain
      else match s.groupBad ps set with
      | some e => s.walkerTrap e r.entry.toNat
      | none =>
        if (ps.head?.map (fun p => p.total)).getD 0 = 0 then s.endLaunch chain
        else match join.map (fun j => s.wk.j.get 0 j) with
        | some 65535 => s.waitAt .record
        | _ =>
          if s.entersQueue ps && s.stageFull then s.waitAt .record
          else (s.openRecord r ps join).launchOne ps set chain

end State

/-- G.OP (R427). -/
def execGOp (r : GFields) (s : State) : Result := .next (s.launch r none)

/-- G.SPAWN (R432): a G.OP counted in a join counter. -/
def execGSpawn (r : GFields) (s : State) : Result := .next (s.launch r (some (regHigh r)))

end Sys2Proof.Machine
end

