-- ==== Sys2Proof/Machine/Context.lean ====
section
/-! DEFINITION. The commands of a control core on contexts, cores and translations (R182, R183, R322, R330, R331, R334), and the
writes of registers that have an event of their own (R219, R278, R318, R323). -/

namespace Sys2Proof.Machine

open Sys2Proof

namespace State

/-- The parameter block (R330). -/
def paramBlock (s : State) : Nat := s.devReg 0x108

/-- A CTXCMD begun (Table 13-2): BUSY set and ERR clear, with the fields as the write of GO or a later one left them, or its own; none
while a command is in progress, or in recovery, where nothing runs (R325). -/
def beginCtx (s : State) (c action : Nat) : Option State :=
  if s.service.command.isSome || s.boot.phase == 2 || 64 ≤ c then none
  else
    let fields := if bitAt (s.devReg 0x100) 62 then setField (s.devReg 0x100) 61 1 0 else c + action * 2 ^ 56 + 2 ^ 62
    some (({ s with service := { s.service with command := some (c, action) } } : State).setDev 0x100 fields)

/-- A command refused (R331): ERR, which is valid once BUSY reads 0. -/
def refuseCtx (s : State) : State := s.setDev 0x100 (setField (s.devReg 0x100) 61 1 1)

/-- The backfill jobs of the emptied entries of a trimmed sequence removed (R303): those above the committed length, of any context whose
space names the sequence. -/
def trimJobs (s : State) (root va len : Nat) : State :=
  let mine (k : Task) : Bool := k.kind == .backfill && (s.ctx k.ctx).walker.troot == root && (match k.seq with
    | some q => q.desc == va && decide (len < q.pos)
    | none => false)
  (s.tasks.filter (fun e => mine e.2)).foldl (fun s e =>
    if e.2.status = .queued then
      (s.unqueue (((s.backfill.find? (fun b => b.2.contains e.1)).map (·.1)).getD 0) e.1).endJob e.2
    else s.killTask e.1 .cancelled) s

/-- The trims of R303, before any record issues. -/
def trimAll (s : State) (c : Nat) : State :=
  let root := (s.ctx c).walker.troot
  let trim (s : State) (va : Nat) : State :=
    match s.seqDesc root va with
    | .error _ => s
    | .ok d => (s.trimSeq root va).trimJobs root va (s.committed root d)
  let s1 := if (s.ctx c).discarded then (s.ctx c).seqs.foldl trim s else s
  s1.updCtx c (fun x => { x with discarded := false, seqs := [] })

/-- A Kaeri image measured before its first start, and again after a change: a digest that the list does not hold is added (R328). -/
def measureImage (s : State) (root gbase : Nat) : State :=
  match s.vbytes root gbase (Config.imageBytes gbase) with
  | .error _ => s
  | .ok bs =>
    let d := Config.shake256 64 bs
    if s.boot.measured.any (fun m => m.2 == d) then s
    else { s with boot := { s.boot with measured := s.boot.measured ++ [(s.boot.measured.length, d)] } }

/-- A context started afresh (R328, R331): words 0 to 3 and 5 of the block, a root scope, and the image's measurement. -/
def startCtx (s : State) (c : Nat) : State :=
  let p := s.paramBlock
  let word (i : Nat) : Nat := s.natAt (p + 8 * i) 8
  if word 5 % 4096 ≠ 0 then s.refuseCtx
  else match s.freeScope with
  | none => s.refuseCtx
  | some n =>
    let s1 := ((s.measureImage (word 2) (word 0)).setScope n ⟨0, false, false, 0, c, 0⟩).writeNat (p + 32) 8 n
    let w : Walker := ⟨word 1, word 0, word 5, word 3 % 65536, word 2, [], [], n, 0, n, [], []⟩
    (s1.updCtx c (fun x => { x with
      state := 1, walker := w, wait := .none, trap := none, issued := 0, progress := 0, leaving := false })).trimAll c

/-- A saved context resumed (R331, R416): the handle table goes back to HTVA, and the record at GPC is issued again. -/
def resumeCtx (s : State) (c : Nat) (w : Walker) : State :=
  let s1 := s.vwrite w.troot w.htva (s.bytesAt ((s.ctx c).block + 0x1000) 0x40000)
  s1.updCtx c (fun x => { x with state := 1, walker := w, wait := .none, saved := none, leaving := false })

/-- The work of a context discarded (R322): killed as a CANCEL of its root scope would, each task at its next bundle boundary. -/
def discardCtx (s : State) (c : Nat) : State :=
  let s1 := (s.sweep (fun k => k.ctx == c && k.kind != .ballast)).1.grantAll.kvLeave (0, c)
  let s2 : State := { s1 with
    records := s1.records.filter (fun e => e.2.ctx != c)
    lowered := s1.lowered.filter (fun l => l.ctx != c)
    stageq := s1.stageq.del c
    steal := { s1.steal with samples := s1.steal.samples.del c }
    clusters := s1.clusters.map (fun k => (k.1, { k.2 with allocWait := k.2.allocWait.filter (fun x => x.1 != c) })) }
  (s2.updCtx c (fun x => { x with state := 0, wait := .none, issued := 0, progress := 0, discarded := true, leaving := false }))

/-- Whether a task holds strands: it has still to be saved (R319). -/
def Task.seated (k : Task) : Bool :=
  match k.status with
  | .running => true
  | .yielded => true
  | .ended => true
  | .frozenEnd => true
  | _ => false

/-- The walker state and the handle table of a context written to its block (R330); the layout of the walker state is not given, and
its 4 KiB are free bytes. -/
def saveCtx (s : State) (c : Nat) : State :=
  let p := s.paramBlock
  let w := (s.ctx c).walker
  let s1 := match s.vbytes w.troot w.htva 0x40000 with
    | .ok bs => s.writeBytes (p + 0x1000) bs
    | .error _ => s
  let s2 := ({ s1 with free := s1.free + 0x1000 } : State).writeBytes (p + 0x41000) (s1.freeBytes 0x1000)
  let s3 := s2.writeBytes (p + 0x42000) (w.mesh.foldr (fun x acc => leBytes 8 x.toNat ++ acc) [])
  s3.updCtx c (fun x => { x with state := 0, saved := some w, block := p, leaving := false })

end State

/-- CTX_START (R331 action 0): a saved context resumes, any other starts afresh. -/
def execCtxStart (ctx : Nat) (s : State) : Result :=
  .next (match s.beginCtx ctx 0 with
    | none => s
    | some s1 =>
      if (s.ctx ctx).state ≠ 0 then s1.refuseCtx
      else match (s.ctx ctx).saved with
      | some w => s1.resumeCtx ctx w
      | none => s1.startCtx ctx)

/-- CTX_STOP (R331 action 1): its regions and scopes are freed as it completes, once its tasks are gone. -/
def execCtxStop (ctx : Nat) (s : State) : Result :=
  .next (match s.beginCtx ctx 1 with
    | none => s
    | some s1 =>
      if (s.ctx ctx).state = 0 then s1.refuseCtx
      else s1.discardCtx ctx)

/-- CTX_PREEMPT_KEEP (R322, R331 action 2): every task that holds strands is to be saved. -/
def execCtxPreemptKeep (ctx : Nat) (s : State) : Result :=
  .next (match s.beginCtx ctx 2 with
    | none => s
    | some s1 =>
      if (s.ctx ctx).state = 0 then s1.refuseCtx
      else
        let s2 : State := { s1 with
          tasks := s1.tasks.map (fun e => if e.2.ctx = ctx ∧ e.2.kind ≠ .ballast ∧ State.Task.seated e.2 then
            (e.1, { e.2 with saving := some (e.2.saving.getD .evicted) }) else e)
          clusters := s1.clusters.map (fun k => (k.1, { k.2 with allocWait := k.2.allocWait.filter (fun x => x.1 != ctx) })) }
        (s2.updCtx ctx (fun x => { x with leaving := true })).kvLeave (0, ctx))

/-- CTX_PREEMPT_DISCARD (R322, R331 action 3). -/
def execCtxPreemptDiscard (ctx : Nat) (s : State) : Result :=
  .next (match s.beginCtx ctx 3 with
    | none => s
    | some s1 => if (s.ctx ctx).state = 0 then s1.refuseCtx else s1.discardCtx ctx)

/-- CTXCMD_COMPLETE (R331): BUSY clears; a discard completes once every task of the context has been killed, and a pre-emption with keep
once every task is off its strands and the context is saved. -/
def execCtxcmdComplete (s : State) : Result :=
  let close (s : State) : State :=
    ({ s with service := { s.service with command := none } } : State).setDev 0x100 (setField (s.devReg 0x100) 62 1 0)
  let left (c : Nat) : Bool := s.tasks.any (fun e => e.2.ctx == c && e.2.kind != .ballast && e.2.status != .away)
  let seated (c : Nat) : Bool := s.tasks.any (fun e => e.2.ctx == c && e.2.kind != .ballast && State.Task.seated e.2)
  .next (match s.service.command with
    | none => s
    | some (c, action) =>
      if bitAt (s.devReg 0x100) 61 then close s
      else match action with
      | 0 => close s
      | 1 => if left c then s else close ((s.releaseCtx c).updCtx c (fun x => { x with saved := none }))
      | 2 => if seated c then s else close (s.saveCtx c)
      | _ => if left c then s else close s)

/-- SPARE_MAP (R12, R319, R334): the target's tasks are pre-empted, and with the core empty a spare of the die takes its numbers; the
tasks then resume there, and see no change but a pre-emption (R86). The event begins the mapping, and later ends it. -/
def execSpareMap (die core : Nat) (s : State) : Result :=
  let used := s.service.spares.get 0 die
  let gid := 80 * die + core
  let here := ((span (8 * gid) 8).map (fun sid => (s.strand sid).task)).filter (· != 0)
  let note (s : State) (m : Option Nat) : State := { s with service := { s.service with mapping := m } }
  .next (match s.service.mapping with
    | some g =>
      if g ≠ gid ∨ !here.isEmpty then s
      else
        let s1 := note { s with service := { s.service with spares := s.service.spares.set die (used + 1) } } none
        (s1.setDev 0 (setField (s.devReg 0) 24 6 (fieldN (s.devReg 0) 24 6 - 1))).endCommand 0x110 false
    | none =>
      if 8 ≤ die ∨ 80 ≤ core ∨ 4 ≤ used then s.endCommand 0x110 true
      else here.eraseDups.foldl (fun s id =>
        if (s.task id).kind = .ballast then s.killTask id .cancelled
        else s.updTask id (fun k => { k with saving := some (k.saving.getD .evicted) })) (note (s.busyCommand 0x110) (some gid)))

/-! Shoot-down (R182 to R184). -/

namespace State

/-- Whether a mapping of `n` bytes at `va` in an address space matches a command (R183). -/
def tinvMatch (asid : Option Nat) (page : Option (Nat × Nat)) (a va n : Nat) : Bool :=
  (match asid with
    | some x => a == x
    | none => true) &&
  (match page with
    | some (lo, size) => decide (va < lo + size) && decide (lo < va + n)
    | none => true)

/-- The operations that hold a matching translation (R183 phase 3), each under a number of its own: accesses on their way, reductions in
the switches, waiters of a lock, innermost copies, and MGVs. A copy and a lock's waiter are taken to match by their address space alone.
A task that has gone leaves its operations with the space of its context, and a reduction of one is taken to match. -/
def holders (s : State) (asid : Option Nat) (page : Option (Nat × Nat)) : List Nat :=
  let fits := tinvMatch asid page
  let strands := s.strands.foldr (fun e acc =>
    let a := (s.space e.1).1
    (e.2.wq.filterMap (fun i => match i.what with
      | .write va ps _ => if fits a va (piecesSize ps) then some i.id else none
      | _ => none)) ++
    (e.2.lb.filterMap (fun x => match x.req with
      | .held y _ => if fits a y.addr y.size then some x.id else none
      | _ => none)) ++
    (match e.2.wait with
      | .lock _ => if tinvMatch asid none a 0 0 then [e.2.base + 2 ^ 80] else []
      | _ => []) ++ acc) []
  let own (sid : Nat) (p : Stamp) : Nat := if isCtrl sid then (s.space sid).1 else (s.ctx p.ctx).walker.asid
  let reds := (s.swRed.filter (fun r => match s.tasks.get? r.task with
    | some k => fits (s.ctx k.ctx).walker.asid r.va 8
    | none => true)).map (·.id)
  let cores := s.cores.foldr (fun e acc =>
    (e.2.chans.foldr (fun ch acc => (ch.2.filterMap (fun o =>
      if o.places.isSome && tinvMatch asid none (own o.sid o.stamp) 0 0 then some (o.id + 2 ^ 70 * (o.next + 1)) else none)) ++ acc) []) ++
    (e.2.gq.filterMap (fun o => if o.started && o.pages.any (fun p => fits (own o.sid o.stamp) p.1 65536) then some o.id else none)) ++
    acc) []
  strands ++ reds ++ cores

/-- Phases 1 and 2 of a shoot-down (R183); a command while one is in progress is ignored. A WAITW on a matching word is translated again,
as a walk in flight is. -/
def shootDown (s : State) (asid : Option Nat) (page : Option (Nat × Nat)) : State :=
  if s.tinvWait.isSome then s
  else
    let fits := tinvMatch asid page
    let s1 : State := { s with
      tlb := s.tlb.filter (fun e => !fits e.asid e.va e.size)
      cores := s.cores.map (fun e => (e.1, { e.2 with l1 := e.2.l1.filter (fun l => !fits l.asid l.va 64) }))
      strands := s.strands.map (fun e => (e.1, match e.2.wait with
        | .word _ va _ _ => if fits (s.space e.1).1 va 8 then { e.2 with wait := .stall } else e.2
        | _ => e.2))
      tinvWait := some (s.holders asid page) }
    s1.setDev 0x300 (setField (s1.devReg 0x300) 63 1 1)

end State

/-- The bytes of a page by its size code (Table 7-5). -/
def pageBytes (size : Nat) : Nat := if size = 0 then 2 ^ 16 else if size = 1 then 2 ^ 21 else 2 ^ 30

/-- TINV_PAGE (R183): one page of an ASID; a reserved size completes at once with all ones in the completion word (R182). -/
def execTinvPage (asid va size : Nat) (s : State) : Result :=
  .next (if 3 ≤ size then (if s.tinvWait.isSome then s else s.writeNat (s.devReg 0x310) 8 (2 ^ 64 - 1))
    else s.shootDown (some asid) (some (va / pageBytes size * pageBytes size, pageBytes size)))

/-- TINV_ASID (R183): every page of an ASID. -/
def execTinvAsid (asid : Nat) (s : State) : Result := .next (s.shootDown (some asid) none)

/-- TINV_ALL (R183): every page of every ASID. -/
def execTinvAll (s : State) : Result := .next (s.shootDown none none)

/-- SHOOTDOWN_COMPLETE (R183 phases 3 and 4). -/
def execShootdownComplete (s : State) : Result :=
  .next (match s.tinvWait with
    | none => s
    | some ids =>
      let still := s.holders none none
      if ids.any (fun x => still.contains x) then s
      else
        let n := (s.tinvCount + 1) % 2 ^ 64
        let s1 : State := { s with tinvCount := n, tinvWait := none }
        (s1.writeNat (s.devReg 0x310) 8 n).setDev 0x300 (setField (s.devReg 0x300) 63 1 0))

/-! Register writes (R323). -/

/-- FRQHEAD_WRITE (R318): what waited for room in the ring goes on. -/
def execFrqheadWrite (value : Nat) (s : State) : Result := .next (s.writeFrqHead value).reap

/-- KV_POOL_CONFIG_WRITE (R278). -/
def execKvPoolConfigWrite (offset value : Nat) (s : State) : Result :=
  .next (if 0x400 ≤ offset ∧ offset ≤ 0x410 then s.writePool offset value else s)

/-- PFXVA_WRITE (R278, R302). -/
def execPfxvaWrite (value : Nat) (s : State) : Result := .next (s.writePfx value)

/-- PLAN_STORE_WRITE (R219, R324). -/
def execPlanStoreWrite (cluster offset value : Nat) (s : State) : Result := .next (s.writePlan cluster offset value)

/-- REGISTER_WRITE (R323). -/
def execRegisterWrite (offset value : Nat) (s : State) : Result := .next (s.writeDev offset value)

end Sys2Proof.Machine
end

