-- ==== Sys2Proof/Machine/Control.lean ====
section
/-! DEFINITION. The C slot: transfers (R374, R486, R198), the nest unit (R80, R81), ISYNC, FMT, TRAP and SYSRET. -/

namespace Sys2Proof.Machine

open Sys2Proof

namespace State

/-- A taken transfer: its target issues at v + 4 (R65, R374). -/
def transfer (s : State) (target depth : Nat) (push : Option Nat) (leave : Bool) : State :=
  s.updMe (fun t => { t with redirect := some ⟨t.vcc + 4, target % 65536, depth, push, leave⟩ })

/-- A displacement target from the transfer's own bundle index (R345, R374). -/
def dispTarget (s : State) (n disp : Nat) : Nat := codeN 16 ((s.me.mpc : Int) + signedN n disp)

/-- A register target: POISON, then ILLSHAPE for bits 63:16 (R374). -/
def regTarget (s : State) (a : BitVec 6) (f : State → Nat → State) : State :=
  s.clean [a.toNat] (fun s => if (s.me.val a.toNat).toNat < 65536 then f s (s.me.val a.toNat).toNat else s.raise .illshape)

/-- A taken CALL or CALLR: ACCV at call depth 15, otherwise the return index MPC + 4 is pushed at v + 4 (R374). -/
def callTo (s : State) (target : Nat) : State :=
  if 15 ≤ s.me.depth then s.raise .accv
  else s.transfer target (s.me.depth + 1) (some ((s.me.mpc + 4) % 65536)) false

/-- A jump that ends the levels whose body it leaves (R83). -/
def jumpTo (s : State) (target : Nat) : State := s.transfer target s.me.depth none true

end State

/-- BR (R394). -/
def execBr (disp : BitVec 21) (s : State) : Result := .next (s.jumpTo (s.dispTarget 21 disp.toNat))

/-- BRC (R395). -/
def execBrc (G : Guard) (disp : BitVec 21) (s : State) : Result :=
  .next (s.guarded G (fun s => s.jumpTo (s.dispTarget 21 disp.toNat)))

/-- BRR (R396). -/
def execBrr (G : Guard) (a : BitVec 6) (s : State) : Result :=
  .next (s.guarded G (fun s => s.regTarget a (fun s t => s.jumpTo t)))

/-- CALL (R397). -/
def execCall (G : Guard) (disp : BitVec 21) (s : State) : Result :=
  .next (s.guarded G (fun s => s.callTo (s.dispTarget 21 disp.toNat)))

/-- CALLR (R398). -/
def execCallr (G : Guard) (a : BitVec 6) (s : State) : Result :=
  .next (s.guarded G (fun s => s.regTarget a (fun s t => s.callTo t)))

/-- Every nest level idle, with no increment or rewind applied (R486). -/
def Strand.endLevels (t : Strand) : Strand := { t with nest := t.nest.map (fun e => (e.1, { e.2 with active := false, counter := 0 })) }

/-- RET (R486): at call depth 0 the microprogram ends with this bundle, and handler mode makes that a trap (R316). -/
def execRet (G : Guard) (s : State) : Result :=
  .next (s.guarded G (fun s =>
    if s.me.depth = 0 then
      if s.me.handler.isSome then s.raiseFree
      else s.updMe (fun t => { t.endLevels with ending := true })
    else s.transfer (nth 0 s.me.rstack 0) (s.me.depth - 1) none false))

/-- The value of a level's length binding (R80, R81). -/
def NestLevel.binding (n : NestLevel) : Option Word := (n.atts.find? (fun a => a.kind == 1)).map (·.value)

/-- A run of a level that starts, or whose body is skipped when the trip count is 0 (R81). -/
def State.startLevel (s : State) (l trip len : Nat) : State :=
  if trip = 0 then s.updMe (fun t => { t with redirect := some ⟨t.vcc + 1, (t.mpc + 1 + len) % 65536, t.depth, none, false⟩ })
  else s.updMe (fun t => { t with
    nest := t.nest.set l { t.level l with
      active := true
      counter := 0
      trip := trip
      start := (t.mpc + 1) % 65536
      stop := (t.mpc + len) % 65536
      depth := t.depth
      saved := (t.level l).atts.map (fun a => t.val a.addr) }
    grp := { t.grp with fresh := true } })

/-- LOOP (R81, R449). -/
def execLoop (G : Guard) (level : BitVec 3) (cnt : BitVec 6) (len : BitVec 12) (s : State) : Result :=
  .next (s.guarded G (fun s =>
    let n := s.me.level level.toNat
    if s.me.handler.isSome then s.raiseFree
    else
      match n.binding with
      | some b =>
        if n.active then s.raise .illenc
        else if b = 0 then s.raise .illshape
        else s.startLevel level.toNat (ceilDiv (s.me.cwn 0x005) b.toNat) len.toNat
      | none => s.clean [cnt.toNat] (fun s =>
        if n.active then s.raise .illenc
        else s.startLevel level.toNat ((s.me.val cnt.toNat).toNat % 2 ^ 32) len.toNat)))

/-- NEST (R80, R473). -/
def execNest (G : Guard) (level : BitVec 3) (kind : BitVec 2) (val addr : BitVec 6) (s : State) : Result :=
  .next (s.guarded G (fun s =>
    let n := s.me.level level.toNat
    if s.me.handler.isSome then s.raiseFree
    else s.clean [val.toNat] (fun s =>
      if n.active then s.raise .illenc
      else if kind.toNat = 3 then s.updMe (fun t => { t with nest := t.nest.set level.toNat { n with atts := [] } })
      else if 4 ≤ n.atts.length || (kind.toNat == 1 && n.binding.isSome) then s.raise .illenc
      else
        let a : Attach := ⟨addr.toNat, val.toNat, s.me.val val.toNat, kind.toNat⟩
        s.updMe (fun t => { t with nest := t.nest.set level.toNat { n with atts := n.atts ++ [a] } }))))

/-- CHK (R198, R400): a taken transfer when the register is poisoned; it never raises POISON. -/
def execChk (G : Guard) (a : BitVec 6) (disp : BitVec 15) (s : State) : Result :=
  .next (s.guarded G (fun s => if s.me.pois a.toNat then s.jumpTo (s.dispTarget 15 disp.toNat) else s))

/-- ISYNC (R46, R248, R436): the control store of the core, or a control core's instruction cache. -/
def execIsync (G : Guard) (s : State) : Result :=
  .next (s.guarded G (fun s => s.updCore (gidOf s.cur) (fun c => { c with cs := [], icache := [] })))

/-- FMT (R100, R415). -/
def execFmt (G : Guard) (v : BitVec 21) (s : State) : Result := .next (s.guarded G (fun s => s.land 4 (.fmtr v)))

/-- TRAP (R516). -/
def execTrap (G : Guard) (n : BitVec 8) (s : State) : Result := .next (s.guarded G (fun s => s.softTrap n.toNat))

/-- SYSRET (R316, R515): outside handler mode ACCV; otherwise the strand returns when this bundle closes. -/
def execSysret (s : State) : Result :=
  .next (if s.me.handler.isSome then s.updMe (fun t => { t with returning := true }) else s.raise .accv)

end Sys2Proof.Machine
end

