-- ==== Sys2Proof/Machine/Scalar.lean ====
section
/-! DEFINITION. The integer operations of the S slot (R373, R450, R502 and their entries), MFC and MTC. -/

namespace Sys2Proof.Machine

open Sys2Proof

/-- ADD (R379). -/
def execAdd (G : Guard) (w : Bool) (d a b : BitVec 6) (s : State) : Result := .next (s.alu2 G w d a b 1 (fun _ x y => x + y))

/-- SUB (R514). -/
def execSub (G : Guard) (w : Bool) (d a b : BitVec 6) (s : State) : Result :=
  .next (s.alu2 G w d a b 1 (fun n x y => x + 2 ^ n - y))

/-- MUL (R469). -/
def execMul (G : Guard) (w : Bool) (d a b : BitVec 6) (s : State) : Result := .next (s.alu2 G w d a b 3 (fun _ x y => x * y))

/-- The high half of a signed product (R470, R450). -/
def mulHigh (n x y : Nat) : Nat := codeN (2 * n) (signedN n x * signedN n y) / 2 ^ n

/-- MULH (R470). -/
def execMulh (G : Guard) (w : Bool) (d a b : BitVec 6) (s : State) : Result := .next (s.alu2 G w d a b 3 mulHigh)

/-- MULHN (R471). -/
def execMulhn (G : Guard) (w : Bool) (d a b : BitVec 6) (s : State) : Result :=
  .next (s.alu2 G w d a b 3 (fun n x y => x * y / 2 ^ n))

/-- The signed quotient, truncated toward zero, with the cases of R134. -/
def divSigned (n x y : Nat) : Nat := if y = 0 then 2 ^ n - 1 else codeN n ((signedN n x).tdiv (signedN n y))

/-- The signed remainder, with the sign of the dividend, with the cases of R134. -/
def remSigned (n x y : Nat) : Nat := if y = 0 then x else codeN n ((signedN n x).tmod (signedN n y))

/-- DIV (R411). -/
def execDiv (G : Guard) (w : Bool) (d a b : BitVec 6) (s : State) : Result := .next (s.alu2 G w d a b 20 divSigned)

/-- DIVN (R412). -/
def execDivn (G : Guard) (w : Bool) (d a b : BitVec 6) (s : State) : Result :=
  .next (s.alu2 G w d a b 20 (fun n x y => if y = 0 then 2 ^ n - 1 else x / y))

/-- REM (R485). -/
def execRem (G : Guard) (w : Bool) (d a b : BitVec 6) (s : State) : Result := .next (s.alu2 G w d a b 20 remSigned)

/-- AND (R384). -/
def execAnd (G : Guard) (w : Bool) (d a b : BitVec 6) (s : State) : Result := .next (s.alu2 G w d a b 1 (fun _ x y => x &&& y))

/-- OR (R474). -/
def execOr (G : Guard) (w : Bool) (d a b : BitVec 6) (s : State) : Result := .next (s.alu2 G w d a b 1 (fun _ x y => x ||| y))

/-- XOR (R531). -/
def execXor (G : Guard) (w : Bool) (d a b : BitVec 6) (s : State) : Result := .next (s.alu2 G w d a b 1 (fun _ x y => x ^^^ y))

/-- ANDN (R386). -/
def execAndn (G : Guard) (w : Bool) (d a b : BitVec 6) (s : State) : Result :=
  .next (s.alu2 G w d a b 1 (fun n x y => x &&& (2 ^ n - 1 - y)))

/-- SHL (R502). -/
def execShl (G : Guard) (w : Bool) (d a b : BitVec 6) (s : State) : Result :=
  .next (s.alu2 G w d a b 1 (fun n x y => x <<< (y % n)))

/-- SHR (R502). -/
def execShr (G : Guard) (w : Bool) (d a b : BitVec 6) (s : State) : Result :=
  .next (s.alu2 G w d a b 1 (fun n x y => x >>> (y % n)))

/-- An arithmetic shift right of an `n`-bit code (R451). -/
def sarN (n x k : Nat) : Nat := codeN n (signedN n x >>> k)

/-- SAR (R490). -/
def execSar (G : Guard) (w : Bool) (d a b : BitVec 6) (s : State) : Result :=
  .next (s.alu2 G w d a b 1 (fun n x y => sarN n x (y % n)))

/-- ROL (R488). -/
def execRol (G : Guard) (w : Bool) (d a b : BitVec 6) (s : State) : Result :=
  .next (s.alu2 G w d a b 1 (fun n x y => x <<< (y % n) % 2 ^ n + x >>> (n - y % n)))

/-- MIN (R461). -/
def execMin (G : Guard) (w : Bool) (d a b : BitVec 6) (s : State) : Result :=
  .next (s.alu2 G w d a b 1 (fun n x y => if signedN n x ≤ signedN n y then x else y))

/-- MAX (R455). -/
def execMax (G : Guard) (w : Bool) (d a b : BitVec 6) (s : State) : Result :=
  .next (s.alu2 G w d a b 1 (fun n x y => if signedN n y ≤ signedN n x then x else y))

/-- MINN (R462). -/
def execMinn (G : Guard) (w : Bool) (d a b : BitVec 6) (s : State) : Result :=
  .next (s.alu2 G w d a b 1 (fun _ x y => if x ≤ y then x else y))

/-- MAXN (R456). -/
def execMaxn (G : Guard) (w : Bool) (d a b : BitVec 6) (s : State) : Result :=
  .next (s.alu2 G w d a b 1 (fun _ x y => if y ≤ x then x else y))

/-- SEL (R493). -/
def execSel (G : Guard) (w : Bool) (d a b : BitVec 6) (c : BitVec 4) (s : State) : Result :=
  .next (s.alu2 G w d a b 1 (fun _ x y => if s.me.pred c.toNat then x else y))

/-- The zero bits above the highest set bit among the low `n` (R401). -/
def leadZeros : Nat → Nat → Nat
  | 0, _ => 0
  | n + 1, x => if bitAt x n then 0 else 1 + leadZeros n x

/-- The zero bits below the lowest set bit among the low `n` (R410). -/
def trailZeros : Nat → Nat → Nat
  | 0, _ => 0
  | n + 1, x => if bitAt x 0 then 0 else 1 + trailZeros n (x / 2)

/-- The set bits among the low `n` (R478). -/
def onesIn : Nat → Nat → Nat
  | 0, _ => 0
  | n + 1, x => x % 2 + onesIn n (x / 2)

/-- CLZ (R401). -/
def execClz (G : Guard) (w : Bool) (d a : BitVec 6) (s : State) : Result := .next (s.alu1 G w d a leadZeros)

/-- CTZ (R410). -/
def execCtz (G : Guard) (w : Bool) (d a : BitVec 6) (s : State) : Result := .next (s.alu1 G w d a trailZeros)

/-- POPC (R478). -/
def execPopc (G : Guard) (w : Bool) (d a : BitVec 6) (s : State) : Result := .next (s.alu1 G w d a onesIn)

/-- The width of a BFX or BFI field; 0 means 64 (R343, R391). -/
def fieldLen (width : BitVec 6) : Nat := if width.toNat = 0 then 64 else width.toNat

/-- BFX (R393). -/
def execBfx (G : Guard) (w : Bool) (d a lsb width : BitVec 6) (s : State) : Result :=
  .next (s.alu1 G w d a (fun _ x => fieldN x lsb.toNat (fieldLen width)))

/-- BFI (R391): d is a source as well. -/
def execBfi (G : Guard) (w : Bool) (d a lsb width : BitVec 6) (s : State) : Result :=
  .next (s.alu2 G w d d a 1 (fun _ x y => setField x lsb.toNat (fieldLen width) y))

/-- The width of a SEXT or ZEXT; 0 means 64, or 32 with w = 1 (R496, R532). -/
def extLen (n : Nat) (width : BitVec 6) : Nat := if width.toNat = 0 then n else width.toNat

/-- SEXT (R496). -/
def execSext (G : Guard) (w : Bool) (d a width : BitVec 6) (s : State) : Result :=
  .next (s.alu1 G w d a (fun n x => codeN n (signedN (extLen n width) x)))

/-- ZEXT (R532). -/
def execZext (G : Guard) (w : Bool) (d a width : BitVec 6) (s : State) : Result :=
  .next (s.alu1 G w d a (fun n x => x % 2 ^ extLen n width))

/-- CMP (R402). -/
def execCmp (G : Guard) (w : Bool) (pd : BitVec 4) (a b : BitVec 6) (cond : BitVec 4) (s : State) : Result :=
  .next (s.compare G pd [a.toNat, b.toNat] 1 (fun s =>
    cmpCond (opWidth w) cond.toNat (s.me.src w a.toNat) (s.me.src w b.toNat)))

/-- AGEN (R381). -/
def execAgen (G : Guard) (w : Bool) (d a b : BitVec 6) (scale : BitVec 2) (s : State) : Result :=
  .next (s.alu2 G w d a b 1 (fun _ x y => x + y * 2 ^ scale.toNat))

/-- ADDI (R380). -/
def execAddi (G : Guard) (w : Bool) (d a : BitVec 6) (imm : BitVec 16) (s : State) : Result :=
  .next (s.alu1 G w d a (fun n x => x + codeN n (signedN 16 imm.toNat)))

/-- ANDI (R385). -/
def execAndi (G : Guard) (w : Bool) (d a : BitVec 6) (imm : BitVec 16) (s : State) : Result :=
  .next (s.alu1 G w d a (fun _ x => x &&& imm.toNat))

/-- ORI (R475). -/
def execOri (G : Guard) (w : Bool) (d a : BitVec 6) (imm : BitVec 16) (s : State) : Result :=
  .next (s.alu1 G w d a (fun _ x => x ||| imm.toNat))

/-- XORI (R531). -/
def execXori (G : Guard) (w : Bool) (d a : BitVec 6) (imm : BitVec 16) (s : State) : Result :=
  .next (s.alu1 G w d a (fun _ x => x ^^^ imm.toNat))

/-- SHLI (R502). -/
def execShli (G : Guard) (w : Bool) (d a : BitVec 6) (imm : BitVec 16) (s : State) : Result :=
  .next (s.alu1 G w d a (fun _ x => x <<< imm.toNat))

/-- SHRI (R502). -/
def execShri (G : Guard) (w : Bool) (d a : BitVec 6) (imm : BitVec 16) (s : State) : Result :=
  .next (s.alu1 G w d a (fun _ x => x >>> imm.toNat))

/-- SARI (R491). -/
def execSari (G : Guard) (w : Bool) (d a : BitVec 6) (imm : BitVec 16) (s : State) : Result :=
  .next (s.alu1 G w d a (fun n x => sarN n x imm.toNat))

/-- MOVI (R465): poison clear (R89). -/
def execMovi (G : Guard) (w : Bool) (d : BitVec 6) (imm : BitVec 16) (s : State) : Result :=
  .next (s.guarded G (fun s => s.land 1 (.g d.toNat (sized w imm.toNat) false)))

/-- MOVHI (R464): d is a source. -/
def execMovhi (G : Guard) (w : Bool) (d : BitVec 6) (sh : BitVec 2) (imm : BitVec 16) (s : State) : Result :=
  .next (s.alu1 G w d d (fun _ x => setField x (16 * sh.toNat) 16 imm.toNat))

/-- CMPI (R403). -/
def execCmpi (G : Guard) (w : Bool) (pd : BitVec 4) (a : BitVec 6) (cond : BitVec 4) (imm : BitVec 16) (s : State) : Result :=
  .next (s.compare G pd [a.toNat] 1 (fun s =>
    cmpCond (opWidth w) cond.toNat (s.me.src w a.toNat) (codeN (opWidth w) (signedN 16 imm.toNat))))

/-- MFC (R96, R459): the value at its step, poison clear. -/
def execMfc (G : Guard) (w : Bool) (d : BitVec 6) (num : BitVec 12) (s : State) : Result :=
  .next (s.guarded G (fun s => s.land 1 (.g d.toNat (sized w (s.creg s.cur num.toNat)) false)))

/-- MTC (R96, R468): POISON for a poisoned source; the new value is visible at v + 2. -/
def execMtc (G : Guard) (w : Bool) (a : BitVec 6) (num : BitVec 12) (s : State) : Result :=
  .next (s.guarded G (fun s => s.clean [a.toNat] (fun s =>
    s.land 2 (.creg num.toNat (Strand.crKeep num.toNat (sized w (s.me.src w a.toNat)))))))

end Sys2Proof.Machine
end

