-- ==== Sys2Proof/Machine/ScalarFloat.lean ====
section
/-! DEFINITION. The floating-point operations of the S slot (R452, R497 to R501). -/

namespace Sys2Proof.Machine

open Sys2Proof

/-- The float format of a scalar type: 0 FP32, 1 FP64 (Table 14-3). -/
def scalarFmt (ty : Nat) : Fmt := if ty = 0 then Fmt.fp32 else Fmt.fp64

/-- A scalar float operation on registers, with one rounding and the sources' poison (R452). -/
def State.floatOp (s : State) (G : Guard) (d : BitVec 6) (rs : List Nat) (rnd : Nat) (f : Rnd → Nat) : State :=
  s.guarded G (fun s => s.roundings rnd false false 1 (fun s1 r =>
    s1.land 4 (.g d.toNat (BitVec.ofNat 64 (f (r.headD (Rnd.rne false)))) (rs.any (fun x => s.me.pois x)))))

/-- A float source: the low bits of its register (R452). -/
def State.floatSrc (s : State) (ty : Nat) (r : BitVec 6) : Nat := (s.me.val r.toNat).toNat % 2 ^ (scalarFmt ty).width

/-- SFADD (R497). -/
def execSfadd (G : Guard) (d a b : BitVec 6) (ty : BitVec 2) (rnd : BitVec 3) (s : State) : Result :=
  .next (s.floatOp G d [a.toNat, b.toNat] rnd.toNat (fun r =>
    (scalarFmt ty.toNat).add r (s.floatSrc ty.toNat a) (s.floatSrc ty.toNat b)))

/-- SFMUL (R501). -/
def execSfmul (G : Guard) (d a b : BitVec 6) (ty : BitVec 2) (rnd : BitVec 3) (s : State) : Result :=
  .next (s.floatOp G d [a.toNat, b.toNat] rnd.toNat (fun r =>
    (scalarFmt ty.toNat).mul r (s.floatSrc ty.toNat a) (s.floatSrc ty.toNat b)))

/-- SFFMA (R500): d is a source. -/
def execSffma (G : Guard) (d a b : BitVec 6) (ty : BitVec 2) (rnd : BitVec 3) (s : State) : Result :=
  .next (s.floatOp G d [a.toNat, b.toNat, d.toNat] rnd.toNat (fun r =>
    (scalarFmt ty.toNat).fma r (s.floatSrc ty.toNat a) (s.floatSrc ty.toNat b) (s.floatSrc ty.toNat d)))

/-- SFCMP (R498): FP64, or FP32 with w set. -/
def execSfcmp (G : Guard) (w : Bool) (pd : BitVec 4) (a b : BitVec 6) (cond : BitVec 4) (s : State) : Result :=
  let ty := if w then 0 else 1
  .next (s.compare G pd [a.toNat, b.toNat] 4 (fun s =>
    sfCond cond.toNat (FVal.cmp ((scalarFmt ty).read (s.floatSrc ty a)) ((scalarFmt ty).read (s.floatSrc ty b)))))

/-- The value of an SFCVT source (R499): 0 FP32, 1 FP64, 2 S64, 3 U64. -/
def cvtSource (ty v : Nat) : FVal :=
  match ty with
  | 0 => Fmt.fp32.read (v % 2 ^ 32)
  | 1 => Fmt.fp64.read v
  | 2 => ofInt (signedN 64 v)
  | _ => ofInt v

/-- The code of an SFCVT result (R499, R120, R121). -/
def cvtResult (ty : Nat) (r : Rnd) (v : FVal) : Nat :=
  match ty with
  | 0 => Fmt.fp32.write r v
  | 1 => Fmt.fp64.write r v
  | 2 => codeN 64 (clampInt (-(2 ^ 63 : Nat)) ((2 ^ 63 : Nat) - 1) (roundToInt r v))
  | 3 => (clampInt 0 ((2 ^ 64 : Nat) - 1) (roundToInt r v)).toNat
  | 4 => Fmt.bf16.write r v
  | _ => Fmt.fp16.write r v

/-- SFCVT (R499): a destination narrower than FP32 rounds stochastically under SRE (R557). A widening is exact, so FP32 to FP64 keeps an
infinity whatever SAT is (R120). -/
def execSfcvt (G : Guard) (d a : BitVec 6) (sty : BitVec 2) (rnd dty : BitVec 3) (s : State) : Result :=
  .next (s.guarded G (fun s =>
    s.roundings rnd.toNat (decide (4 ≤ dty.toNat)) (s.me.sat && !(sty.toNat == 0 && dty.toNat == 1)) 1 (fun s1 r =>
      s1.land 4 (.g d.toNat (BitVec.ofNat 64 (cvtResult dty.toNat (r.headD (Rnd.rne false))
        (cvtSource sty.toNat (s.me.val a.toNat).toNat))) (s.me.pois a.toNat)))))

end Sys2Proof.Machine
end

