-- ==== Sys2Proof/Machine/Service.lean ====
section
/-! DEFINITION. Boot, host links, power, telemetry and service (R20, R21, R192, R193, R325 to R329, R332 to R338). -/

namespace Sys2Proof.Machine

open Sys2Proof

/-! Boot and attestation. -/

/-- The bytes "HGV-ID" (R327). -/
def idBytes : List Byte := [0x48, 0x47, 0x56, 0x2D, 0x49, 0x44]

/-- The identity key of a module: its seed is the digest of "HGV-ID" after the secret that the boot block rebuilds with the helper data
(R327). -/
def identityKey (module : Nat) (helper : List Byte) : List Byte :=
  Config.mldsaKey (Config.shake256 32 (Config.bootSecret module helper ++ idBytes))

/-- The 8-byte words of a run of bytes. -/
def natsOf (bs : List Byte) : List Nat := (span 0 (bs.length / 8)).map (fun i => leNat ((bs.drop (8 * i)).take 8))

/-- A configuration as the bytes that are signed (R326; the layout is the model's, log entry 12). -/
def BootConfig.bytes (c : BootConfig) : List Byte :=
  let all (xs : List Nat) : List Byte := xs.foldr (fun x acc => leBytes 8 x ++ acc) []
  all c.repair ++ all ((span 0 8).map (fun d => c.spares.get 0 d)) ++ all c.retired ++ all ((span 0 36).map (fun l => c.lanes.get 0 l))

/-- The owner keys of a key manifest as the bytes that are signed (R326). -/
def FlashSlot.manifest (f : FlashSlot) : List Byte := f.owners.foldr (fun k acc => k ++ acc) []

/-- Whether a slot's root key is the one in mask ROM and its first stage verifies (R325). -/
def FlashSlot.passes (f : FlashSlot) : Bool :=
  Config.shake256 32 f.rootKey == Config.romDigest && Config.mldsaVerify f.rootKey f.image f.sig

/-- Whether all that a slot loads after its first stage verifies (R326): the key manifest with the root key or an owner key of the manifest
that it replaces, and the configuration and the later stages with keys that the manifest names. -/
def FlashSlot.sound (f : FlashSlot) (old : List (List Byte)) : Bool :=
  (f.owners.isEmpty || (f.rootKey :: old).any (fun k => Config.mldsaVerify k f.manifest f.ownSig)) &&
  (f.config == BootConfig.empty || (f.owners.contains f.confKey && Config.mldsaVerify f.confKey f.config.bytes f.confSig)) &&
  f.stages.all (fun x => f.owners.contains x.1 && Config.mldsaVerify x.1 x.2.1 x.2.2)

/-- The measurements of a slot's images in load order (R328); the kind is the place in that order (log entry 12). -/
def FlashSlot.measures (f : FlashSlot) : List (Nat × List Byte) :=
  let images := f.image :: f.stages.map (fun x => x.2.1)
  (span 0 images.length).zip (images.map (fun i => Config.shake256 64 i))

namespace State

/-- The flash slot that passes first, A before B (R325). -/
def bootSlot (s : State) : Option (Nat × FlashSlot) :=
  ([0, 1].filterMap (fun i => (s.boot.flash.get? i).map (fun f => (i, f)))).find? (fun x => x.2.passes)

/-- The owner keys of the manifest that a slot's own replaces: those in the other slot (R326). -/
def oldOwners (s : State) (slot : Nat) : List (List Byte) :=
  match s.boot.flash.get? (1 - slot) with
  | some f => if f.passes then f.owners else []
  | none => []

/-- What stays over a power cycle: flash, the module's place in the pod, and the model's own schedule. I/O die 1 is held in reset
(R325). -/
def powerCycle (s : State) : State :=
  { State.reset with
    agenda := s.agenda
    now := s.now
    free := s.free
    nextId := s.nextId
    module := s.module
    telem := { State.reset.telem with from_ := s.now }
    boot := { State.reset.boot with flash := s.boot.flash, helper := s.boot.helper, cert := s.boot.cert, held := true, phase := 2 } }

/-- The configuration applied (R326): repaired rows, spare maps, retired channels, lanes, and the counts of INVENTORY. -/
def applyConfig (s : State) (c : BootConfig) : State :=
  let used := c.spares.foldl (fun n e => n + e.2) 0
  let v := setField (setField (s.devReg 0) 24 6 (32 - used)) 30 10 c.retired.length
  ({ s with service := { s.service with repair := c.repair, spares := c.spares, retired := c.retired, lanes := c.lanes } } : State).setDev 0 v

end State

/-- POWER_ON (R29, R325 to R328): the first slot that passes boots; a later stage that does not verify, or no slot, leads to
recovery. -/
def execPowerOn (s : State) : Result :=
  let s1 := s.powerCycle
  .next (match s1.bootSlot with
    | some (i, f) =>
      if f.sound (s1.oldOwners i) then
        ({ s1 with boot := { s1.boot with
          phase := 1, held := false, slot := i * 3, key := identityKey s1.module s1.boot.helper, measured := f.measures
          beats := s1.now } } : State).applyConfig f.config
      else s1
    | none => s1)

/-- ATTESTATION_REPORT (R328): the nonce and the measurement list, signed with the identity key. -/
def execAttestationReport (nonce : List Byte) (s : State) : Result :=
  let list := s.boot.measured.foldr (fun m acc => leBytes 8 m.1 ++ m.2 ++ acc) []
  .next (if s.boot.phase ≠ 1 ∨ nonce.length ≠ 32 then s
    else { s with boot := { s.boot with report := nonce ++ list ++ Config.mldsaSign s.boot.key (nonce ++ list) } })

/-- FLASH_SLOT_SWITCH (R326, R336): one I/O die goes over to the other slot, which is verified and measured before it is used; bit d
of the boot slot is the slot of I/O die d. -/
def execFlashSlotSwitch (die : Nat) (s : State) : Result :=
  let cur := fieldN s.boot.slot die 1
  .next (if s.boot.phase ≠ 1 ∨ 2 ≤ die then s
    else match s.boot.flash.get? (1 - cur) with
    | none => s
    | some f =>
      if f.passes && f.sound (s.oldOwners (1 - cur)) then
        { s with boot := { s.boot with slot := setField s.boot.slot die 1 (1 - cur), measured := s.boot.measured ++ f.measures } }
      else s)

/-! Host links (R329). -/

/-- HOST_ACCESS (R323, R329): BAR0 maps the device registers, BAR2 HBM4E; a write performs at once as a release at CHIP, and a read
changes nothing. -/
def execHostAccess (bar : Nat) (write : Bool) (offset value : Nat) (s : State) : Result :=
  let pa := s.module * 2 ^ 48 + Config.barBase + offset
  .next (if !write || s.boot.phase == 2 then s
    else if bar = 0 then (if offset % 8 = 0 ∧ offset < 2 ^ 24 then s.writeDev offset value else s)
    else if bar = 2 then
      (if offset + 8 ≤ 2 ^ 36 && targetOf (Config.barBase + offset) == .hbm && targetOf (Config.barBase + offset + 7) == .hbm &&
          s.reachable pa then s.writeNat pa 8 value else s)
    else s)

namespace State

def port (s : State) (p : Nat) : Port := s.ports.get ⟨[], []⟩ p

/-- An image that recovery accepts: a root key of 1,952 bytes, a signature of 3,309, then the image (R325, R327, R328; the order is the
model's, log entry 12). -/
def recoverySlot (bytes : List Byte) : FlashSlot :=
  ⟨bytes.take 1952, bytes.drop 5261, (bytes.drop 1952).take 3309, [], [], BootConfig.empty, [], [], []⟩

/-- The stages of a slot, each three pieces: key, image, signature. -/
def stagesOf : List (List Byte) → List (List Byte × List Byte × List Byte)
  | k :: i :: g :: rest => (k, i, g) :: stagesOf rest
  | _ => []

/-- A slot as firmware writes it, piece by piece (R326, R336; the order is the model's, log entry 12): root key, image, signature, owner
keys, the manifest's signature, the configuration's key and signature, its four lists, and the stages. -/
def flashSlotOf (ps : List (List Byte)) : FlashSlot :=
  let p (i : Nat) : List Byte := nth [] ps i
  let owners := (span 0 ((p 3).length / 1952)).map (fun i => ((p 3).drop (1952 * i)).take 1952)
  let spares := (span 0 8).zip (natsOf (p 8))
  let lanes := (span 0 36).zip (natsOf (p 10))
  ⟨p 0, p 1, p 2, owners, p 4, ⟨natsOf (p 7), spares.filter (fun x => x.2 != 0), natsOf (p 9), lanes.filter (fun x => x.2 != 0)⟩, p 5, p 6,
    stagesOf (ps.drop 11)⟩

/-- Firmware and keys written into the flash slot from which neither I/O die runs (R336). -/
def flashWrite (s : State) (die : Nat) (ps : List (List Byte)) : State :=
  let n := 1 - fieldN s.boot.slot die 1
  if s.boot.phase ≠ 1 ∨ 2 ≤ die ∨ fieldN s.boot.slot (1 - die) 1 = n then s
  else { s with boot := { s.boot with flash := s.boot.flash.set n (flashSlotOf ps) } }

end State

/-- FRAME_RECEIVE (R325, R329): a frame lands in its ring, at an address of HBM4E that is free since the manual gives no ring layout,
with its time stamp; in recovery port 0 takes nothing but a signed image for slot B. -/
def execFrameReceive (port : Nat) (bytes : List Byte) (s : State) : Result :=
  .next (if 8 ≤ port then s
    else if s.boot.phase = 2 then
      (if port = 0 && (State.recoverySlot bytes).passes then
        { s with boot := { s.boot with flash := s.boot.flash.set 1 (State.recoverySlot bytes) } } else s)
    else
      let f := s.takeFree
      let s1 := f.2.writeBytes (s.module * 2 ^ 48 + f.1 % (2 ^ 40 - bytes.length % 2 ^ 40)) (bytes.take (2 ^ 14))
      { s1 with ports := s1.ports.set port { s1.port port with rx := (s1.port port).rx ++ [(s.now, bytes)] } })

/-- FRAME_TRANSMIT (R329): a port sends the frame that its ring holds, whose bytes are free since the manual gives no ring layout. -/
def execFrameTransmit (port : Nat) (s : State) : Result :=
  .next (if 8 ≤ port ∨ s.boot.phase = 2 then s
    else
      let f := s.takeFree
      let n := f.1 % 2 ^ 14
      let s1 : State := { f.2 with free := f.2.free + n }
      { s1 with ports := s1.ports.set port { s1.port port with sent := (s1.port port).sent ++ [(s.now, f.2.freeBytes n)] } })

/-! Power and telemetry (R332, R333). -/

/-- The average power of the interval so far (R332). -/
def Power.mean (p : Power) : Nat := if p.ticks = 0 then 0 else p.sum / p.ticks

/-- The share of core cycles that a count is, in units of 2^−16 (Table 13-4). -/
def shareOf (s : State) (count : Nat) : Nat :=
  Nat.min 65535 (count * 65536 / Nat.max 1 (fieldN (s.devReg 0) 40 10 * (s.now - s.telem.from_)))

/-- Whether ballast fails to prevent a fall (R332): it is off, demand is 8 everywhere, or its entry is refused. -/
def State.ballastFails (s : State) : Bool :=
  let e := s.entryAt 0 (fieldN (s.devReg 0x200) 36 12)
  !bitAt (s.devReg 0x200) 35 || (span 0 80).all (fun k => (s.cluster k).demand == 8) ||
    e.bad || e.outMask != 0 || e.inMask != 0 || e.width != 0

/-- P(k) (R332): from the second interval after a write of a power register the controller has kept rises, the cap, and the falls that the
cap does not force and ballast does not fail to prevent. -/
def State.intervalPower (s : State) : Nat :=
  let p := s.power.mean
  let up := s.devReg 0x600
  let dn := s.devReg 0x608
  let cap := s.devReg 0x610
  let hi := Nat.min cap (if up = 0 then cap else s.power.prev + up)
  let lo := if dn = 0 ∨ cap < s.power.prev - dn ∨ s.ballastFails = true then 0 else s.power.prev - dn
  if s.power.age < 2 then p else Nat.min hi (Nat.max lo p)

/-- POWER_CONTROL_TICK (R332): the power of the last 10 µs; rises and the cap hold dispatch and engine starts, falls raise ballast
demand, and the cap goes before RAMPDN. -/
def execPowerControlTick (watts : Nat) (s : State) : Result :=
  let up := s.devReg 0x600
  let dn := s.devReg 0x608
  let capped := decide (s.devReg 0x610 < watts)
  let rising := up != 0 && decide (s.power.prev + up < watts)
  let falling := dn != 0 && decide (watts + dn < s.power.prev) && !capped && bitAt (s.devReg 0x200) 35
  let p : Power := { s.power with
    sum := s.power.sum + watts
    ticks := s.power.ticks + 1
    peak := Nat.max s.power.peak watts
    hold := capped || rising }
  .next (if s.boot.phase = 2 then s else { s with
    power := p
    clusters := (span 0 80).foldl (fun m k =>
      let c := s.cluster k
      let d := if falling then Nat.min 8 (c.demand + 1) else c.demand - 1
      if d = c.demand then m else m.set k { c with demand := d }) s.clusters })

/-- TELEMETRY_RECORD (R332, R333): the record of an interval, and its ramp events. Times and temperatures are free. -/
def execTelemetryRecord (s : State) : Result :=
  let v (i n : Nat) : Nat × Nat := (n, Config.freeNat (s.free + i))
  let t := s.telem
  let p := s.intervalPower
  let dn := s.devReg 0x608
  let ramp := t.rampev + (if dn != 0 && decide (p + dn < s.power.prev) then 1 else 0)
  let size := 2 ^ (let l := s.devReg 0x618 % 32; if l < 10 ∨ 20 < l then 10 else l)
  let word := pack [(32, 0), (32, t.frqhold), (32, t.uecc), (32, t.cecc), (16, t.ballastCyc / 1024 + t.ballast), (16, ramp), (32, t.lwait),
    (32, t.late), (16, shareOf s t.mact), (16, shareOf s t.act), v 2 16, v 3 64, (16, s.power.peak), (16, p), (1, 0), (1, (!s.service.ptpLock).toNat),
    (30, Config.freeNat (s.free + 4) % 10 ^ 9), v 5 48, (64, t.seq)]
  let s1 := ({ s with free := s.free + 6 } : State).writeNat (fieldN (s.devReg 0x618) 12 45 * 4096 + 64 * (t.seq % size)) 64 word
  .next (if s.boot.phase = 2 then s else { s1 with
    telem := { t with seq := t.seq + 1, rampev := ramp, act := 0, mact := 0, from_ := s.now }
    power := ⟨p, 0, 0, 0, s.power.hold, s.power.age + 1⟩ })

/-- PTP_LOCK_CHANGE (R333). -/
def execPtpLockChange (locked : Bool) (s : State) : Result := .next { s with service := { s.service with ptpLock := locked } }

/-! Heartbeat and failover (R338). -/

/-- HEARTBEAT (R338). -/
def execHeartbeat (s : State) : Result :=
  .next (if bitAt (s.devReg 0) 17 || s.boot.phase == 2 then s else { s with boot := { s.boot with beats := s.now } })

/-- FAILOVER (R338): after 10 ms without a heartbeat I/O die 1 takes over with the same registers; the identity key is derived
again. -/
def execFailover (s : State) : Result :=
  .next (if bitAt (s.devReg 0) 17 || s.boot.held || decide (s.now < s.boot.beats + 12000000) then s
    else ({ s with boot := { s.boot with key := if s.boot.phase = 1 then identityKey s.module s.boot.helper else s.boot.key } } : State).setDev 0
      (setField (s.devReg 0) 17 1 1))

/-! Parts that fail and come back. -/

namespace State

/-- LINKS counts the links that are up (Table 13-2). -/
def setLinks (s : State) (down : List Nat) : State :=
  ({ s with service := { s.service with down := down } } : State).setDev 0 (setField (s.devReg 0) 18 6 (36 - down.length))

end State

/-- HAWSER_LINK_DOWN (R221, Table 13-2). -/
def execHawserLinkDown (link : Nat) (s : State) : Result :=
  .next (if 36 ≤ link ∨ s.service.down.contains link then s else s.setLinks (insertOnce link s.service.down))

/-- HAWSER_LINK_UP (R221, Table 13-2). -/
def execHawserLinkUp (link : Nat) (s : State) : Result := .next (s.setLinks (s.service.down.filter (· != link)))

/-- LANE_REPLACE (R336): a spare lane takes over; flits are sent again and none is lost. -/
def execLaneReplace (link : Nat) (s : State) : Result :=
  .next (if 36 ≤ link then s
    else { s with service := { s.service with lanes := s.service.lanes.set link (s.service.lanes.get 0 link + 1) } })

/-- CORE_RETIRE (R20): a spare of the die takes the core's numbers; without one the core leaves its cluster, and the tasks that it ran
are killed with MCHK (R317). -/
def execCoreRetire (die core : Nat) (s : State) : Result :=
  let gid := 80 * die + core
  let used := s.service.spares.get 0 die
  .next (if 8 ≤ die ∨ 80 ≤ core ∨ (s.core gid).removed then s
    else if used < 4 then
      let s1 : State := { s with service := { s.service with spares := s.service.spares.set die (used + 1) } }
      s1.setDev 0 (setField (s.devReg 0) 24 6 (fieldN (s.devReg 0) 24 6 - 1))
    else
      let ran := (span (8 * gid) 8).map (fun sid => (s.strand sid).task)
      let s1 := ran.foldl (fun s id => if id = 0 then s else s.killTask id .mchk) s
      (s1.updCore gid (fun c => { c with removed := true })).setDev 0 (setField (s.devReg 0) 40 10 (fieldN (s.devReg 0) 40 10 - 1)))

/-- CHANNEL_RETIRE (R21, R335): firmware has moved the channel's pages. -/
def execChannelRetire (channel : Nat) (s : State) : Result :=
  .next (if 512 ≤ channel ∨ s.service.retired.contains channel then s
    else ({ s with service := { s.service with retired := insertOnce channel s.service.retired } } : State).setDev 0
      (setField (s.devReg 0) 30 10 (fieldN (s.devReg 0) 30 10 + 1)))

/-- SCRUB_PASS (R192, R193): a word is read; whether it has no error, a single-bit error, corrected and counted, or an uncorrectable
one, marked and counted, is free. -/
def execScrubPass (word : Nat) (s : State) : Result :=
  let f := s.takeFree
  .next (match f.1 % 3 with
    | 0 => f.2
    | 1 => { f.2 with telem := { s.telem with cecc := s.telem.cecc + 1 } }
    | _ => if s.poison.contains word then f.2
      else { f.2.markPoison word with telem := { s.telem with uecc := s.telem.uecc + 1 } })

/-- MODULE_REMOVAL (R170, R337): another module leaves the pod; this one leaves once every context has been stopped or saved and its
ports are drained. -/
def execModuleRemoval (module : Nat) (s : State) : Result :=
  let quiet := !s.anyRuns && s.swRed.isEmpty && s.cores.all (fun e => e.2.nq.isEmpty)
  .next (if module = s.module then (if quiet then { s with service := { s.service with removed := true } } else s)
    else if 288 ≤ module ∨ s.service.absent.contains module then s
    else { s with service := { s.service with absent := module :: s.service.absent } })

end Sys2Proof.Machine
end

