-- ==== Sys2Proof/Machine/Vector.lean ====
section
/-! DEFINITION. The V slots: the 36 vector operations (R129 to R133, R195, R288, R518 to R528). -/

namespace Sys2Proof.Machine

open Sys2Proof

/-- The bits and the count of the lanes of a type: 0 FP32, 1 FP64, 2 INT32, 3 NAT32 (R159). -/
def laneBits (ty : Nat) : Nat := if ty = 1 then 64 else 32
def laneCount (ty : Nat) : Nat := if ty = 1 then 64 else 128

namespace State

/-- The bytes of an AM row of the acting strand's core. -/
def rowAt (s : State) (row : Nat) : List Byte := s.bytesAt (rowBase (gidOf s.cur) row) 512

/-- The lanes of a row. -/
def lanesOf (s : State) (row ty : Nat) : List Nat := (chunks (laneBits ty / 8) (s.rowAt row)).map leNat

/-- The poison of the 64 words of a row (R93, R195). -/
def wordsPois (s : State) (row : Nat) : List Bool :=
  (span 0 64).map (fun w => s.poison.contains (rowBase (gidOf s.cur) row / 8 + w))

/-- A whole row landing at v + k in row d, with the poison of its words (R519). -/
def landRow (s : State) (o : VFields) (k : Nat) (bytes : List Byte) (po : List Bool) : State :=
  s.land k (.row (s.me.vrow o.d.toNat) bytes (po.foldr (fun p acc => List.replicate 8 p ++ acc) []))

/-- Lanes of a type landing as a row. -/
def landLanes (s : State) (o : VFields) (k ty : Nat) (lanes : List Nat) (po : List Bool) : State :=
  s.landRow o k (lanes.foldr (fun x acc => leBytes (laneBits ty / 8) x ++ acc) []) po

/-- Operand b: its row, or g(b) in every lane with bsel 1 (R518). -/
def lanesB (s : State) (o : VFields) : List Nat :=
  let ty := o.ty.toNat
  if o.bsel then List.replicate (laneCount ty) ((s.me.val o.b.toNat).toNat % 2 ^ laneBits ty)
  else s.lanesOf (s.me.vrow o.b.toNat) ty

def poisB (s : State) (o : VFields) : List Bool :=
  if o.bsel then List.replicate 64 (s.me.pois o.b.toNat) else s.wordsPois (s.me.vrow o.b.toNat)

end State

/-- Word-wise union of poison. -/
def orPois (a b : List Bool) : List Bool := (a.zip b).map (fun x => x.1 || x.2)

namespace State

/-- A lane-wise operation of a (R519). -/
def vec1 (s : State) (o : VFields) (k : Nat) (f : Nat → Nat) : State :=
  s.guarded o.G (fun s =>
    let a := s.me.vrow o.a.toNat
    s.landLanes o k o.ty.toNat ((s.lanesOf a o.ty.toNat).map f) (s.wordsPois a))

/-- A lane-wise operation of a and b (R519). -/
def vec2 (s : State) (o : VFields) (k : Nat) (f : Nat → Nat → Nat) : State :=
  s.guarded o.G (fun s =>
    let a := s.me.vrow o.a.toNat
    s.landLanes o k o.ty.toNat (((s.lanesOf a o.ty.toNat).zip (s.lanesB o)).map (fun x => f x.1 x.2))
      (orPois (s.wordsPois a) (s.poisB o)))

/-- A lane-wise operation of a, b and c, with one rounding for each lane where the type is a float (R129, R519). -/
def vec3 (s : State) (o : VFields) (k : Nat) (useC : Bool) (f : Rnd → Nat → Nat → Nat → Nat) : State :=
  s.guarded o.G (fun s =>
    let ty := o.ty.toNat
    let a := s.me.vrow o.a.toNat
    let c := s.me.vrow o.c.toNat
    let la := s.lanesOf a ty
    let lc := if useC then s.lanesOf c ty else la
    let po := orPois (s.wordsPois a) (s.poisB o)
    let po1 := if useC then orPois po (s.wordsPois c) else po
    let go (s1 : State) (rs : List Rnd) : State :=
      s1.landLanes o k ty ((rs.zip (la.zip ((s.lanesB o).zip lc))).map (fun x => f x.1 x.2.1 x.2.2.1 x.2.2.2)) po1
    if ty < 2 then s.roundings o.rnd.toNat false false (laneCount ty) go
    else go s (List.replicate (laneCount ty) (Rnd.rne false)))

end State

/-- The float format of a lane type. -/
def laneFmt (ty : Nat) : Fmt := if ty = 0 then Fmt.fp32 else Fmt.fp64

/-- VADD (Table 18-4). -/
def execVadd (o : VFields) (s : State) : Result :=
  .next (s.vec3 o 2 false (fun r a b _ => if o.ty.toNat < 2 then (laneFmt o.ty.toNat).add r a b else a + b))

/-- VSUB. -/
def execVsub (o : VFields) (s : State) : Result :=
  .next (s.vec3 o 2 false (fun r a b _ => if o.ty.toNat < 2 then (laneFmt o.ty.toNat).sub r a b else a + 2 ^ 32 - b))

/-- VMUL. -/
def execVmul (o : VFields) (s : State) : Result :=
  .next (s.vec3 o 2 false (fun r a b _ => if o.ty.toNat < 2 then (laneFmt o.ty.toNat).mul r a b else a * b))

/-- VFMA. -/
def execVfma (o : VFields) (s : State) : Result :=
  .next (s.vec3 o 4 true (fun r a b c => if o.ty.toNat < 2 then (laneFmt o.ty.toNat).fma r a b c else a * b + c))

/-- VFMS. -/
def execVfms (o : VFields) (s : State) : Result :=
  .next (s.vec3 o 4 true (fun r a b c => if o.ty.toNat < 2 then (laneFmt o.ty.toNat).fms r a b c else a * b + 2 ^ 32 - c))

/-- The larger of two lanes (R129, Table 18-4). -/
def laneMax (ty a b : Nat) : Nat :=
  match ty with
  | 2 => if signedN 32 a < signedN 32 b then b else a
  | 3 => if a < b then b else a
  | _ => (laneFmt ty).max a b

/-- The smaller of two lanes. -/
def laneMin (ty a b : Nat) : Nat :=
  match ty with
  | 2 => if signedN 32 b < signedN 32 a then b else a
  | 3 => if b < a then b else a
  | _ => (laneFmt ty).min a b

/-- VMAX. -/
def execVmax (o : VFields) (s : State) : Result := .next (s.vec2 o 2 (laneMax o.ty.toNat))

/-- VMIN. -/
def execVmin (o : VFields) (s : State) : Result := .next (s.vec2 o 2 (laneMin o.ty.toNat))

/-- VABS: a float's sign bit cleared; INT32 modulo 2^32; NAT32 as it is. -/
def execVabs (o : VFields) (s : State) : Result :=
  .next (s.vec1 o 2 (fun a => match o.ty.toNat with
    | 2 => if a < 2 ^ 31 then a else 2 ^ 32 - a
    | 3 => a
    | ty => a % 2 ^ (laneBits ty - 1)))

/-- VNEG: a float's sign bit inverted; an integer modulo 2^32. -/
def execVneg (o : VFields) (s : State) : Result :=
  .next (s.vec1 o 2 (fun a => if o.ty.toNat < 2 then a ^^^ 2 ^ (laneBits o.ty.toNat - 1) else 2 ^ 32 - a))

/-- VAND. -/
def execVand (o : VFields) (s : State) : Result := .next (s.vec2 o 2 (fun a b => a &&& b))

/-- VOR. -/
def execVor (o : VFields) (s : State) : Result := .next (s.vec2 o 2 (fun a b => a ||| b))

/-- VXOR. -/
def execVxor (o : VFields) (s : State) : Result := .next (s.vec2 o 2 (fun a b => a ^^^ b))

/-- VSHL: by b[4:0]. -/
def execVshl (o : VFields) (s : State) : Result := .next (s.vec2 o 2 (fun a b => a <<< (b % 32)))

/-- VSHR: arithmetic for INT32, logical for NAT32. -/
def execVshr (o : VFields) (s : State) : Result :=
  .next (s.vec2 o 2 (fun a b => if o.ty.toNat = 2 then codeN 32 (signedN 32 a >>> (b % 32)) else a >>> (b % 32)))

/-- VCMP (R521): all ones where the condition in flags holds. -/
def execVcmp (o : VFields) (s : State) : Result :=
  let ty := o.ty.toNat
  .next (s.vec2 o 2 (fun a b =>
    let t := if ty < 2 then sfCond o.flags.toNat (FVal.cmp ((laneFmt ty).read a) ((laneFmt ty).read b))
      else cmpCond 32 o.flags.toNat a b
    if t then 2 ^ laneBits ty - 1 else 0))

/-- VSEL. -/
def execVsel (o : VFields) (s : State) : Result :=
  .next (s.guarded o.G (fun s =>
    let ty := o.ty.toNat
    let a := s.me.vrow o.a.toNat
    let c := s.me.vrow o.c.toNat
    s.landLanes o 2 ty (((s.lanesOf a ty).zip ((s.lanesB o).zip (s.lanesOf c ty))).map (fun x =>
      if x.2.2 = 0 then x.2.1 else x.1)) (orPois (orPois (s.wordsPois a) (s.poisB o)) (s.wordsPois c))))

/-- VMOV. -/
def execVmov (o : VFields) (s : State) : Result := .next (s.vec1 o 2 id)

/-- The index of the poison word of a lane. -/
def laneWord (ty i : Nat) : Nat := i * laneBits ty / 64

/-- VBCAST (R521). -/
def execVbcast (o : VFields) (s : State) : Result :=
  .next (s.guarded o.G (fun s =>
    let ty := o.ty.toNat
    let n := laneCount ty
    let i := o.imm.toNat % n
    let a := s.me.vrow o.a.toNat
    if o.bsel then s.landLanes o 2 ty (s.lanesB o) (s.poisB o)
    else s.landLanes o 2 ty (List.replicate n (nth 0 (s.lanesOf a ty) i))
      (List.replicate 64 (nth false (s.wordsPois a) (laneWord ty i)))))

/-- VIOTA (R521): the lane index plus the sign-extended immediate. -/
def execViota (o : VFields) (s : State) : Result :=
  .next (s.guarded o.G (fun s =>
    let ty := o.ty.toNat
    s.landLanes o 2 ty ((span 0 (laneCount ty)).map (fun (i : Nat) =>
      let x : Int := (i : Int) + signedN 16 o.imm.toNat
      if ty < 2 then (laneFmt ty).write (Rnd.rne false) (ofInt x) else codeN 32 x)) (List.replicate 64 false)))

/-- Poison of lanes gathered into the words of a row. -/
def packPois (ty : Nat) (lanes : List Bool) : List Bool :=
  if ty = 1 then lanes else (chunks 2 lanes).map (fun l => l.any id)

/-- VPERM (R526). -/
def execVperm (o : VFields) (s : State) : Result :=
  .next (s.guarded o.G (fun s =>
    let ty := o.ty.toNat
    let n := laneCount ty
    let a := s.me.vrow o.a.toNat
    let la := s.lanesOf a ty
    let wa := s.wordsPois a
    let js := (s.lanesB o).map (fun j => j % n)
    let wb := s.poisB o
    s.landLanes o 2 ty (js.map (fun j => nth 0 la j))
      (packPois ty ((js.zip (span 0 n)).map (fun x => nth false wa (laneWord ty x.1) || nth false wb (laneWord ty x.2))))))

/-- One level of the tree of R130: neighbours added in ascending order, each with its own rounding. -/
def pairUp (f : Rnd → Nat → Nat → Nat) : List Rnd → List Nat → List Nat
  | r :: rs, a :: b :: xs => f r a b :: pairUp f rs xs
  | _, xs => xs

/-- The tree sum of R130 over the levels that remain. -/
def treeSum (f : Rnd → Nat → Nat → Nat) : Nat → List Rnd → List Nat → Nat
  | 0, _, xs => nth 0 xs 0
  | k + 1, rs, xs => treeSum f k (rs.drop (xs.length / 2)) (pairUp f rs xs)

/-- Prefix sums in ascending lane order (R130). -/
def scanSum (f : Rnd → Nat → Nat → Nat) : Nat → List Rnd → List Nat → List Nat
  | _, _, [] => []
  | _, [], _ => []
  | acc, r :: rs, x :: xs => f r acc x :: scanSum f (f r acc x) rs xs

/-- The addition of a lane type. -/
def laneAdd (ty : Nat) (r : Rnd) (a b : Nat) : Nat := if ty < 2 then (laneFmt ty).add r a b else (a + b) % 2 ^ 32

/-- A reduction into lane 0, the other lanes zero (R130). -/
def State.reduceRow (s : State) (o : VFields) (x : Nat) : State :=
  let ty := o.ty.toNat
  let a := s.me.vrow o.a.toNat
  s.landLanes o 2 ty (x :: List.replicate (laneCount ty - 1) 0) ((s.wordsPois a).any id :: List.replicate 63 false)

/-- VRSUM (R130). -/
def execVrsum (o : VFields) (s : State) : Result :=
  .next (s.guarded o.G (fun s =>
    let ty := o.ty.toNat
    let xs := s.lanesOf (s.me.vrow o.a.toNat) ty
    let go (s1 : State) (rs : List Rnd) : State := s1.reduceRow o (treeSum (laneAdd ty) 7 rs xs)
    if ty < 2 then s.roundings o.rnd.toNat false false (laneCount ty - 1) go
    else go s (List.replicate (laneCount ty - 1) (Rnd.rne false))))

/-- VRMAX (R130). -/
def execVrmax (o : VFields) (s : State) : Result :=
  .next (s.guarded o.G (fun s =>
    let xs := s.lanesOf (s.me.vrow o.a.toNat) o.ty.toNat
    s.reduceRow o (xs.foldl (laneMax o.ty.toNat) (nth 0 xs 0))))

/-- VRMIN (R130). -/
def execVrmin (o : VFields) (s : State) : Result :=
  .next (s.guarded o.G (fun s =>
    let xs := s.lanesOf (s.me.vrow o.a.toNat) o.ty.toNat
    s.reduceRow o (xs.foldl (laneMin o.ty.toNat) (nth 0 xs 0))))

/-- Poison of prefix sums: a word is poisoned when any word up to it is (R195). -/
def scanPois : Bool → List Bool → List Bool
  | _, [] => []
  | acc, p :: ps => (acc || p) :: scanPois (acc || p) ps

/-- VSCAN (R130). -/
def execVscan (o : VFields) (s : State) : Result :=
  .next (s.guarded o.G (fun s =>
    let ty := o.ty.toNat
    let a := s.me.vrow o.a.toNat
    let xs := s.lanesOf a ty
    let go (s1 : State) (rs : List Rnd) : State :=
      s1.landLanes o 2 ty (nth 0 xs 0 :: scanSum (laneAdd ty) (nth 0 xs 0) rs (xs.drop 1)) (scanPois false (s.wordsPois a))
    if ty < 2 then s.roundings o.rnd.toNat false false (laneCount ty - 1) go
    else go s (List.replicate (laneCount ty - 1) (Rnd.rne false))))

/-- The value of a lane of a vector type (R522). -/
def laneVal (ty x : Nat) : FVal :=
  match ty with
  | 0 => Fmt.fp32.read x
  | 1 => Fmt.fp64.read x
  | 2 => ofInt (signedN 32 x)
  | _ => ofInt x

/-- A value converted to a lane of a vector type (R120, R121, R522). -/
def laneCode (ty : Nat) (r : Rnd) (v : FVal) : Nat :=
  match ty with
  | 0 => Fmt.fp32.write r v
  | 1 => Fmt.fp64.write r v
  | 2 => codeN 32 (clampInt (-(2 ^ 31 : Nat)) ((2 ^ 31 : Nat) - 1) (roundToInt r v))
  | _ => (clampInt 0 ((2 ^ 32 : Nat) - 1) (roundToInt r v)).toNat

/-- VCVT (R522, Table 18-6). -/
def execVcvt (o : VFields) (s : State) : Result :=
  .next (s.guarded o.G (fun s =>
    let sty := o.ty.toNat
    let dty := o.imm.toNat % 4
    let h := o.imm.toNat / 4 % 2
    let a := s.me.vrow o.a.toNat
    let d := s.me.vrow o.d.toNat
    let xs := (s.lanesOf a sty).map (laneVal sty)
    let wa := s.wordsPois a
    if dty = 1 then
      s.landLanes o 2 1 (((xs.drop (64 * h)).take 64).map (laneCode 1 (Rnd.rne false)))
        ((span 0 64).map (fun i => nth false wa ((64 * h + i) / 2)))
    else
      s.roundings o.rnd.toNat false s.me.sat xs.length (fun s1 rs =>
        let ys := (rs.zip xs).map (fun x => laneCode dty x.1 x.2)
        if sty = 1 then
          let old := s.lanesOf d dty
          let wd := s.wordsPois d
          s1.landLanes o 2 dty (old.take (64 * h) ++ ys ++ old.drop (64 * h + 64))
            (wd.take (32 * h) ++ (chunks 2 wa).map (fun l => l.any id) ++ wd.drop (32 * h + 32))
        else s1.landLanes o 2 dty ys wa)))

/-- The words of an operand row's number that a run of its bits lies in. -/
def bitWords (lo n : Nat) : List Nat := span (lo / 64) ((lo + n - 1) / 64 - lo / 64 + 1)

/-- VDQT (R523). DESIGN CHOICE (log entry 56): under SR every one of the 128 lanes takes a draw (R519), those at or beyond K too, which
convert no element (R116). -/
def execVdqt (o : VFields) (s : State) : Result :=
  .next (s.guarded o.G (fun s =>
    let code := o.imm.toNat % 16
    let chunk := o.imm.toNat / 16 % 4
    let a := s.me.vrow o.a.toNat
    let row := leNat (s.rowAt a)
    let wa := s.wordsPois a
    s.roundings o.rnd.toNat false s.me.sat 128 (fun s1 rs =>
      let lanes := (rs.zip (span 0 128)).map (fun x =>
        let j := 128 * chunk + x.2
        if fmtK code ≤ j then (0, false)
        else
          let b := j / 32
          let v := scaled (fieldN row (8 * (192 + b)) 8) (elemVal code (rowElem code row j))
          (Fmt.fp32.write x.1 v, (bitWords (fmtBits code * j) (fmtBits code) ++ [(192 + b) / 8]).any (fun w => nth false wa w)))
      s1.landLanes o 2 0 (lanes.map (·.1)) (packPois 0 (lanes.map (·.2))))))

/-- One block quantised into an operand row held as a number, with the words it writes and whether it is poisoned (R131, R527). -/
structure QRow where
  row  : Nat
  full : List Nat
  bad  : List Nat

/-- The blocks of a chunk quantised one after another: each is its number, its lanes' values, its roundings and its poison. -/
def quantBlocks (code : Nat) : List (Nat × List FVal × List Rnd × Bool) → QRow → QRow
  | [], q => q
  | (b, xs, rs, po) :: rest, q =>
    let sc := blockScale code xs
    let w := fmtBits code
    let row := ((xs.zip rs).zip (span (32 * b) 32)).foldl (fun row x =>
      setField row (w * x.2) w (blockElem code sc x.1.2 x.1.1)) (setField q.row (8 * (192 + b)) 8 sc)
    let ws := bitWords (w * 32 * b) (w * 32)
    quantBlocks code rest ⟨row, (if w * 32 % 64 = 0 then ws else []) ++ q.full,
      (if po then (192 + b) / 8 :: ws else []) ++ q.bad⟩

/-- VQNT (R131, R527). DESIGN CHOICE (log entry 56): under SR only the lanes whose element lies below K take a draw (R116), where R519
speaks of one for each lane. -/
def execVqnt (o : VFields) (s : State) : Result :=
  .next (s.guarded o.G (fun s =>
    let code := o.imm.toNat % 16
    let chunk := o.imm.toNat / 16 % 4
    let a := s.me.vrow o.a.toNat
    let d := s.me.vrow o.d.toNat
    let n := Nat.min 128 (fmtK code - 128 * chunk)
    let xs := ((s.lanesOf a 0).take n).map Fmt.fp32.read
    let wa := s.wordsPois a
    let wd := s.wordsPois d
    s.roundings o.rnd.toNat true true n (fun s1 rs =>
      let blocks := (span 0 (n / 32)).map (fun b =>
        (4 * chunk + b, (xs.drop (32 * b)).take 32, (rs.drop (32 * b)).take 32, ((wa.drop (16 * b)).take 16).any id))
      let q := quantBlocks code blocks ⟨leNat (s.rowAt d), [], []⟩
      s1.landRow o 2 (leBytes 512 q.row)
        ((wd.zip (span 0 64)).map (fun x => q.bad.contains x.2 || (x.1 && !q.full.contains x.2))))))

/-- The order of VTOPK: a value comes before another when it is larger; a NaN is below everything (R528). -/
def topBefore (ty a b : Nat) : Bool :=
  match ty with
  | 2 => decide (signedN 32 b < signedN 32 a)
  | 3 => decide (b < a)
  | _ =>
    let x := Fmt.fp32.read a
    let y := Fmt.fp32.read b
    if x.isNan then false else if y.isNan then true else y.below x

/-- A lane put into an ordered list, after its equals. -/
def topInsert (ty : Nat) (x : Nat × Nat) : List (Nat × Nat) → List (Nat × Nat)
  | [] => [x]
  | y :: ys => if topBefore ty x.1 y.1 then x :: y :: ys else y :: topInsert ty x ys

/-- VTOPK (R528). -/
def execVtopk (o : VFields) (s : State) : Result :=
  .next (s.guarded o.G (fun s =>
    let ty := o.ty.toNat
    let k := o.imm.toNat % 128
    let n := o.imm.toNat / 256 + 1
    let a := s.me.vrow o.a.toNat
    let base := if o.bsel then (s.me.val o.b.toNat).toNat else 0
    let top := ((((s.lanesOf a ty).take n).zip (span 0 n)).foldl (fun acc x => topInsert ty x acc) []).take k
    let pad := List.replicate (64 - k) 0
    let bad := ((s.wordsPois a).take (ceilDiv n 2)).any id
    let half := (span 0 32).map (fun w => (bad && decide (2 * w < k)) || (o.bsel && s.me.pois o.b.toNat))
    s.landLanes o 2 ty (top.map (·.1) ++ pad ++ top.map (fun x => (x.2 + base) % 2 ^ 32) ++ pad) (half ++ half)))

/-- The running statistics of CONFT: the largest logit, the second largest, and the sum (R288). -/
def conftFold (r : Rnd) : List (Nat × Nat × Nat) → Nat × Nat × Nat → Nat × Nat × Nat
  | [], m => m
  | (a1, a2, x) :: rest, (m1, m2, sm) =>
    if FVal.cmp (Fmt.fp32.read a1) (Fmt.fp32.read m1) == some .gt then
      conftFold r rest (a1, Fmt.fp32.max m1 a2, Fmt.fp32.fma r sm (Fmt.fp32.exp r.ftz (Fmt.fp32.sub r m1 a1)) x)
    else
      conftFold r rest (m1, Fmt.fp32.max m2 a1, Fmt.fp32.fma r x (Fmt.fp32.exp r.ftz (Fmt.fp32.sub r a1 m1)) sm)

/-- The shards of a row: triples of lanes. -/
def shards : List Nat → List (Nat × Nat × Nat)
  | a :: b :: c :: xs => (a, b, c) :: shards xs
  | _ => []

/-- CONFT (R287 to R289). -/
def execConft (o : VFields) (s : State) : Result :=
  .next (s.guarded o.G (fun s =>
    let n := o.imm.toNat
    let a := s.me.vrow o.a.toNat
    let xs := (s.lanesOf a 0).take (3 * n)
    let r := Rnd.rne s.me.ftz
    if s.me.pois o.b.toNat || ((s.wordsPois a).take (ceilDiv (3 * n) 2)).any id then s.raise .poison
    else
      let th := Fmt.fp32.read ((s.me.val o.b.toNat).toNat % 2 ^ 32)
      let row : List Nat := if xs.any (fun x => (Fmt.fp32.read x).isNan) then List.replicate 4 Fmt.fp32.nan
        else match shards xs with
          | [] => [0, 0, 0, 0]
          | m :: rest =>
            let q := conftFold r rest m
            [q.1, q.2.1, q.2.2, if o.flags.toNat = 0 then Fmt.fp32.rcp r.ftz q.2.2 else Fmt.fp32.sub r q.1 q.2.1]
      let t := Fmt.fp32.read (nth 0 row 3)
      let pass := match FVal.cmp t th with
        | some .lt => false
        | some _ => true
        | none => false
      (s.landLanes o 2 0 (row ++ List.replicate 124 0) (List.replicate 64 false)).land 2 (.p (o.c.toNat % 16) pass)))

/-- VEXT (R524). -/
def execVext (o : VFields) (s : State) : Result :=
  .next (s.guarded o.G (fun s =>
    let ty := o.ty.toNat
    let a := s.me.vrow o.a.toNat
    let i := (if o.bsel then (s.me.val o.b.toNat).toNat % 128 else o.imm.toNat % 128) % laneCount ty
    s.land 2 (.g o.d.toNat (BitVec.ofNat 64 (nth 0 (s.lanesOf a ty) i))
      (nth false (s.wordsPois a) (laneWord ty i) || (o.bsel && s.me.pois o.b.toNat)))))

/-- VINS (R525). -/
def execVins (o : VFields) (s : State) : Result :=
  .next (s.guarded o.G (fun s =>
    let ty := o.ty.toNat
    let d := s.me.vrow o.d.toNat
    let i := o.imm.toNat % 128 % laneCount ty
    s.landLanes o 2 ty ((s.lanesOf d ty).set i ((s.me.val o.b.toNat).toNat % 2 ^ laneBits ty))
      (((s.wordsPois d).zip (span 0 64)).map (fun x =>
        if x.2 = laneWord ty i then (if ty = 1 then s.me.pois o.b.toNat else x.1 || s.me.pois o.b.toNat) else x.1))))

/-- VEXP (R133). -/
def execVexp (o : VFields) (s : State) : Result := .next (s.vec1 o 12 ((laneFmt o.ty.toNat).exp s.me.ftz))

/-- VLOG (R133). -/
def execVlog (o : VFields) (s : State) : Result := .next (s.vec1 o 12 ((laneFmt o.ty.toNat).ln s.me.ftz))

/-- VRCP (R133). -/
def execVrcp (o : VFields) (s : State) : Result := .next (s.vec1 o 12 ((laneFmt o.ty.toNat).rcp s.me.ftz))

/-- VRSQ (R133). -/
def execVrsq (o : VFields) (s : State) : Result := .next (s.vec1 o 12 ((laneFmt o.ty.toNat).rsq s.me.ftz))

/-- VTANH (R133). -/
def execVtanh (o : VFields) (s : State) : Result := .next (s.vec1 o 12 ((laneFmt o.ty.toNat).tanh s.me.ftz))

end Sys2Proof.Machine
end

