-- ==== Sys2Proof/Machine/Dispatch.lean ====
section
/-! DEFINITION. The dispatch: every constructor of Instr to its meaning. -/

namespace Sys2Proof.Machine

open Sys2Proof

/-- What an instruction does (R22, R53): one meaning per constructor. -/
def exec (i : Instr) (s : State) : Host.Outcome State Fault Refusal :=
  match i with
  | .add G w d a b => Sys2Proof.Machine.execAdd G w d a b s
  | .sub G w d a b => Sys2Proof.Machine.execSub G w d a b s
  | .mul G w d a b => Sys2Proof.Machine.execMul G w d a b s
  | .mulh G w d a b => Sys2Proof.Machine.execMulh G w d a b s
  | .mulhn G w d a b => Sys2Proof.Machine.execMulhn G w d a b s
  | .div G w d a b => Sys2Proof.Machine.execDiv G w d a b s
  | .divn G w d a b => Sys2Proof.Machine.execDivn G w d a b s
  | .rem G w d a b => Sys2Proof.Machine.execRem G w d a b s
  | .and G w d a b => Sys2Proof.Machine.execAnd G w d a b s
  | .or G w d a b => Sys2Proof.Machine.execOr G w d a b s
  | .xor G w d a b => Sys2Proof.Machine.execXor G w d a b s
  | .andn G w d a b => Sys2Proof.Machine.execAndn G w d a b s
  | .shl G w d a b => Sys2Proof.Machine.execShl G w d a b s
  | .shr G w d a b => Sys2Proof.Machine.execShr G w d a b s
  | .sar G w d a b => Sys2Proof.Machine.execSar G w d a b s
  | .rol G w d a b => Sys2Proof.Machine.execRol G w d a b s
  | .min G w d a b => Sys2Proof.Machine.execMin G w d a b s
  | .max G w d a b => Sys2Proof.Machine.execMax G w d a b s
  | .minn G w d a b => Sys2Proof.Machine.execMinn G w d a b s
  | .maxn G w d a b => Sys2Proof.Machine.execMaxn G w d a b s
  | .sel G w d a b c => Sys2Proof.Machine.execSel G w d a b c s
  | .clz G w d a => Sys2Proof.Machine.execClz G w d a s
  | .ctz G w d a => Sys2Proof.Machine.execCtz G w d a s
  | .popc G w d a => Sys2Proof.Machine.execPopc G w d a s
  | .bfx G w d a lsb width => Sys2Proof.Machine.execBfx G w d a lsb width s
  | .bfi G w d a lsb width => Sys2Proof.Machine.execBfi G w d a lsb width s
  | .sext G w d a width => Sys2Proof.Machine.execSext G w d a width s
  | .zext G w d a width => Sys2Proof.Machine.execZext G w d a width s
  | .cmp G w pd a b cond => Sys2Proof.Machine.execCmp G w pd a b cond s
  | .agen G w d a b scale => Sys2Proof.Machine.execAgen G w d a b scale s
  | .addi G w d a imm => Sys2Proof.Machine.execAddi G w d a imm s
  | .andi G w d a imm => Sys2Proof.Machine.execAndi G w d a imm s
  | .ori G w d a imm => Sys2Proof.Machine.execOri G w d a imm s
  | .xori G w d a imm => Sys2Proof.Machine.execXori G w d a imm s
  | .shli G w d a imm => Sys2Proof.Machine.execShli G w d a imm s
  | .shri G w d a imm => Sys2Proof.Machine.execShri G w d a imm s
  | .sari G w d a imm => Sys2Proof.Machine.execSari G w d a imm s
  | .movi G w d imm => Sys2Proof.Machine.execMovi G w d imm s
  | .movhi G w d sh imm => Sys2Proof.Machine.execMovhi G w d sh imm s
  | .cmpi G w pd a cond imm => Sys2Proof.Machine.execCmpi G w pd a cond imm s
  | .sfadd G d a b ty rnd => Sys2Proof.Machine.execSfadd G d a b ty rnd s
  | .sfmul G d a b ty rnd => Sys2Proof.Machine.execSfmul G d a b ty rnd s
  | .sffma G d a b ty rnd => Sys2Proof.Machine.execSffma G d a b ty rnd s
  | .sfcmp G w pd a b cond => Sys2Proof.Machine.execSfcmp G w pd a b cond s
  | .sfcvt G d a sty rnd dty => Sys2Proof.Machine.execSfcvt G d a sty rnd dty s
  | .mfc G w d num => Sys2Proof.Machine.execMfc G w d num s
  | .mtc G w a num => Sys2Proof.Machine.execMtc G w a num s
  | .br disp => Sys2Proof.Machine.execBr disp s
  | .brc G disp => Sys2Proof.Machine.execBrc G disp s
  | .brr G a => Sys2Proof.Machine.execBrr G a s
  | .call G disp => Sys2Proof.Machine.execCall G disp s
  | .callr G a => Sys2Proof.Machine.execCallr G a s
  | .ret G => Sys2Proof.Machine.execRet G s
  | .loop G level cnt len => Sys2Proof.Machine.execLoop G level cnt len s
  | .nest G level kind val addr => Sys2Proof.Machine.execNest G level kind val addr s
  | .chk G a disp => Sys2Proof.Machine.execChk G a disp s
  | .isync G => Sys2Proof.Machine.execIsync G s
  | .fmt G v => Sys2Proof.Machine.execFmt G v s
  | .trap G n => Sys2Proof.Machine.execTrap G n s
  | .sysret => Sys2Proof.Machine.execSysret s
  | .vadd o => Sys2Proof.Machine.execVadd o s
  | .vsub o => Sys2Proof.Machine.execVsub o s
  | .vmul o => Sys2Proof.Machine.execVmul o s
  | .vfma o => Sys2Proof.Machine.execVfma o s
  | .vfms o => Sys2Proof.Machine.execVfms o s
  | .vmax o => Sys2Proof.Machine.execVmax o s
  | .vmin o => Sys2Proof.Machine.execVmin o s
  | .vabs o => Sys2Proof.Machine.execVabs o s
  | .vneg o => Sys2Proof.Machine.execVneg o s
  | .vand o => Sys2Proof.Machine.execVand o s
  | .vor o => Sys2Proof.Machine.execVor o s
  | .vxor o => Sys2Proof.Machine.execVxor o s
  | .vshl o => Sys2Proof.Machine.execVshl o s
  | .vshr o => Sys2Proof.Machine.execVshr o s
  | .vcmp o => Sys2Proof.Machine.execVcmp o s
  | .vsel o => Sys2Proof.Machine.execVsel o s
  | .vmov o => Sys2Proof.Machine.execVmov o s
  | .vbcast o => Sys2Proof.Machine.execVbcast o s
  | .viota o => Sys2Proof.Machine.execViota o s
  | .vperm o => Sys2Proof.Machine.execVperm o s
  | .vrsum o => Sys2Proof.Machine.execVrsum o s
  | .vrmax o => Sys2Proof.Machine.execVrmax o s
  | .vrmin o => Sys2Proof.Machine.execVrmin o s
  | .vscan o => Sys2Proof.Machine.execVscan o s
  | .vcvt o => Sys2Proof.Machine.execVcvt o s
  | .vqnt o => Sys2Proof.Machine.execVqnt o s
  | .vdqt o => Sys2Proof.Machine.execVdqt o s
  | .vtopk o => Sys2Proof.Machine.execVtopk o s
  | .conft o => Sys2Proof.Machine.execConft o s
  | .vext o => Sys2Proof.Machine.execVext o s
  | .vins o => Sys2Proof.Machine.execVins o s
  | .vexp o => Sys2Proof.Machine.execVexp o s
  | .vlog o => Sys2Proof.Machine.execVlog o s
  | .vrcp o => Sys2Proof.Machine.execVrcp o s
  | .vrsq o => Sys2Proof.Machine.execVrsq o s
  | .vtanh o => Sys2Proof.Machine.execVtanh o s
  | .mma o => Sys2Proof.Machine.execMma o s
  | .mgv o => Sys2Proof.Machine.execMgv o s
  | .mrot o => Sys2Proof.Machine.execMrot o s
  | .mzero o => Sys2Proof.Machine.execMzero o s
  | .mdrn o => Sys2Proof.Machine.execMdrn o s
  | .mpri o => Sys2Proof.Machine.execMpri o s
  | .ld o => Sys2Proof.Machine.execLd o s
  | .ldv o => Sys2Proof.Machine.execLdv o s
  | .lds o => Sys2Proof.Machine.execLds o s
  | .lda o => Sys2Proof.Machine.execLda o s
  | .latch o => Sys2Proof.Machine.execLatch o s
  | .pref o => Sys2Proof.Machine.execPref o s
  | .ldt o => Sys2Proof.Machine.execLdt o s
  | .kvad o => Sys2Proof.Machine.execKvad o s
  | .ldx o => Sys2Proof.Machine.execLdx o s
  | .st o => Sys2Proof.Machine.execSt o s
  | .stv o => Sys2Proof.Machine.execStv o s
  | .stx o => Sys2Proof.Machine.execStx o s
  | .stl o => Sys2Proof.Machine.execStl o s
  | .stp o => Sys2Proof.Machine.execStp o s
  | .aadd o => Sys2Proof.Machine.execAadd o s
  | .amin o => Sys2Proof.Machine.execAmin o s
  | .amax o => Sys2Proof.Machine.execAmax o s
  | .aand o => Sys2Proof.Machine.execAand o s
  | .aor o => Sys2Proof.Machine.execAor o s
  | .axor o => Sys2Proof.Machine.execAxor o s
  | .axch o => Sys2Proof.Machine.execAxch o s
  | .acas o => Sys2Proof.Machine.execAcas o s
  | .radd o => Sys2Proof.Machine.execRadd o s
  | .rmax o => Sys2Proof.Machine.execRmax o s
  | .cpy o => Sys2Proof.Machine.execCpy o s
  | .cpyn o => Sys2Proof.Machine.execCpyn o s
  | .cpygo o => Sys2Proof.Machine.execCpygo o s
  | .cpyg o => Sys2Proof.Machine.execCpyg o s
  | .drain o => Sys2Proof.Machine.execDrain o s
  | .bcast o => Sys2Proof.Machine.execBcast o s
  | .mcw o => Sys2Proof.Machine.execMcw o s
  | .kvcp o => Sys2Proof.Machine.execKvcp o s
  | .pfxl o => Sys2Proof.Machine.execPfxl o s
  | .pfxi o => Sys2Proof.Machine.execPfxi o s
  | .send o => Sys2Proof.Machine.execSend o s
  | .recv o => Sys2Proof.Machine.execRecv o s
  | .recva o => Sys2Proof.Machine.execRecva o s
  | .rtr o => Sys2Proof.Machine.execRtr o s
  | .put o => Sys2Proof.Machine.execPut o s
  | .cpln o => Sys2Proof.Machine.execCpln o s
  | .knot => Sys2Proof.Machine.execKnot s
  | .waitq q n => Sys2Proof.Machine.execWaitq q n s
  | .fence scope kind => Sys2Proof.Machine.execFence scope kind s
  | .acqh a scope => Sys2Proof.Machine.execAcqh a scope s
  | .relh a scope => Sys2Proof.Machine.execRelh a scope s
  | .lock a b scope => Sys2Proof.Machine.execLock a b scope s
  | .lockTry pd a b scope => Sys2Proof.Machine.execLockTry pd a b scope s
  | .unlock a scope => Sys2Proof.Machine.execUnlock a scope s
  | .spawnNb pd a b => Sys2Proof.Machine.execSpawnNb pd a b s
  | .spawnB pd a b => Sys2Proof.Machine.execSpawnB pd a b s
  | .cancel a b q => Sys2Proof.Machine.execCancel a b q s
  | .scopeOpen pd a => Sys2Proof.Machine.execScopeOpen pd a s
  | .scopeClose => Sys2Proof.Machine.execScopeClose s
  | .sleep a imm => Sys2Proof.Machine.execSleep a imm s
  | .waitw a b scope cond => Sys2Proof.Machine.execWaitw a b scope cond s
  | .bfq a b => Sys2Proof.Machine.execBfq a b s
  | .setq q g th => Sys2Proof.Machine.execSetq q g th s
  | .gOp r => Sys2Proof.Machine.execGOp r s
  | .gLoop r => Sys2Proof.Machine.execGLoop r s
  | .gEndloop r => Sys2Proof.Machine.execGEndloop r s
  | .gBr r => Sys2Proof.Machine.execGBr r s
  | .gCall r => Sys2Proof.Machine.execGCall r s
  | .gRet r => Sys2Proof.Machine.execGRet r s
  | .gTensor r => Sys2Proof.Machine.execGTensor r s
  | .gView r => Sys2Proof.Machine.execGView r s
  | .gAlloc r => Sys2Proof.Machine.execGAlloc r s
  | .gFree r => Sys2Proof.Machine.execGFree r s
  | .gShard r => Sys2Proof.Machine.execGShard r s
  | .gSpawn r => Sys2Proof.Machine.execGSpawn r s
  | .gJoin r => Sys2Proof.Machine.execGJoin r s
  | .gScopeOpen r => Sys2Proof.Machine.execGScopeOpen r s
  | .gScopeClose r => Sys2Proof.Machine.execGScopeClose r s
  | .gCancel r => Sys2Proof.Machine.execGCancel r s
  | .gExitTest r => Sys2Proof.Machine.execGExitTest r s
  | .gExitAdv r => Sys2Proof.Machine.execGExitAdv r s
  | .gYield r => Sys2Proof.Machine.execGYield r s
  | .gSetdim r => Sys2Proof.Machine.execGSetdim r s
  | .emptyBundle => Sys2Proof.Machine.execEmptyBundle s
  | .groupStart sid => Sys2Proof.Machine.execGroupStart sid s
  | .knotDepart braid => Sys2Proof.Machine.execKnotDepart braid s
  | .sleepExpire sid => Sys2Proof.Machine.execSleepExpire sid s
  | .wordWaitRecheck sid => Sys2Proof.Machine.execWordWaitRecheck sid s
  | .lockGrant addr => Sys2Proof.Machine.execLockGrant addr s
  | .landingDataArrive sid entry => Sys2Proof.Machine.execLandingDataArrive sid entry s
  | .controlStoreFill core line => Sys2Proof.Machine.execControlStoreFill core line s
  | .translationResolve sid => Sys2Proof.Machine.execTranslationResolve sid s
  | .heldWritePerform sid => Sys2Proof.Machine.execHeldWritePerform sid s
  | .orderingEventPerform sid => Sys2Proof.Machine.execOrderingEventPerform sid s
  | .podFlushGather sid => Sys2Proof.Machine.execPodFlushGather sid s
  | .reductionApply addr count => Sys2Proof.Machine.execReductionApply addr count s
  | .matrixOpStart core => Sys2Proof.Machine.execMatrixOpStart core s
  | .matrixPassEnd core => Sys2Proof.Machine.execMatrixPassEnd core s
  | .matrixOpComplete core => Sys2Proof.Machine.execMatrixOpComplete core s
  | .mgvStart core => Sys2Proof.Machine.execMgvStart core s
  | .mgvComplete core => Sys2Proof.Machine.execMgvComplete core s
  | .copyOpStart core ch => Sys2Proof.Machine.execCopyOpStart core ch s
  | .copyBeatWrite core ch op => Sys2Proof.Machine.execCopyBeatWrite core ch op s
  | .copyOpComplete core ch op => Sys2Proof.Machine.execCopyOpComplete core ch op s
  | .drainComplete core ch => Sys2Proof.Machine.execDrainComplete core ch s
  | .transferBeat core => Sys2Proof.Machine.execTransferBeat core s
  | .putMatch core op => Sys2Proof.Machine.execPutMatch core op s
  | .rendezvousComplete core op => Sys2Proof.Machine.execRendezvousComplete core op s
  | .planEntryStart cluster launch => Sys2Proof.Machine.execPlanEntryStart cluster launch s
  | .planEntryComplete cluster launch entry => Sys2Proof.Machine.execPlanEntryComplete cluster launch entry s
  | .taskDispatch cluster => Sys2Proof.Machine.execTaskDispatch cluster s
  | .taskResume cluster => Sys2Proof.Machine.execTaskResume cluster s
  | .ageTick task => Sys2Proof.Machine.execAgeTick task s
  | .braidReservation cluster => Sys2Proof.Machine.execBraidReservation cluster s
  | .evictionMark cluster => Sys2Proof.Machine.execEvictionMark cluster s
  | .eviction task => Sys2Proof.Machine.execEviction task s
  | .ballastDispatch cluster => Sys2Proof.Machine.execBallastDispatch cluster s
  | .ballastKill task => Sys2Proof.Machine.execBallastKill task s
  | .backfillDispatch die => Sys2Proof.Machine.execBackfillDispatch die s
  | .backfillRetire task => Sys2Proof.Machine.execBackfillRetire task s
  | .taskRetire task => Sys2Proof.Machine.execTaskRetire task s
  | .recordRetire record => Sys2Proof.Machine.execRecordRetire record s
  | .terminationSample ctx => Sys2Proof.Machine.execTerminationSample ctx s
  | .terminationDeclare ctx => Sys2Proof.Machine.execTerminationDeclare ctx s
  | .weightFetch task => Sys2Proof.Machine.execWeightFetch task s
  | .stealTokenPass module count => Sys2Proof.Machine.execStealTokenPass module count s
  | .stolenTaskCompletion task => Sys2Proof.Machine.execStolenTaskCompletion task s
  | .cancelTakeEffect cancel unit => Sys2Proof.Machine.execCancelTakeEffect cancel unit s
  | .cancelComplete cancel => Sys2Proof.Machine.execCancelComplete cancel s
  | .preemptSaveComplete task => Sys2Proof.Machine.execPreemptSaveComplete task s
  | .handleRewritePerform ctx => Sys2Proof.Machine.execHandleRewritePerform ctx s
  | .allocGrant cluster => Sys2Proof.Machine.execAllocGrant cluster s
  | .yieldTimerExpire ctx => Sys2Proof.Machine.execYieldTimerExpire ctx s
  | .doorbellChange ctx => Sys2Proof.Machine.execDoorbellChange ctx s
  | .recordWaitEnd ctx => Sys2Proof.Machine.execRecordWaitEnd ctx s
  | .ctxStart ctx => Sys2Proof.Machine.execCtxStart ctx s
  | .ctxStop ctx => Sys2Proof.Machine.execCtxStop ctx s
  | .ctxPreemptKeep ctx => Sys2Proof.Machine.execCtxPreemptKeep ctx s
  | .ctxPreemptDiscard ctx => Sys2Proof.Machine.execCtxPreemptDiscard ctx s
  | .ctxcmdComplete => Sys2Proof.Machine.execCtxcmdComplete s
  | .strandcmdResume target => Sys2Proof.Machine.execStrandcmdResume target s
  | .strandcmdHandler target handler => Sys2Proof.Machine.execStrandcmdHandler target handler s
  | .strandcmdKill target => Sys2Proof.Machine.execStrandcmdKill target s
  | .strandcmdPreempt target => Sys2Proof.Machine.execStrandcmdPreempt target s
  | .spareMap die core => Sys2Proof.Machine.execSpareMap die core s
  | .tinvPage asid va size => Sys2Proof.Machine.execTinvPage asid va size s
  | .tinvAsid asid => Sys2Proof.Machine.execTinvAsid asid s
  | .tinvAll => Sys2Proof.Machine.execTinvAll s
  | .shootdownComplete => Sys2Proof.Machine.execShootdownComplete s
  | .frqheadWrite value => Sys2Proof.Machine.execFrqheadWrite value s
  | .kvPoolConfigWrite offset value => Sys2Proof.Machine.execKvPoolConfigWrite offset value s
  | .pfxvaWrite value => Sys2Proof.Machine.execPfxvaWrite value s
  | .planStoreWrite cluster offset value => Sys2Proof.Machine.execPlanStoreWrite cluster offset value s
  | .registerWrite offset value => Sys2Proof.Machine.execRegisterWrite offset value s
  | .hostAccess bar write offset value => Sys2Proof.Machine.execHostAccess bar write offset value s
  | .frameReceive port bytes => Sys2Proof.Machine.execFrameReceive port bytes s
  | .frameTransmit port => Sys2Proof.Machine.execFrameTransmit port s
  | .powerOn => Sys2Proof.Machine.execPowerOn s
  | .attestationReport nonce => Sys2Proof.Machine.execAttestationReport nonce s
  | .powerControlTick watts => Sys2Proof.Machine.execPowerControlTick watts s
  | .telemetryRecord => Sys2Proof.Machine.execTelemetryRecord s
  | .heartbeat => Sys2Proof.Machine.execHeartbeat s
  | .failover => Sys2Proof.Machine.execFailover s
  | .laneReplace link => Sys2Proof.Machine.execLaneReplace link s
  | .coreRetire die core => Sys2Proof.Machine.execCoreRetire die core s
  | .scrubPass word => Sys2Proof.Machine.execScrubPass word s
  | .uncorrectableError sid => Sys2Proof.Machine.execUncorrectableError sid s
  | .channelRetire channel => Sys2Proof.Machine.execChannelRetire channel s
  | .flashSlotSwitch die => Sys2Proof.Machine.execFlashSlotSwitch die s
  | .ptpLockChange locked => Sys2Proof.Machine.execPtpLockChange locked s
  | .hawserLinkDown link => Sys2Proof.Machine.execHawserLinkDown link s
  | .hawserLinkUp link => Sys2Proof.Machine.execHawserLinkUp link s
  | .moduleRemoval module => Sys2Proof.Machine.execModuleRemoval module s

end Sys2Proof.Machine
end

