-- ==== Sys2Proof/Machine/Run.lean ====
section
/-! DEFINITION. Who issues and what (R58, R59, R69 to R78, R314): the preparation of a strand's next bundle, the step of a slack
strand or a braid, and the splice of a cluster's cores. -/

namespace Sys2Proof.Machine

open Sys2Proof

/-- Whether a waiting strand's turn tests its group start again; the other waits end by an event of their own. -/
def Wait.retest : Wait → Bool
  | .none => true
  | .stall => true
  | .late => true
  | .counter _ _ => true
  | .queueFull => true
  | _ => false

/-- What a strand's next bundle gives (R58, R77, R314): it cannot issue now, it arrives at a knot, it traps with no slot performed,
or it issues its unperformed operations. A trap says whether a bundle was fetched, and whether it is an engine failure. -/
inductive Prep where
  | no
  | arrive
  | trap (bundle : Nat) (cls : TrapClass) (slot perf : Nat) (info : FaultInfo) (fetched fail : Bool)
  | go (bundle : Nat) (ops : List (Slot × Instr))
deriving DecidableEq, Repr

/-- The group after one more bundle (R55, R56). -/
def Group.join (g : Group) (us : List Uses) : Group :=
  let b : Group := if g.fresh then Group.new else g
  { fresh := false
    claims := b.claims
    count := b.count + 1
    writes := b.writes ++ us.foldr (fun u acc => u.writes ++ acc) []
    prods := b.prods ++ (us.foldr (fun u acc => u.prods ++ acc) []).filter (fun q => q != 0)
    sfAt := if us.any (fun u => u.special) then some b.count else b.sfAt }

namespace State

/-- Whether a strand has a running task that no pre-emption stops; in handler mode the stop waits for the handler's results (R319,
R321). -/
def mayRun (s : State) (sid : Nat) : Bool :=
  let t := s.strand sid
  let k := s.task t.task
  if s.doomedStrand sid then false
  else if isCtrl sid then t.mpc != 0
  else t.task != 0 && k.status == .running && (k.saving.isNone || (t.handler.isSome && !t.settled))

/-- A strand made to wait. -/
def waitFor (s : State) (sid : Nat) (w : Wait) : State := s.updStrand sid (fun t => { t with wait := w })

/-- A strand paused for late landing data; the late landing is counted once (R68). -/
def waitLate (s : State) (sid : Nat) : State :=
  if (s.strand sid).wait = .late then s
  else (({ s with telem := { s.telem with late := s.telem.late + 1 } } : State).waitFor sid .late)

/-- A SLEEP of a bundle at group start counts from the first attempt, whatever test fails then (R268). -/
def startTimer (s : State) (sid : Nat) (ops : List (Slot × Instr)) : State :=
  let naps := ops.any (fun o => match o.2 with
    | .sleep _ _ => true
    | _ => false)
  if naps && (s.strand sid).timer.isNone then s.updStrand sid (fun t => { t with timer := some s.now }) else s

/-- Whether the writes and reads that a member's arrival at a knot covers are done (R238): nothing of its own waits in the write queue,
no read is held, and no contribution of it stands in the switches. -/
def covered (s : State) (sid : Nat) : Bool :=
  let t := s.strand sid
  t.wq.all (fun i => !i.isWrite) && t.lb.all (fun e => !e.unread) && s.swRed.all (fun r => r.sid != sid)

/-- The group-start tests of a fresh bundle and the window test of any (R58, R77, R94, R314), after the landings of its step. -/
def testBundle (s0 s1 : State) (sid b perf : Nat) (ops : List (Slot × Instr)) : State × Prep :=
  let t := s1.strand sid
  let s := if t.grp.fresh then s0.startTimer sid ops else s0
  let window (s2 : State) : State × Prep :=
    match windowFail t ops with
    | some k => (s, .trap b .accv k perf {} true false)
    | none => (s2, .go b ops)
  if !t.grp.fresh then window s1
  else
    let g := s1.groupOf sid t b ops
    if !t.landed g.length then (s.waitLate sid, .no)
    else if !s1.groupFree sid t g then (s.waitFor sid .stall, .no)
    else if t.braid.isSome && t.pass != .done && ops.any (fun o => (usesOf t o.2).knot) then
      if s1.covered sid then (s1, .arrive) else (s.waitFor sid .stall, .no)
    else
      let s2 : State := { s1.startTimer sid ops with cur := sid }
      match ops.find? (fun o => (usesOf t o.2).wait) with
      | none => window s2
      | some o =>
        let r := s2.waitTest o.2
        if r.1 then window r.2 else (r.2, .no)

/-- A fetched or held bundle prepared (R314): an engine failure first, then the decode traps, then the tests. -/
def prepBundle (s : State) (sid b perf : Nat) : State × Prep :=
  let t := s.strand sid
  match (if t.grp.fresh then t.fails else []) with
  | f :: _ => (s, .trap b f.cls 15 perf ⟨f.fva, f.kind, f.level⟩ true true)
  | [] =>
    let s1 := (s.deliver sid).applyNest sid
    match decodeTrap (isCtrl sid) (s1.strand sid) b perf with
    | (some (c, k), _) => (s, .trap b c k perf {} true false)
    | (none, all) => s.testBundle s1 sid b perf (all.filter (fun o => !bitAt perf (9 - o.1.index)))

/-- A strand's next bundle prepared: from the replay buffer, or fetched (R44, R45). -/
def prepare (s : State) (sid : Nat) : State × Prep :=
  let t := s.strand sid
  if !s.mayRun sid || !t.wait.retest || !t.xlat.isEmpty then (s, .no)
  else if 64 ≤ (t.wq.filter WqItem.isWrite).length then (s.waitFor sid .queueFull, .no)
  else match t.replay with
  | some r => s.prepBundle sid r.bundle r.perf
  | none =>
    match s.fetch sid t.mpc with
    | .fail c va l => match (if t.grp.fresh then t.fails else []) with
      | f :: _ => (s, .trap 0 f.cls 15 0 ⟨f.fva, f.kind, f.level⟩ false true)
      | [] => (s, .trap 0 c 15 0 ⟨va, Kind.fetch.code, l⟩ false false)
    | .miss line => (({ s with telem := { s.telem with misses := s.telem.misses + 1 } } : State).waitFor sid (.fill line), .no)
    | .bundle b =>
      let s1 := if isCtrl sid then s
        else s.updCore (gidOf sid) (fun c => match c.cs.find? (fun l => l.1 == t.mpc / 8) with
          | some l => { c with cs := csTouch c.cs l.1 l.2 }
          | none => c)
      s1.prepBundle sid b 0

/-- Whether a ballast task may not execute an operation (R273). -/
def ballastBars (k : Slot) (i : Instr) : Bool :=
  match k, i with
  | .w, _ => true
  | .x, _ => true
  | .n, _ => true
  | _, .spawnNb _ _ _ => true
  | _, .spawnB _ _ _ => true
  | _, .lock _ _ _ => true
  | _, .lockTry _ _ _ _ => true
  | _, .unlock _ _ => true
  | _, .bfq _ _ => true
  | _, .cancel _ _ _ => true
  | _, .scopeOpen _ _ => true
  | _, .scopeClose => true
  | _, .latch _ => true
  | _, _ => false

/-- The operations of a bundle in the order in which the model takes them: program order (R54), but for an MFC of a token counter, which
reads what every issue of its own step leaves and so comes last (R97, R459). -/
def readLast (ops : List (Slot × Instr)) : List (Slot × Instr) :=
  let late (o : Slot × Instr) : Bool := match o.2 with
    | .mfc _ _ _ n => decide (0x080 ≤ n.toNat) && decide (n.toNat < 0x0A0)
    | _ => false
  ops.filter (fun o => !late o) ++ ops.filter late

/-- The operations of a bundle performed one after another; a killed strand performs no more (R310). -/
def runSlots (sid task : Nat) : List (Slot × Instr) → State → Result
  | [], s => .next s
  | (k, i) :: rest, s =>
    let t := s.strand sid
    if t.task ≠ task ∨ t.mpc = 0 then .next s
    else
      let s1 : State := { s with cur := sid, slot := k.index }
      let s2 := if (usesOf t i).special then s1.updCore (gidOf sid) (fun c => { c with sfu := s.now + 4 }) else s1
      if (s.task t.task).kind == .ballast && t.task != 0 && ballastBars k i then runSlots sid task rest (s2.raise .accv)
      else match exec i s2 with
        | .next s3 => runSlots sid task rest s3
        | r => r

/-- The queue entries that the bundles of a group after its open one will take: what the group takes, less what its bundles so far take
(R58). -/
def claimsAfter (s : State) (sid b : Nat) (ops : List (Slot × Instr)) : Map Nat :=
  let t := s.strand sid
  let mine (key : Nat) : Nat := groupNeed t key [ops]
  (span 0 7).map (fun key =>
    (key, (if t.grp.fresh then groupNeed t key (s.groupOf sid t b ops) else t.grp.claims.get 0 key) - mine key))

/-- A cycle in which a compute core issues counted once (Table 13-4). -/
def countIssue (s : State) (sid : Nat) : State :=
  if isCtrl sid || (s.core (gidOf sid)).issuedAt == s.now + 1 then s
  else
    let s1 := s.updCore (gidOf sid) (fun c => { c with issuedAt := s.now + 1 })
    { s1 with telem := { s1.telem with act := s1.telem.act + 1 } }

/-- A bundle opened for issue: it is the strand's bundle, takes its place in program order unless it was held (R228), and joins its
group. -/
def openBundle (s : State) (x : Nat × Prep) : State :=
  match x.2 with
  | .go b ops =>
    let fresh := (s.strand x.1).replay.isNone
    let claims := s.claimsAfter x.1 b ops
    let s1 := (s.countIssue x.1).updStrand x.1 (fun t => { t with
      bundle := b, wait := .none, replay := none, base := if fresh then s.nextId else t.base
      grp := { t.grp.join (ops.map (fun o => usesOf t o.2)) with claims := claims } })
    if fresh then { s1 with nextId := s1.nextId + 10 } else s1
  | .trap _ _ _ _ _ _ _ => s
  | .arrive => s.waitFor x.1 .knot
  | .no => s

/-- A trap before any slot (R314); a fetch that failed holds no bundle. -/
def takePrep (s : State) (sid : Nat) (p : Prep) : State :=
  match p with
  | .trap b cls slot perf info fetched fail =>
    let s1 := s.updStrand sid (fun t => { t with
      bundle := b, wait := .none, replay := none, fails := if fail then t.fails.drop 1 else t.fails })
    let s2 := s1.takeTrap sid cls 0 slot perf info true
    if fetched || (s2.strand sid).trap.isNone then s2 else s2.updStrand sid (fun t => { t with replay := none })
  | _ => s

/-- The prepared members of a gang issue, in member order. -/
def runGang : List (Nat × Prep) → State → Result
  | [], s => .next s
  | (sid, p) :: rest, s =>
    match p with
    | .go _ ops =>
      match runSlots sid (s.strand sid).task (readLast ops) s with
      | .next s1 => runGang rest s1
      | r => r
    | p => runGang rest (s.takePrep sid p)

/-- The knot of a braid departs once its step has come (R77). -/
def departKnot (s : State) (sid : Nat) : State :=
  match (s.strand sid).braid with
  | none => s
  | some b =>
    match s.braids.get? b with
    | none => s
    | some x =>
      match x.depart with
      | some d =>
        if d ≤ (s.strand sid).vcc then
          let s1 : State := { s with braids := s.braids.set b { x with depart := none } }
          x.members.foldl (fun s m => s.updStrand m (fun t => { t with wait := .none, pass := .done })) s1
        else s
      | none => s

/-- The step at which a knot departs, set when the last member arrives (R77). -/
def setDepart (s : State) (sid : Nat) : State :=
  match (s.strand sid).braid with
  | none => s
  | some b =>
    match s.braids.get? b with
    | none => s
    | some x =>
      if x.members.all (fun m => (s.strand m).wait == .knot) then
        { s with braids := s.braids.set b { x with depart := some ((s.strand sid).vcc + 2) } }
      else s

/-- The members of a gang that are not idle, prepared one after another, once the transfers timed at their step have taken effect
(R208). -/
def prepGang (s : State) (gang : List Nat) : State × List (Nat × Prep) :=
  gang.foldl (fun acc m =>
    if (acc.1.strand m).wait.idle then acc
    else
      let p := acc.1.prepare m
      (p.1, acc.2 ++ [(m, p.2)])) (gang.foldl (fun s m => s.transfers m) s, [])

/-- ONE STEP of a slack strand or of a braid (R59, R71, R72): every member that is not idle issues one bundle, or nothing happens
but the waits that the members have begun. -/
def stepGang (s : State) (sid : Nat) : Result :=
  let s0 := s.departKnot sid
  let gang := s0.gang sid
  let idle := (s0.strand sid).braid.isNone && (s0.strand sid).wait.idle
  if s0.frozen sid || idle || !s0.mayRun sid then .next (if s0.doomed.isEmpty then s0 else s0.reap)
  else
    let r := s0.prepGang gang
    if r.2.any (fun x => x.2 == .no) then .next r.1
    else
      let s1 := gang.foldl (fun s m => if (s.strand m).wait.idle then s.deliver m else s) r.1
      let s2 := r.2.foldl (fun s x => s.openBundle x) s1
      let s3 := if r.2.any (fun x => x.2 == .arrive) then s2.setDepart sid else s2
      match runGang r.2 s3 with
      | .next s4 => .next (s4.closeGang sid ((r.2.filter (fun x => match x.2 with
          | .go _ _ => true
          | _ => false)).map (·.1)))
      | r => r

end State

/-! The splice (R69, R70, R212). -/

/-- A braid that would step in a cycle: its line's key, and its members' cores with their present slots and whether they drive the
lanyard. -/
structure Drive where
  key     : Nat
  lead    : Nat
  members : List (Nat × Nat × Bool)
deriving DecidableEq, Repr

/-- The present slots of a prepared bundle, and whether it drives the lanyard. -/
def Prep.slots : Prep → Nat × Bool
  | .go b ops => (b / 4 % 1024, ops.any (fun o => match o.2 with
      | .bcast _ => true
      | _ => false))
  | _ => (0, false)

/-- Where two braids collide (R70, R212): the core of each for every collision. -/
def Drive.clash (a b : Drive) : List (Nat × Nat) :=
  let cores := a.members.filterMap (fun x =>
    (b.members.find? (fun y => y.1 == x.1 && y.2.1 &&& x.2.1 != 0)).map (fun _ => (x.1, x.1)))
  match a.members.find? (fun x => x.2.2), b.members.find? (fun x => x.2.2) with
  | some x, some y => cores ++ [(x.1, y.1)]
  | _, _ => cores

namespace State

/-- The collisions that a braid has lost on a core (R70). -/
def lostAt (s : State) (key core : Nat) : Nat :=
  match s.braids.get? key with
  | some b => b.lost.get 0 core
  | none => 0

def setLost (s : State) (key core n : Nat) : State :=
  match s.braids.get? key with
  | some b => { s with braids := s.braids.set key { b with lost := b.lost.set core n } }
  | none => s

/-- A collision won: the loser's count rises and the winner's falls to 0 (R70). -/
def winClash (s : State) (win lose : Nat) (cores : List (Nat × Nat)) : State :=
  cores.foldl (fun s p => (s.setLost win p.1 0).setLost lose p.2 (s.lostAt lose p.2 + 1)) s

/-- One more braid weighed against those that step already: the lower line wins, but for one that has lost 256 times (R70). DESIGN CHOICE
(log entry 56): a braid that has lost 256 collisions on one of the cores on which it collides in a cycle wins all its collisions of that
cycle. -/
def settle (acc : State × List Drive) (d : Drive) : State × List Drive :=
  let s := acc.1
  let against := acc.2.filter (fun c => !(c.clash d).isEmpty)
  if against.isEmpty then
    if d.members.all (fun m => decide ((acc.2.filter (fun c => c.members.any (fun x => x.1 == m.1))).length < 2)) then (s, acc.2 ++ [d])
    else acc
  else if against.any (fun c => (c.clash d).any (fun p => decide (256 ≤ s.lostAt d.key p.2))) then
    (against.foldl (fun s c => s.winClash d.key c.key (d.clash c)) s, acc.2.filter (fun c => (c.clash d).isEmpty) ++ [d])
  else (against.foldl (fun s c => s.winClash c.key d.key (c.clash d)) s, acc.2)

/-- The braid of a line prepared, if it steps in this cycle. -/
def drive (s : State) (key : Nat) : State × Option Drive :=
  match s.braids.get? key with
  | none => (s, none)
  | some b =>
    match b.members with
    | [] => (s, none)
    | lead :: _ =>
      let s0 := s.departKnot lead
      if s0.frozen lead || !s0.mayRun lead then (s0, none)
      else
        let r := s0.prepGang b.members
        if r.2.any (fun x => x.2 == .no) then (r.1, none)
        else (r.1, some ⟨key, lead, r.2.map (fun x => (gidOf x.1, (x.2.slots).1, (x.2.slots).2))⟩)

/-- The slack strands of a core that are ready, with their slots and whether they drive the lanyard (R69). -/
def readySlack (s : State) (sids : List Nat) : State × List (Nat × Nat × Bool) :=
  sids.foldl (fun acc sid =>
    let t := acc.1.strand sid
    if t.braid.isSome || t.wait.idle || acc.1.frozen sid || !acc.1.mayRun sid then acc
    else
      let p := (acc.1.transfers sid).prepare sid
      match p.2 with
      | .no => (p.1, acc.2)
      | .trap _ _ _ _ _ _ _ => (p.1.takePrep sid p.2, acc.2)
      | x => (p.1, acc.2 ++ [(sid, x.slots.1, x.slots.2)])) (s, [])

/-- The slack strands that a core issues in a cycle beside its taut strands (R69, R212), primary first; `free` says that the lanyard
is. -/
def pickSlack (s : State) (gid : Nat) (taut : List Nat) (free : Bool) (ready : List (Nat × Nat × Bool)) : Option Nat × Option Nat :=
  let ok := ready.filter (fun x => free || !x.2.2)
  let last (sid : Nat) : Nat := (s.core gid).lastPrim.get 0 sid
  let second (slots : Nat) (not : Option Nat) : Option Nat :=
    (ok.find? (fun x => some x.1 != not && x.2.1 &&& slots == 0)).map (·.1)
  match taut with
  | _ :: _ :: _ => (none, none)
  | [m] => (none, second m none)
  | [] =>
    match bestBy (fun a b => decide (last a.1 < last b.1) || (last a.1 == last b.1 && decide (a.1 < b.1))) ok with
    | none => (none, none)
    | some p => (some p.1, second p.2.1 (some p.1))

/-- The strands chosen by the cores of a cluster, core by core: the lanyard goes to the lowest core that would drive it. DESIGN CHOICE
(log entry 56): a braid member that only arrives at a knot or takes a trap in the cycle counts as its core's taut primary with no present
slot (R69), so at most one slack strand issues beside it. -/
def pickCores (s : State) (cl : Nat) (braids : List Drive) : List Nat → Bool → State × List Nat
  | [], _ => (s, [])
  | c :: cs, free =>
    let gid := 8 * cl + c
    let r := s.readySlack ((span 0 8).map (fun i => 8 * gid + i))
    let taut := braids.filterMap (fun d => (d.members.find? (fun m => m.1 == gid)).map (fun m => m.2.1))
    let p := r.1.pickSlack gid taut free r.2
    let mine := (p.1.toList ++ p.2.toList)
    let drives := r.2.any (fun x => mine.contains x.1 && x.2.2)
    let s1 := match p.1 with
      | some sid => r.1.updCore gid (fun c => { c with lastPrim := c.lastPrim.set sid (s.now + 1) })
      | none => r.1
    let rest := s1.pickCores cl braids cs (free && !drives)
    (rest.1, mine ++ rest.2)

/-- Gangs stepped one after another. -/
def stepAll : List Nat → State → Result
  | [], s => .next s
  | sid :: rest, s =>
    match s.stepGang sid with
    | .next s1 => stepAll rest s1
    | r => r

/-- ONE CORE CYCLE of a cluster's cores (R69, R70): the braids that step, and the slack strands that the splices choose. -/
def splice (s : State) (cl : Nat) : Result :=
  let r := (span 0 4).foldl (fun (acc : State × List Drive) l =>
    let d := acc.1.drive (4 * cl + l)
    match d.2 with
    | some x => settle (d.1, acc.2) x
    | none => (d.1, acc.2)) (s, [])
  let p := r.1.pickCores cl r.2 (span 0 8) (!r.2.any (fun d => d.members.any (fun m => m.2.2)))
  stepAll (r.2.map (fun d => d.lead) ++ p.2) p.1

/-- Whether a producer holds a report for a full ring (R318, R333): a report, an engine operation or record, or a kill. -/
def producerHeld (s : State) : Bool :=
  s.frqFull && (s.telem.holding || !s.frqHeld.isEmpty || s.doomed.any (fun d => d.task == 0 || State.killReported (s.task d.task)))

/-- Core cycles that pass (R43, R68, R192, R251, R269, R318, R333): how many single-bit errors the reads of these cycles correct is free. -/
def cycles (s : State) (n : Nat) : State :=
  let f := Config.freeNat s.free
  let busy := (s.cores.filter (fun e => e.2.mq.any (fun o => o.running))).length
  let s := { s with free := s.free + 1 }
  let late := (s.strands.filter (fun e => e.2.wait == .late)).length
  let ballast := (s.tasks.filter (fun e => e.2.kind == .ballast)).length
  { s.noteTime n with
    now := s.now + n
    telem := { s.telem with
      lwait := s.telem.lwait + n * late
      ballastCyc := s.telem.ballastCyc + n * ballast
      cecc := s.telem.cecc + f
      mact := s.telem.mact + n * busy
      frqhold := s.telem.frqhold + (if s.producerHeld then n else 0) } }

/-- A WALKER'S TURN (R23, R25, R357, R416): the record at GPC is read, decoded and issued. -/
def walkerTurn (s : State) (c : Nat) : Result :=
  if (s.ctx c).state ≠ 1 ∨ (s.ctx c).leaving then .next s
  else
    let s1 : State := { s with curCtx := c }
    let gpc := s1.wk.gpc
    if gpc % 32 ≠ 0 then .next (s1.walkerTrap .align 0)
    else match s1.wread gpc 32 with
      | .error e => .next (s1.walkerTrap e 0)
      | .ok w => match decodeG w with
        | some i => exec i s1
        | none => .next (s1.walkerTrap .illenc (entryField w))

/-- What the system of a control core sets outside the manual's registers (R15, R173, log entry 9): its address space and where its code
lies. -/
def setCtrl (s : State) (core asid root code : Nat) : State :=
  if 64 ≤ core then s
  else ({ s with ctrl := s.ctrl.set core (asid % 2 ^ 16, root) } : State).updCore (4096 + core) (fun c => { c with codeBase := code })

/-- A strand of a control core started at a bundle index, if it does not run (R15, log entry 9). -/
def startCtrl (s : State) (sid index : Nat) : State :=
  if isCtrl sid && decide (gidOf sid < 4096 + 64) && (s.strand sid).mpc == 0 then s.setStrand sid { Strand.idle with mpc := index % 2 ^ 16 } else s

/-- Whether a turn may be taken in recovery, where nothing runs but the port that takes an image (R325). -/
def inRecovery : Turn → Bool
  | .event (.frameReceive _ _) => true
  | .event .powerOn => true
  | .cycles _ => true
  | _ => false

/-- What a turn does. A turn that cannot be taken changes nothing. -/
def act (s : State) (turn : Turn) : Result :=
  if s.boot.phase = 2 ∧ inRecovery turn = false then .next s
  else match turn with
  | .strand sid => if (s.strand sid).braid.isSome then .next s else s.stepGang sid
  | .braid key =>
    match s.braids.get? key with
    | some b => match b.members with
      | m :: _ => s.stepGang m
      | [] => .next s
    | none => .next s
  | .splice cl => s.splice cl
  | .walker c => s.walkerTurn c
  | .cycles n => .next ((s.cycles n).reap)
  | .ctrlSpace core asid root code => .next (s.setCtrl core asid root code)
  | .ctrlStart sid index => .next (s.startCtrl sid index)
  | .flashWrite die pieces => .next (s.flashWrite die pieces)
  | .lowered id => .next (s.lowerTurn id)
  | .stageTake c => .next (s.stageTake c)
  | .event i => if i.isEvent then exec i s else .next s

/-! Placing an instruction where it is fetched next (log entry 13). -/

/-- A bundle at the bundle index that strand 0 of core 0 of cluster 0 issues next, in the microcode store and in the core's control
store; a strand with no task gets a task of context 0 that owns the whole AM. -/
def seatBundle (s : State) (bundle : Nat) : State :=
  let t := s.strand 0
  let t1 : Strand := if t.task = 0 then { Strand.idle with task := s.nextId, mpc := 0x800, amRows := 2048 }
    else { t with replay := none, wait := .none }
  let k : Task := { Task.empty with id := s.nextId, status := .running, amRows := 2048, strands := [0] }
  let s1 : State := if t.task = 0 then
      { (s.updCtx 0 (fun c => { c with state := 1 })) with tasks := s.tasks.set s.nextId k, nextId := s.nextId + 1 }
    else s
  let s2 := (s1.setStrand 0 t1).writeNat (ucodeBase s.module 0 + 64 * t1.mpc) 64 bundle
  let line := t1.mpc / 8
  let bs : List (BitVec 512) := (span 0 8).map (fun i => BitVec.ofNat 512 (s2.natAt (ucodeBase s.module 0 + 512 * line + 64 * i) 64))
  let s3 := s2.updCore 0 (fun c => { c with cs := csTouch c.cs line bs })
  { s3 with agenda := .strand 0 :: s3.agenda }

/-- A graph record at the GPC of context 0; a context that is not running is started at virtual address 2^32 with one 1 GiB page. -/
def seatRecord (s : State) (w : Nat) : State :=
  let s1 := if (s.ctx 0).state = 1 then s.vwrite (s.ctx 0).walker.troot (s.ctx 0).walker.gpc (leBytes 32 w)
    else
      let tables := ((s.writeNat 0x1000 8 0x2001).writeNat 0x2000 8 0x3001).writeNat 0x3020 8 (2 ^ 30 + 15)
      (tables.writeNat (2 ^ 30) 32 w).updCtx 0 (fun c => { c with
        state := 1, wait := .none
        walker := { Walker.idle with gpc := 2 ^ 32, gbase := 2 ^ 32, htva := 2 ^ 32 + 0x100000, troot := 0x1000 } })
  { s1 with agenda := .walker 0 :: s1.agenda }

/-- The bundle or record that a word of the opcode table stands for, placed where it is fetched next. -/
def seatWord (s : State) (nbits w : Nat) : State :=
  if 256 < nbits then s.seatBundle w
  else if 64 < nbits then s.seatRecord w
  else match (decodeTableWord nbits w).bind Instr.slot? with
    | some k => s.seatBundle (bundleOfSlot k w 0)
    | none => s.seatBundle (bundleOfSlot .s w 0)

end State

end Sys2Proof.Machine
end

