-- ==== Sys2Proof/Machine/Step.lean ====
section
/-! DEFINITION. One step of the machine: the next turn of the agenda, or, when it is empty, a turn that is free (log entry 6). -/

namespace Sys2Proof.Machine

open Sys2Proof

/-- ONE STEP (R22, R552, log entry 6): the turn at the head of the agenda is taken, and when there is none a free one. A module that
has been removed steps no more (R337). -/
def step (s : State) : Host.Outcome State Fault Refusal :=
  if s.service.removed then .fault .moduleRemoved
  else match s.agenda with
    | [] => State.act { s with free := s.free + 1 } (Config.nextTurn s.free)
    | t :: rest => State.act { s with agenda := rest } t

/-- The state with the instruction of a word stored where the next step fetches it (log entry 13). -/
def State.withFetchWord (s : State) (nbits w : Nat) : State := s.seatWord nbits w

end Sys2Proof.Machine
end

