-- ==== Sys2Proof/Safety.lean ====
section
/-! DEFINITION. What claims call a safe state, the runs of the machine, and the words that the statements are written in. -/

namespace Sys2Proof

open Sys2Proof.Machine

/-- A state is well kept when its memory has the canonical form. -/
def Safe (s : State) : Prop := Memory.wf s.mem = true

/-- A state is reached from another by steps that answer a next state. -/
inductive Reaches : State → State → Prop where
  | refl (s : State) : Reaches s s
  | step (s t u : State) (h : Machine.step s = .next t) (r : Reaches t u) : Reaches s u

namespace Spec

/-! The scalar integer mould (R88, R89, R373): the operands at the width that w selects, the result zero-extended. -/

/-- A function of two operands at 64 bits, or at 32 with w = 1 and zero-extended. -/
def both (w : Bool) (F : (n : Nat) → BitVec n → BitVec n → BitVec n) (x y : Word) : Word :=
  if w then (F 32 (x.setWidth 32) (y.setWidth 32)).setWidth 64 else F 64 x y

/-- A function of one operand at 64 bits, or at 32 with w = 1 and zero-extended. -/
def one (w : Bool) (F : (n : Nat) → BitVec n → BitVec n) (x : Word) : Word :=
  if w then (F 32 (x.setWidth 32)).setWidth 64 else F 64 x

/-- An operation of two registers: with a true guard F of g(a) and g(b) lands in g(d) at v + k with the poison of both, and nothing
else changes; with a false guard nothing does. -/
def Lands2 (mk : Guard → Bool → BitVec 6 → BitVec 6 → BitVec 6 → Instr) (k : Nat)
    (F : (n : Nat) → BitVec n → BitVec n → BitVec n) : Prop :=
  ∀ (G : Guard) (w : Bool) (d a b : BitVec 6) (s : State),
    (s.me.guard G = true → Machine.exec (mk G w d a b) s = .next (s.land k
      (.g d.toNat (both w F (s.me.val a.toNat) (s.me.val b.toNat)) (s.me.pois a.toNat || s.me.pois b.toNat)))) ∧
    (s.me.guard G = false → Machine.exec (mk G w d a b) s = .next s)

/-- An operation of one register, whose result lands at v + 1. -/
def Lands1 (i : Guard → Bool → BitVec 6 → BitVec 6 → Instr) (F : (n : Nat) → BitVec n → BitVec n) : Prop :=
  ∀ (G : Guard) (w : Bool) (d a : BitVec 6) (s : State), (i G w d a).wf = true →
    (s.me.guard G = true → Machine.exec (i G w d a) s = .next (s.land 1
      (.g d.toNat (one w F (s.me.val a.toNat)) (s.me.pois a.toNat)))) ∧
    (s.me.guard G = false → Machine.exec (i G w d a) s = .next s)

/-- A condition of Table 14-4 on two integers. -/
def holds (cond : Nat) {n : Nat} (x y : BitVec n) : Bool :=
  match cond with
  | 0 => x == y
  | 1 => x != y
  | 2 => x.slt y
  | 3 => y.sle x
  | 4 => x.sle y
  | 5 => y.slt x
  | 6 => x.ult y
  | 7 => y.ule x
  | 8 => x.ule y
  | 9 => y.ult x
  | 10 => x &&& y != 0
  | _ => x &&& y == 0

/-! Roundings (R101, R114 to R117). -/

/-- The `n` roundings that an rnd field selects, with the state that has taken their draws: none where FMTR.RND is read and reserved
(R102); under SR one draw each, else none. -/
def rounds (s : State) (rnd : Nat) (narrow sat : Bool) (n : Nat) : Option (State × List Rnd) :=
  (s.me.mode? rnd narrow).map (fun m =>
    if m = 5 then ((s.takeDraws n).2, (s.takeDraws n).1.map (fun x => ⟨5, x, sat, s.me.ftz⟩))
    else (s, List.replicate n ⟨m, 0, sat, s.me.ftz⟩))

/-- A scalar float operation: one rounding, the code in g(d) at v + 4 with the sources' poison; ILLFMT for a reserved RND. -/
def FloatLands (i : Instr) (G : Guard) (d : BitVec 6) (srcs : List (BitVec 6)) (rnd : Nat) (narrow sat : Bool) (f : Rnd → Nat)
    (s : State) : Prop :=
  (s.me.guard G = true →
    match rounds s rnd narrow sat 1 with
    | none => Machine.exec i s = .next (s.raise .illfmt)
    | some (t, rs) => ∀ r, rs = [r] → Machine.exec i s = .next (t.land 4
        (.g d.toNat (BitVec.ofNat 64 (f r)) (srcs.any (fun x => s.me.pois x.toNat))))) ∧
  (s.me.guard G = false → Machine.exec i s = .next s)

/-- The value that a float register holds: the low bits of its format (R452). -/
def floatIn (s : State) (f : Fmt) (r : BitVec 6) : FVal := f.read ((s.me.val r.toNat).toNat % 2 ^ f.width)

/-- The strand that acts, with a transfer pending that issues its target three bundles later (R65). -/
def redirected (s : State) (target depth : Nat) (push : Option Nat) (leave : Bool) : State :=
  s.updMe (fun t => { t with redirect := some ⟨t.vcc + 4, target, depth, push, leave⟩ })

/-- The target of a displacement from the transfer's own bundle index, modulo 65,536 (R374). -/
def aim (s : State) (disp : Int) : Nat := (((s.me.mpc : Int) + disp) % 65536).toNat

/-! Vector rows (R93, R159, R195, R519). -/

/-- The AM row of a vector register of the strand that acts (R93). -/
def vr (s : State) (r : BitVec 6) : Nat := (s.me.vwb + r.toNat) % 2048

/-- A lane of a row of the acting strand's core, little-endian (R159). -/
def lane (s : State) (row ty i : Nat) : Nat := s.natAt (rowBase (gidOf s.cur) row + laneBits ty / 8 * i) (laneBits ty / 8)

/-- Whether one of the 64 words of a row is poisoned (R193). -/
def badWord (s : State) (row w : Nat) : Bool := s.poison.contains (rowBase (gidOf s.cur) row / 8 + w)

/-- Operand b of a vector operation: its row's lane, or g(b) in every lane with bsel 1 (R518). -/
def laneB (s : State) (o : VFields) (i : Nat) : Nat :=
  if o.bsel then (s.me.val o.b.toNat).toNat % 2 ^ laneBits o.ty.toNat else lane s (vr s o.b) o.ty.toNat i

def badB (s : State) (o : VFields) (w : Nat) : Bool := if o.bsel then s.me.pois o.b.toNat else badWord s (vr s o.b) w

/-- Lane i of some row bytes. -/
def laneIn (bs : List Byte) (ty i : Nat) : Nat := leNat ((bs.drop (laneBits ty / 8 * i)).take (laneBits ty / 8))

/-- An instruction lands a whole row in d at v + k: its lanes of a type are f, the poison of its words is bad, and nothing else changes
but what the state `t` has changed before (the draws of SR). -/
def RowLands (i : Instr) (o : VFields) (s t : State) (k ty : Nat) (f : Nat → Nat) (bad : Nat → Bool) : Prop :=
  ∃ (bs : List Byte) (ps : List Bool), Machine.exec i s = .next (t.land k (.row (vr s o.d) bs ps)) ∧ bs.length = 512 ∧
    (∀ j, j < laneCount ty → laneIn bs ty j = f j) ∧ ps = (List.range 512).map (fun x => bad (x / 8))

/-- The same with the `n` roundings that an rnd field selects, the draws of SR in ascending lanes; ILLFMT for a reserved RND. -/
def RowRounds (i : Instr) (o : VFields) (s : State) (k ty : Nat) (narrow sat : Bool) (n : Nat) (f : (Nat → Rnd) → Nat → Nat)
    (bad : Nat → Bool) : Prop :=
  match rounds s o.rnd.toNat narrow sat n with
  | none => Machine.exec i s = .next (s.raise .illfmt)
  | some (t, rs) => RowLands i o s t k ty (f (fun j => rs.getD j (Rnd.rne false))) bad

/-- The tree sum of R130: node i of level k + 1 adds nodes 2i and 2i + 1 of level k, with a rounding of its own. -/
def treeNode (add : Rnd → Nat → Nat → Nat) (n : Nat) (rs : Nat → Rnd) (x : Nat → Nat) : Nat → Nat → Nat
  | 0, i => x i
  | k + 1, i => add (rs (n - n / 2 ^ k + i)) (treeNode add n rs x k (2 * i)) (treeNode add n rs x k (2 * i + 1))

/-- Whether a value comes before another in VTOPK's order: a larger one does, and every number before a NaN (R528). -/
def ahead (ty a b : Nat) : Bool :=
  match ty with
  | 2 => (BitVec.ofNat 32 b).slt (BitVec.ofNat 32 a)
  | 3 => decide (b < a)
  | _ => !(Fmt.fp32.read a).isNan && ((Fmt.fp32.read b).isNan || (Fmt.fp32.read b).below (Fmt.fp32.read a))

/-- The value of a lane of a vector type, and the lane that a value converts to (R121, R522). -/
def laneValue (ty x : Nat) : FVal :=
  match ty with
  | 0 => Fmt.fp32.read x
  | 1 => Fmt.fp64.read x
  | 2 => ofInt (BitVec.ofNat 32 x).toInt
  | _ => ofInt x

def laneOf (ty : Nat) (r : Rnd) (v : FVal) : Nat :=
  match ty with
  | 0 => Fmt.fp32.write r v
  | 1 => Fmt.fp64.write r v
  | 2 => (BitVec.ofInt 32 (clampInt (-2147483648) 2147483647 (roundToInt r v))).toNat
  | _ => (clampInt 0 4294967295 (roundToInt r v)).toNat

/-- One shard of CONFT's loop (R288). -/
def confStep (r : Rnd) (x : Nat → Nat) (q : Nat × Nat × Nat) (i : Nat) : Nat × Nat × Nat :=
  let f := Fmt.fp32
  let a1 := x (3 * i + 3)
  let a2 := x (3 * i + 4)
  if FVal.cmp (f.read a1) (f.read q.1) = some .gt then
    (a1, f.max q.1 a2, f.fma r q.2.2 (f.exp r.ftz (f.sub r q.1 a1)) (x (3 * i + 5)))
  else (q.1, f.max q.2.1 a1, f.fma r (x (3 * i + 5)) (f.exp r.ftz (f.sub r a1 q.1)) q.2.2)

/-! Matrix engine operations (R138, R141, R145). -/

/-- The first of some tests that fails gives the trap of an operation; where none does, it is queued. -/
def TestsThen (i : Instr) (s t : State) (tests : List (Bool × TrapClass × FaultInfo)) : Prop :=
  (∀ x, tests.find? (·.1) = some x → Machine.exec i s = .next (s.raiseAt x.2.1 x.2.2)) ∧
  (tests.any (·.1) = false → Machine.exec i s = .next t)

/-- An operation put at the end of its queue: its counter counts one more, its regions' busy counts rise, and it takes the next
identifier (R91, R141, R145). -/
def queuedMat (s : State) (op : MOp) : State :=
  let c := s.core (gidOf s.cur)
  let busy := op.regions.foldl (fun b r => b.set r (b.get 0 r + 1)) c.busy
  { s with
    nextId := s.nextId + 1
    strands := s.strands.set s.cur (s.me.produce op.prod)
    cores := s.cores.set (gidOf s.cur) (if op.kind = .mgv then { c with busy := busy, gq := c.gq ++ [op] }
      else { c with busy := busy, mq := c.mq ++ [op] }) }

/-- Whether N is valid for a tile (R138). -/
def goodN (n : Nat) : Bool := decide (n % 16 = 0 ∧ 16 ≤ n ∧ n ≤ 512)

/-- What an operation captures at its issue (R136, R137, R145). -/
def Captured (s : State) (o : MFields) (op : MOp) : Prop :=
  op.id = s.nextId ∧ op.pos = s.posId ∧ op.sid = s.cur ∧ op.task = s.me.task ∧ op.vcc = s.me.vcc ∧ op.base = (s.me.vwb + o.tile.toNat) % 2048 ∧
  op.mode = o.mode.toNat ∧ op.fmtr = s.me.fmtr ∧ op.aAddr = (s.me.val o.gA.toNat).toNat ∧
  op.bAddr = (s.me.val o.gB.toNat).toNat ∧ op.prod = o.prod.toNat ∧ op.cons = [o.c1.toNat, o.c2.toNat, o.c3.toNat] ∧
  op.prio = Nat.max s.me.prioBase s.me.inherit ∧ op.next = op.prio ∧ op.started = false ∧ op.running = false ∧ op.passes = 0 ∧ op.cut = false ∧
  op.aStride = s.me.cwn 0x102 ∧ op.bStride = s.me.cwn 0x103 ∧ op.dStride = s.me.cwn 0x104 ∧ op.ascale = s.me.cwn 0x100 ∧
  op.bscale = s.me.cwn 0x101 ∧ op.dscale = s.me.cwn 0x105 ∧ op.r = s.me.cwn 0x107

/-! Accesses (R163, R441, R505). -/

/-- A base register and a sign-extended offset, modulo 2^64. -/
def ea {n : Nat} (base : Word) (off : BitVec n) : Nat := (base + off.signExtend 64).toNat

/-- The bytes and the extension of a scalar load (Table 14-9). -/
def bytesOf (size : Nat) : Nat :=
  match size with
  | 0 => 1 | 1 => 2 | 2 => 4 | 3 => 8 | 4 => 1 | 5 => 2
  | _ => 4

def extended (size x : Nat) : Word :=
  match size with
  | 4 => (BitVec.ofNat 8 x).signExtend 64
  | 5 => (BitVec.ofNat 16 x).signExtend 64
  | 6 => (BitVec.ofNat 32 x).signExtend 64
  | _ => BitVec.ofNat 64 x

/-- The acting strand with nothing but what comes before the acting slot in its program order (R228). -/
def earlier (s : State) : Strand := s.me.before s.posId

/-- Memory as the acting strand sees it, with its own earlier queued stores in place (R232). -/
def seen (s : State) : State := s.withQueued (earlier s).wq

/-- No ordering event, atomic or held read of the strand holds a load of these places, nor, of an acquire, a store (R230, R232, R236). -/
def unheld (s : State) (a n : Nat) (ps : List (Nat × Nat)) (acq : Bool) : Prop :=
  (earlier s).heldRead (peerVa s.cur a) n = false ∧ (earlier s).behindRead ps acq = false

/-- Nothing holds a plain store of these places back (R232, R234, R236). -/
def freeWrite (s : State) (a n : Nat) (ps : List (Nat × Nat)) : Prop :=
  (earlier s).heldWrite (peerVa s.cur a) n = false ∧ (earlier s).behind ps = false ∧ s.me.pausedBefore s.slot = false

/-- A load from translated space (R177 to R179, R441, R446): served by the L1 or by a page of the translation cache its data comes
late, into a landing entry; without a translation the strand pauses. -/
def TranslatedLoad (i : Instr) (s : State) (x : Access) (vals : List (Nat × Nat) → List LandVal) : Prop :=
  let k := x.op.landing - s.me.vcc
  let sp := s.space s.cur
  let die := dieOf (gidOf s.cur)
  s.place s.cur x.addr x.size = .translated →
    (∀ ps, s.l1Places x = some ps → unheld s x.addr x.size ps x.op.acquires → Machine.exec i s = .next (s.landEntry k (vals ps) false .data)) ∧
    (s.l1Places x = none → (∃ c ∈ pageCut x.addr x.size, s.tlbHit die sp.1 c.1 = none) →
      Machine.exec i s = .next (s.updMe (fun t => { t with xlat := t.xlat ++ [x] }))) ∧
    (∀ e, s.l1Places x = none → x.addr % 65536 + x.size ≤ 65536 → s.tlbHit die sp.1 x.addr = some e → e.rd = true →
      targetFault s (isCtrl s.cur) x.op (e.pa + (x.addr - e.va)) x.size = none →
      unheld s x.addr x.size [(e.pa + (x.addr - e.va), x.size)] x.op.acquires →
      ∃ t : State, Machine.exec i s = .next (t.landEntry k (vals [(e.pa + (x.addr - e.va), x.size)]) false .data) ∧
        t.strands = s.strands ∧ t.mem = s.mem ∧ t.poison = s.poison ∧ t.nextId = s.nextId)

/-- A store to places that the strand reaches at its issue: at once where nothing of its queue comes before it and it is no release, a
bundle of a microcode store that it changes in part being noted (R46); else put in the queue (R234, R236, R507). -/
def Stores (i : Instr) (s : State) (a : Nat) (ps : List (Nat × Nat)) (bs : List Byte) (rel : Bool) (scope : Nat) : Prop :=
  ((rel && scope != 0) = false → freeWrite s a bs.length ps →
    Machine.exec i s = .next ((s.noteParts (s.writer s.cur) ps).writePieces ps bs)) ∧
  ((rel && scope != 0) = true ∨ ¬ freeWrite s a bs.length ps →
    Machine.exec i s = .next { s with
      strands := s.strands.set s.cur { s.me with
        wq := insertItem ⟨s.posId, .write (peerVa s.cur a) ps (.store bs rel scope), false⟩ s.me.wq } })

/-- An atomic or a reduction whose new value is `new` of the old one (R368 to R371): its traps; its one step at a scratchpad word, a
poisoned word being returned and left as it is; and as a release, its place in the write queue. -/
def AtomicAt (i : Instr) (o : WAFields) (s : State) (poisoned : Bool) (new : Nat → Option Nat) : Prop :=
  let a := ea (s.me.val o.base.toNat) o.off
  let n := if o.ty.toNat % 2 = 0 then 4 else 8
  let after := fun c => match (if s.poisonIn c n then none else new (s.natAt c n)) with
    | some v => s.writeNat c n v
    | none => s
  let lands := fun (k c : Nat) => if o.d = 0 then after c
    else (after c).landEntry k [.g o.d.toNat (BitVec.ofNat 64 (s.natAt c n)) (s.poisonIn c n)] true .data
  let rel := decide (2 ≤ o.order.toNat) && o.scope != 0
  (poisoned = true → Machine.exec i s = .next (s.raise .poison)) ∧
  (poisoned = false → a % n ≠ 0 → Machine.exec i s = .next (s.raiseVa .align a .atomic 0)) ∧
  (poisoned = false → a % n = 0 →
    (∀ r c, s.place s.cur a n = .am r c → Machine.exec i s = .next (s.raiseVa .accv a .atomic 0)) ∧
    (s.place s.cur a n = .none → Machine.exec i s = .next (s.raiseVa .accv a .atomic 0)) ∧
    (∀ c, s.place s.cur a n = .own c → rel = false → freeWrite s a n [(c, n)] →
      Machine.exec i s = .next (lands 6 c)) ∧
    (∀ c, s.place s.cur a n = .peer c → rel = false → freeWrite s a n [(c, n)] →
      Machine.exec i s = .next (lands 12 c)) ∧
    (∀ c, s.place s.cur a n = .own c ∨ s.place s.cur a n = .peer c → rel = true →
      ∃ t op, Machine.exec i s = .next t ∧ t.mem = s.mem ∧ t.poison = s.poison ∧ op.releases = true ∧
        ⟨s.posId, .write (peerVa s.cur a) [(c, n)] op, false⟩ ∈ t.me.wq ∧ ∀ x ∈ s.me.wq, x ∈ t.me.wq))

/-! Copy engine and communication unit operations (R199 to R203, R214). -/

/-- An operation put at the end of its channel. -/
def queuedCopy (s : State) (ch : Nat) (op : XOp) : State :=
  let c := s.core (gidOf s.cur)
  { s with
    nextId := s.nextId + 1
    strands := s.strands.set s.cur (s.me.produce op.prod)
    cores := s.cores.set (gidOf s.cur) { c with chans := c.chans.set ch (c.chans.get [] ch ++ [op]) } }

/-- What an operation of a channel captures at its issue. -/
def CapturedCopy (s : State) (o : XFields) (op : XOp) : Prop :=
  op.id = s.nextId ∧ op.pos = s.posId ∧ op.sid = s.cur ∧ op.task = s.me.task ∧ op.vcc = s.me.vcc ∧ op.a1 = s.me.val o.g1.toNat ∧
  op.a2 = s.me.val o.g2.toNat ∧ op.a3 = s.me.val o.g3.toNat ∧ op.prod = o.prod.toNat ∧
  op.cons = [o.c1.toNat, o.c2.toNat, o.c3.toNat] ∧ op.started = false ∧ op.next = 0 ∧ op.written = 0 ∧ op.places = none ∧
  op.carry = [] ∧ op.fail = none ∧ op.cut = false

/-- An operation put at the end of its communication unit. -/
def queuedComm (s : State) (op : NOp) : State :=
  let c := s.core (gidOf s.cur)
  { s with
    nextId := s.nextId + 1
    strands := s.strands.set s.cur (s.me.produce op.prod)
    cores := s.cores.set (gidOf s.cur) { c with nq := c.nq ++ [op] } }

/-- What an operation of the communication unit captures at its issue. -/
def CapturedComm (s : State) (o : NFields) (op : NOp) : Prop :=
  op.id = s.nextId ∧ op.pos = s.posId ∧ op.sid = s.cur ∧ op.task = s.me.task ∧ op.issued = s.me.vcc ∧ op.peer = o.peer.toNat ∧ op.tag = o.tag.toNat ∧
  op.addr = (s.me.val o.g1.toNat).toNat ∧ op.len = (s.me.val o.g2.toNat).toNat ∧ op.key = (s.me.val o.g3.toNat).toNat ∧
  op.bases = [s.me.val o.g1.toNat, s.me.val o.g2.toNat, s.me.val o.g3.toNat] ∧ op.prod = o.prod.toNat ∧ op.cons = o.cons.toNat ∧
  op.beats = 0 ∧ op.post = none ∧ op.cut = false

/-! Graph records (R24, R25, R416). -/

/-- The context that the acting walker walks, once its record is over: the walker is w but for GPC, which moves on by a number of
records. -/
def recordOver (s : State) (w : Walker) (disp : Int) : State :=
  { s with ctxs := s.ctxs.set s.curCtx { s.ctx s.curCtx with
      state := 1, wait := .none, progress := 0, issued := 0
      walker := { w with gpc := (((w.gpc : Int) + 32 * disp) % 2 ^ 64).toNat } } }

/-- The context waits at its record, which the walker decodes again later. -/
def recordWaits (s : State) (x : CtxWait) : State :=
  { s with ctxs := s.ctxs.set s.curCtx { s.ctx s.curCtx with state := 2, wait := x } }

/-- The two dimension registers that a record names (Table 16-1), and a register read and written (R24). -/
def dimA (r : GFields) : Nat := r.spec16.toNat % 64
def dimB (r : GFields) : Nat := r.spec16.toNat / 64 % 64
def dimOf (s : State) (n : Nat) : Nat := (s.wk.d.get 0 n).toNat
def withDim (w : Walker) (n v : Nat) : Walker := { w with d := w.d.set n (BitVec.ofNat 64 v) }

/-- Whether work that a record of the context made is left: an operator record, or a backfill job (R425). -/
def workLeft (s : State) : Prop :=
  (∃ e ∈ s.records, e.2.ctx = s.curCtx) ∨ ∃ e ∈ s.tasks, e.2.ctx = s.curCtx ∧ e.2.kind = .backfill

end Spec

end Sys2Proof
end

