-- ==== Sys2Proof/Certificates/Slice0/Obligations.lean ====
section
/-! DEFINITION. The statements for the provers, from the numbered rules of the spec. -/

open Sys2Proof Sys2Proof.Machine Sys2Proof.Spec

/-- R379, R380, R514, R469, R470, R471, R381: sums, differences, products and scaled addresses, modulo the width. Beside it: R411,
R412, R485, R134: quotients and remainders, with the cases of a zero divisor and of the most negative dividend. -/
def Obligations.ScalarArithmetic : Prop :=
  (Lands2 .add 1 (fun _ x y => x + y) ∧
  Lands2 .sub 1 (fun _ x y => x - y) ∧
  Lands2 .mul 3 (fun _ x y => x * y) ∧
  Lands2 .mulh 3 (fun n x y => (x.signExtend (2 * n) * y.signExtend (2 * n)).extractLsb' n n) ∧
  Lands2 .mulhn 3 (fun n x y => (x.setWidth (2 * n) * y.setWidth (2 * n)).extractLsb' n n) ∧
  ∀ c : BitVec 2, Lands2 (fun G w d a b => .agen G w d a b c) 1 (fun _ x y => x + y <<< c.toNat)) ∧
  (Lands2 .div 20 (fun n x y => if y = 0 then BitVec.allOnes n else x.sdiv y) ∧
  Lands2 .divn 20 (fun n x y => if y = 0 then BitVec.allOnes n else x / y) ∧
  Lands2 .rem 20 (fun _ x y => if y = 0 then x else x.srem y)) ∧
  ∀ m : BitVec 16, Lands1 (fun G w d a => .addi G w d a m) (fun n x => x + m.signExtend n)

/-- R384, R474, R531, R386, R502, R490, R488: bitwise operations, shifts and the rotation, by the amount modulo the width.
Beside it: R461, R455, R462, R456, R493: the smaller and the larger, signed and unsigned, and SEL, whose predicate is read at
its step. -/
def Obligations.ScalarBitsAndSelections : Prop :=
  (Lands2 .and 1 (fun _ x y => x &&& y) ∧
  Lands2 .or 1 (fun _ x y => x ||| y) ∧
  Lands2 .xor 1 (fun _ x y => x ^^^ y) ∧
  Lands2 .andn 1 (fun _ x y => x &&& ~~~y) ∧
  Lands2 .shl 1 (fun n x y => x <<< (y.toNat % n)) ∧
  Lands2 .shr 1 (fun n x y => x >>> (y.toNat % n)) ∧
  Lands2 .sar 1 (fun n x y => x.sshiftRight (y.toNat % n)) ∧
  Lands2 .rol 1 (fun n x y => x.rotateLeft (y.toNat % n))) ∧
  (Lands2 .min 1 (fun _ x y => if x.sle y then x else y) ∧
  Lands2 .max 1 (fun _ x y => if y.sle x then x else y) ∧
  Lands2 .minn 1 (fun _ x y => if x.ule y then x else y) ∧
  Lands2 .maxn 1 (fun _ x y => if y.ule x then x else y) ∧
  ∀ (G : Guard) (w : Bool) (d a b : BitVec 6) (c : BitVec 4) (s : State),
    (s.me.guard G = true → exec (.sel G w d a b c) s = .next (s.land 1
      (.g d.toNat (both w (fun _ x y => if s.me.pred c.toNat then x else y) (s.me.val a.toNat) (s.me.val b.toNat))
        (s.me.pois a.toNat || s.me.pois b.toNat)))) ∧
    (s.me.guard G = false → exec (.sel G w d a b c) s = .next s))

/-- R401, R410, R478, R393, R391, R496, R532: counts of bits, fields and extensions; a width of 0 means 64, or 32 with w = 1
for the extensions. Beside it: R385, R475, R531, R502, R491, R465, R464: the other immediate forms. -/
def Obligations.ScalarFieldsAndImmediates : Prop :=
  (Lands1 .clz (fun _ x => x.clz) ∧
  Lands1 .ctz (fun _ x => x.ctz) ∧
  Lands1 .popc (fun _ x => x.cpop) ∧
  (∀ l m : BitVec 6, Lands1 (fun G w d a => .bfx G w d a l m)
    (fun n x => x >>> l.toNat &&& (BitVec.ofNat n (2 ^ (if m = 0 then 64 else m.toNat) - 1)))) ∧
  (∀ m : BitVec 6, Lands1 (fun G w d a => .sext G w d a m)
    (fun n x => (x.setWidth (if m = 0 then n else m.toNat)).signExtend n)) ∧
  (∀ m : BitVec 6, Lands1 (fun G w d a => .zext G w d a m)
    (fun n x => (x.setWidth (if m = 0 then n else m.toNat)).setWidth n)) ∧
  ∀ (G : Guard) (w : Bool) (d a l m : BitVec 6) (s : State), (Instr.bfi G w d a l m).wf = true →
    (s.me.guard G = true → exec (.bfi G w d a l m) s = .next (s.land 1
      (.g d.toNat (both w (fun n x y =>
          let M := BitVec.ofNat n (2 ^ (if m = 0 then 64 else m.toNat) - 1)
          (x &&& ~~~(M <<< l.toNat)) ||| ((y &&& M) <<< l.toNat)) (s.me.val d.toNat) (s.me.val a.toNat))
        (s.me.pois d.toNat || s.me.pois a.toNat)))) ∧
    (s.me.guard G = false → exec (.bfi G w d a l m) s = .next s)) ∧
  ((∀ m : BitVec 16, Lands1 (fun G w d a => .andi G w d a m) (fun n x => x &&& m.setWidth n)) ∧
  (∀ m : BitVec 16, Lands1 (fun G w d a => .ori G w d a m) (fun n x => x ||| m.setWidth n)) ∧
  (∀ m : BitVec 16, Lands1 (fun G w d a => .xori G w d a m) (fun n x => x ^^^ m.setWidth n)) ∧
  (∀ m : BitVec 16, Lands1 (fun G w d a => .shli G w d a m) (fun _ x => x <<< m.toNat)) ∧
  (∀ m : BitVec 16, Lands1 (fun G w d a => .shri G w d a m) (fun _ x => x >>> m.toNat)) ∧
  (∀ m : BitVec 16, Lands1 (fun G w d a => .sari G w d a m) (fun _ x => x.sshiftRight m.toNat)) ∧
  (∀ (G : Guard) (w : Bool) (d : BitVec 6) (m : BitVec 16) (s : State),
    (s.me.guard G = true → exec (.movi G w d m) s = .next (s.land 1 (.g d.toNat (m.setWidth 64) false))) ∧
    (s.me.guard G = false → exec (.movi G w d m) s = .next s)) ∧
  (∀ (G : Guard) (w : Bool) (d : BitVec 6) (c : BitVec 2) (m : BitVec 16) (s : State), (Instr.movhi G w d c m).wf = true →
    (s.me.guard G = true → exec (.movhi G w d c m) s = .next (s.land 1
      (.g d.toNat (one w (fun n x => (x &&& ~~~((0xFFFF#16).setWidth n <<< (16 * c.toNat))) |||
          (m.setWidth n <<< (16 * c.toNat))) (s.me.val d.toNat)) (s.me.pois d.toNat)))) ∧
    (s.me.guard G = false → exec (.movhi G w d c m) s = .next s)))

/-- R402, R403, Table 14-4: a compare lands its condition in its predicate at v + 1, or traps on a poisoned source. -/
def Obligations.Compares : Prop :=
  ∀ (G : Guard) (w : Bool) (pd : BitVec 4) (a b : BitVec 6) (c : BitVec 4) (m : BitVec 16) (s : State), c.toNat < 12 →
    (s.me.guard G = true → s.me.pois a.toNat = false → s.me.pois b.toNat = false →
      exec (.cmp G w pd a b c) s = .next (s.land 1 (.p pd.toNat
        (if w then holds c.toNat ((s.me.val a.toNat).setWidth 32) ((s.me.val b.toNat).setWidth 32)
          else holds c.toNat (s.me.val a.toNat) (s.me.val b.toNat))))) ∧
    (s.me.guard G = true → s.me.pois a.toNat = false →
      exec (.cmpi G w pd a c m) s = .next (s.land 1 (.p pd.toNat
        (if w then holds c.toNat ((s.me.val a.toNat).setWidth 32) (m.signExtend 32)
          else holds c.toNat (s.me.val a.toNat) (m.signExtend 64))))) ∧
    (s.me.guard G = true → (s.me.pois a.toNat || s.me.pois b.toNat) = true → exec (.cmp G w pd a b c) s = .next (s.raise .poison)) ∧
    (s.me.guard G = true → s.me.pois a.toNat = true → exec (.cmpi G w pd a c m) s = .next (s.raise .poison)) ∧
    (s.me.guard G = false → exec (.cmp G w pd a b c) s = .next s ∧ exec (.cmpi G w pd a c m) s = .next s)

/-- R459, R96, R97: MFC lands the register's value at its step with poison clear: the clock, the format register, the bundle
index, a token counter, a nest level, and a register that software writes. Beside it: R468, R62, Table 4-4: MTC's value, with
the bits the register has, lands at v + 2; a poisoned source traps. Beside it: R100, R415, R46, R436: FMT lands the whole
format register at v + 4; ISYNC empties the core's control store, and a control core's instruction cache. -/
def Obligations.ControlRegistersAndFormats : Prop :=
  ((∀ (G : Guard) (w : Bool) (d : BitVec 6) (n : BitVec 12) (s : State),
    (s.me.guard G = false → exec (.mfc G w d n) s = .next s) ∧
    (s.me.guard G = true → ∃ v : Word, exec (.mfc G w d n) s = .next (s.land 1 (.g d.toNat (one w (fun _ x => x) v) false)) ∧
      (n.toNat = 0x001 → v = BitVec.ofNat 64 s.me.vcc) ∧
      (n.toNat = 0x004 → v = BitVec.ofNat 64 s.me.scopeId) ∧
      (n.toNat = 0x007 → v = s.me.fmtr.setWidth 64) ∧
      (n.toNat = 0x011 → v = s.me.trapRec) ∧
      (n.toNat = 0x012 → v = BitVec.ofNat 64 s.me.mpc) ∧
      (n.toNat = 0x020 → v = BitVec.ofNat 64 (32 - s.me.lb.length)) ∧
      (∀ q, q < 32 → n.toNat = 0x080 + q →
        v = BitVec.ofNat 64 ((s.me.tok q).outst + 256 * (s.me.tok q).thresh + 65536 * (s.me.tok q).canc.toNat)) ∧
      (∀ l, l < 6 → n.toNat = 0x040 + l → v = BitVec.ofNat 64 ((s.me.level l).counter + 2 ^ 32 * (s.me.level l).trip)) ∧
      (cregWritable n = true → n.toNat ≠ 0x030 → v = s.me.cw n.toNat))) ∧
  (∀ (G : Guard) (w : Bool) (a : BitVec 6) (n : BitVec 12) (s : State), cregWritable n = true →
    let x := one w (fun _ x => x) (s.me.val a.toNat)
    (s.me.guard G = false → exec (.mtc G w a n) s = .next s) ∧
    (s.me.guard G = true → s.me.pois a.toNat = true → exec (.mtc G w a n) s = .next (s.raise .poison)) ∧
    (s.me.guard G = true → s.me.pois a.toNat = false → ∃ v : Word, exec (.mtc G w a n) s = .next (s.land 2 (.creg n.toNat v)) ∧
      ((n.toNat = 0x005 ∨ n.toNat = 0x102 ∨ n.toNat = 0x103 ∨ n.toNat = 0x104 ∨ n.toNat = 0x106) → v = x &&& 0xFFFFFFFF) ∧
      (n.toNat = 0x006 → v = x &&& 0x7FF) ∧
      (n.toNat = 0x008 → v = x &&& 1) ∧
      (n.toNat = 0x009 → v = x &&& ~~~0x3F) ∧
      ((n.toNat = 0x010 ∨ n.toNat = 0x107) → v = x &&& 0xFFFF) ∧
      (n.toNat = 0x030 → v = x &&& 0xF) ∧
      (n.toNat = 0x046 → v = x &&& 0x7F) ∧
      ((n.toNat = 0x100 ∨ n.toNat = 0x101 ∨ n.toNat = 0x105) → v = x &&& 0xFF)))) ∧
  (∀ (G : Guard) (v : BitVec 21) (s : State),
    (s.me.guard G = true → exec (.fmt G v) s = .next (s.land 4 (.fmtr v)) ∧
      ∃ t, exec (.isync G) s = .next t ∧ (t.core (gidOf s.cur)).cs = [] ∧ (t.core (gidOf s.cur)).icache = [] ∧ t.strands = s.strands ∧ t.mem = s.mem ∧
        (∀ g, g ≠ gidOf s.cur → t.core g = s.core g) ∧
        t.core (gidOf s.cur) = { s.core (gidOf s.cur) with cs := [], icache := [] }) ∧
    (s.me.guard G = false → exec (.fmt G v) s = .next s ∧ exec (.isync G) s = .next s))

/-- R452, R497, R500, R501, R122: scalar sums, products and fused sums of products, the exact result rounded once. Beside it:
R498, R499, R344, R121: SFCMP by the order of its operands, and SFCVT between the float and integer types. -/
def Obligations.ScalarFloats : Prop :=
  (∀ (G : Guard) (d a b : BitVec 6) (ty : BitVec 2) (rnd : BitVec 3) (s : State),
    let f := if ty.toNat = 0 then Fmt.fp32 else Fmt.fp64
    FloatLands (.sfadd G d a b ty rnd) G d [a, b] rnd.toNat false false
      (fun r => f.write r (FVal.sum (r.mode == 3) [floatIn s f a, floatIn s f b])) s ∧
    FloatLands (.sfmul G d a b ty rnd) G d [a, b] rnd.toNat false false
      (fun r => f.write r ((floatIn s f a).mul (floatIn s f b))) s ∧
    FloatLands (.sffma G d a b ty rnd) G d [a, b, d] rnd.toNat false false
      (fun r => f.write r (FVal.sum (r.mode == 3) [(floatIn s f a).mul (floatIn s f b), floatIn s f d])) s) ∧
  ((∀ (G : Guard) (w : Bool) (pd : BitVec 4) (a b : BitVec 6) (c : BitVec 4) (s : State),
    let f := if w then Fmt.fp32 else Fmt.fp64
    (s.me.guard G = true → s.me.pois a.toNat = false → s.me.pois b.toNat = false →
      exec (.sfcmp G w pd a b c) s = .next (s.land 4 (.p pd.toNat (sfCond c.toNat (FVal.cmp (floatIn s f a) (floatIn s f b)))))) ∧
    (s.me.guard G = true → (s.me.pois a.toNat || s.me.pois b.toNat) = true →
      exec (.sfcmp G w pd a b c) s = .next (s.raise .poison)) ∧
    (s.me.guard G = false → exec (.sfcmp G w pd a b c) s = .next s)) ∧
  (∀ (G : Guard) (d a : BitVec 6) (sty : BitVec 2) (rnd dty : BitVec 3) (s : State), dty.toNat < 6 →
    let x : FVal := match sty.toNat with
      | 0 => floatIn s Fmt.fp32 a
      | 1 => floatIn s Fmt.fp64 a
      | 2 => ofInt (s.me.val a.toNat).toInt
      | _ => ofInt ((s.me.val a.toNat).toNat : Int)
    FloatLands (.sfcvt G d a sty rnd dty) G d [a] rnd.toNat (decide (4 ≤ dty.toNat)) (s.me.sat && !(sty.toNat == 0 && dty.toNat == 1))
      (fun r => match dty.toNat with
        | 0 => Fmt.fp32.write r x
        | 1 => Fmt.fp64.write r x
        | 2 => (BitVec.ofInt 64 (clampInt (-9223372036854775808) 9223372036854775807 (roundToInt r x))).toNat
        | 3 => (clampInt 0 18446744073709551615 (roundToInt r x)).toNat
        | 4 => Fmt.bf16.write r x
        | _ => Fmt.fp16.write r x) s))

/-- R107, R114, R120: a code that is no NaN reads as a value that every rounding writes back as that code, where subnormals are not
flushed and infinities not saturated. -/
def Obligations.FloatCodesWriteBack : Prop :=
  ∀ f ∈ [Fmt.fp64, Fmt.fp32, Fmt.bf16, Fmt.fp16, Fmt.e5m2, Fmt.e4m3], ∀ (r : Rnd) (c : Nat),
    r.ftz = false → r.sat = false → c < 2 ^ f.width → (f.read c).isNan = false → f.write r (f.read c) = c

/-- R394 to R398, R374, R65: a taken transfer issues its target at v + 4; a call pushes the index after its delay slots.
Beside it: R486, R198, R39, R316: RET returns to the index on top of the return stack, or ends the microprogram; CHK
transfers for a poisoned register only. Beside it: R65, R374, R59: a bundle that closes moves its strand on by one step: past
its delay slots, or to the target of a transfer that is due, whose call depth and return stack take effect there. -/
def Obligations.ControlTransfers : Prop :=
  ((∀ (G : Guard) (disp : BitVec 21) (a : BitVec 6) (s : State),
    let x := s.me.val a.toNat
    let back := some ((s.me.mpc + 4) % 65536)
    exec (.br disp) s = .next (redirected s (aim s disp.toInt) s.me.depth none true) ∧
    (s.me.guard G = true →
      exec (.brc G disp) s = .next (redirected s (aim s disp.toInt) s.me.depth none true) ∧
      (s.me.depth < 15 → exec (.call G disp) s = .next (redirected s (aim s disp.toInt) (s.me.depth + 1) back false)) ∧
      (15 ≤ s.me.depth → exec (.call G disp) s = .next (s.raise .accv)) ∧
      (s.me.pois a.toNat = true → exec (.brr G a) s = .next (s.raise .poison) ∧ exec (.callr G a) s = .next (s.raise .poison)) ∧
      (s.me.pois a.toNat = false → 65536 ≤ x.toNat →
        exec (.brr G a) s = .next (s.raise .illshape) ∧ exec (.callr G a) s = .next (s.raise .illshape)) ∧
      (s.me.pois a.toNat = false → x.toNat < 65536 →
        exec (.brr G a) s = .next (redirected s x.toNat s.me.depth none true) ∧
        (s.me.depth < 15 → exec (.callr G a) s = .next (redirected s x.toNat (s.me.depth + 1) back false)) ∧
        (15 ≤ s.me.depth → exec (.callr G a) s = .next (s.raise .accv)))) ∧
    (s.me.guard G = false →
      exec (.brc G disp) s = .next s ∧ exec (.brr G a) s = .next s ∧ exec (.call G disp) s = .next s ∧ exec (.callr G a) s = .next s)) ∧
  (∀ (G : Guard) (disp : BitVec 15) (a : BitVec 6) (s : State),
    (s.me.guard G = true →
      (∀ i rest, 0 < s.me.depth → s.me.rstack = i :: rest → i < 65536 →
        exec (.ret G) s = .next (redirected s i (s.me.depth - 1) none false)) ∧
      (s.me.depth = 0 → s.me.handler = none → ∃ t, exec (.ret G) s = .next (s.updMe (fun _ => t)) ∧ t.ending = true ∧
        (∀ l, (t.level l).active = false) ∧ t.vcc = s.me.vcc ∧ (∀ r, t.reg r = s.me.reg r) ∧ t.nestUpd = s.me.nestUpd) ∧
      (s.me.depth = 0 → s.me.handler.isSome = true → exec (.ret G) s = .next s.raiseFree) ∧
      (s.me.pois a.toNat = true → exec (.chk G a disp) s = .next (redirected s (aim s disp.toInt) s.me.depth none true)) ∧
      (s.me.pois a.toNat = false → exec (.chk G a disp) s = .next s)) ∧
    (s.me.guard G = false → exec (.ret G) s = .next s ∧ exec (.chk G a disp) s = .next s))) ∧
  (∀ (t : Strand) (stop : Bool) (r : Redirect), t.redirect = some r →
    (t.vcc + 1 < r.due → (t.nextBundle stop).mpc = (t.mpc + 1) % 65536 ∧ (t.nextBundle stop).redirect = some r ∧
      (t.nextBundle stop).depth = t.depth ∧ (t.nextBundle stop).rstack = t.rstack) ∧
    (r.due ≤ t.vcc + 1 → (t.nextBundle stop).mpc = r.target ∧ (t.nextBundle stop).redirect = none ∧
      (t.nextBundle stop).depth = r.depth ∧ (t.nextBundle stop).grp.fresh = true ∧
      (∀ i, r.push = some i → (t.nextBundle stop).rstack = i :: t.rstack) ∧
      (r.push = none → r.depth + 1 = t.depth → (t.nextBundle stop).rstack = t.rstack.drop 1) ∧
      (r.push = none → r.depth = t.depth → (t.nextBundle stop).rstack = t.rstack)) ∧
    (t.nextBundle stop).vcc = t.vcc + 1 ∧ (∀ n, (t.nextBundle stop).reg n = t.reg n) ∧ (∀ n, (t.nextBundle stop).pred n = t.pred n) ∧
    (∀ n, (t.nextBundle stop).tok n = t.tok n))

/-- R81: LOOP starts an idle level on the bundles that follow it, with the count of its register, or with the length binding's. Beside it:
R80, Table 3-7: NEST appends an attachment to an idle level, or clears them; a fifth attachment, or a second length binding, is ILLENC,
and so is a NEST to an active level. Beside it: R82: at the end of an iteration of the only level that ends there, the next bundle is
the body's first, or the one after it; the increments are added at the next step, and on completion the rewinds after them. That a
rewind clears poison is the model's choice (log entry 53). -/
def Obligations.NestLevels : Prop :=
  ((∀ (G : Guard) (level : BitVec 3) (cnt : BitVec 6) (len : BitVec 12) (s : State),
    let n := s.me.level level.toNat
    (s.me.guard G = false → exec (.loop G level cnt len) s = .next s) ∧
    (s.me.guard G = true → s.me.handler = none → n.active = false → ∀ trip,
      (n.binding = none ∧ s.me.pois cnt.toNat = false ∧ trip = (s.me.val cnt.toNat).toNat % 2 ^ 32) ∨
      (∃ b : Word, n.binding = some b ∧ 0 < b.toNat ∧ trip = ((s.me.cw 0x005).toNat + b.toNat - 1) / b.toNat) →
      (0 < trip →
        ∃ t m, exec (.loop G level cnt len) s = .next (s.updMe (fun _ => t)) ∧ t.level level.toNat = m ∧ m.active = true ∧
          m.trip = trip ∧ m.counter = 0 ∧ m.start = (s.me.mpc + 1) % 65536 ∧ m.stop = (s.me.mpc + len.toNat) % 65536 ∧
          m.depth = s.me.depth ∧ m.atts = n.atts ∧ m.saved = n.atts.map (fun a => s.me.val a.addr) ∧
          (∀ k, k ≠ level.toNat → t.level k = s.me.level k) ∧ (∀ r, t.reg r = s.me.reg r) ∧ t.mpc = s.me.mpc ∧ t.vcc = s.me.vcc) ∧
      (trip = 0 → exec (.loop G level cnt len) s = .next (s.updMe (fun t =>
        { t with redirect := some ⟨t.vcc + 1, (t.mpc + 1 + len.toNat) % 65536, t.depth, none, false⟩ })))) ∧
    (s.me.guard G = true → s.me.handler = none → n.binding = some 0 → n.active = false →
      exec (.loop G level cnt len) s = .next (s.raise .illshape)) ∧
    (s.me.guard G = true → s.me.handler = none → n.binding = none → s.me.pois cnt.toNat = true →
      exec (.loop G level cnt len) s = .next (s.raise .poison)) ∧
    (s.me.guard G = true → s.me.handler = none → n.binding = none → s.me.pois cnt.toNat = false → n.active = true →
      exec (.loop G level cnt len) s = .next (s.raise .illenc)) ∧
    (s.me.guard G = true → s.me.handler.isSome = true → exec (.loop G level cnt len) s = .next s.raiseFree)) ∧
  (∀ (G : Guard) (level : BitVec 3) (kind : BitVec 2) (val addr : BitVec 6) (s : State),
    let n := s.me.level level.toNat
    let i : Instr := .nest G level kind val addr
    (s.me.guard G = false → exec i s = .next s) ∧
    (s.me.guard G = true → s.me.handler.isSome = true → exec i s = .next s.raiseFree) ∧
    (s.me.guard G = true → s.me.handler = none → s.me.pois val.toNat = true → exec i s = .next (s.raise .poison)) ∧
    (s.me.guard G = true → s.me.handler = none → s.me.pois val.toNat = false →
      (n.active = true → exec i s = .next (s.raise .illenc)) ∧
      (n.active = false → kind.toNat = 3 → ∃ t, exec i s = .next (s.updMe (fun _ => t)) ∧
        t.level level.toNat = { n with atts := [] } ∧ (∀ k, k ≠ level.toNat → t.level k = s.me.level k) ∧
        (∀ r, t.reg r = s.me.reg r)) ∧
      (n.active = false → kind.toNat ≠ 3 → (n.atts.length = 4 ∨ (kind.toNat = 1 ∧ n.binding.isSome = true)) →
        exec i s = .next (s.raise .illenc)) ∧
      (n.active = false → kind.toNat ≠ 3 → n.atts.length < 4 → (kind.toNat = 1 → n.binding = none) →
        ∃ t, exec i s = .next (s.updMe (fun _ => t)) ∧
          t.level level.toNat = { n with atts := n.atts ++ [⟨addr.toNat, val.toNat, s.me.val val.toNat, kind.toNat⟩] } ∧
          (∀ k, k ≠ level.toNat → t.level k = s.me.level k) ∧ (∀ r, t.reg r = s.me.reg r))))) ∧
  (∀ (t : Strand) (stop : Bool) (l : Nat), l < 6 → t.redirect = none → t.handler = none →
    let n := t.level l
    n.active = true → n.depth = t.depth → n.stop = t.mpc →
    (∀ k, k < 6 → k ≠ l → (t.level k).active = true → ((t.level k).depth ≠ t.depth ∨ (t.level k).stop ≠ t.mpc)) →
    let u := t.nextBundle stop
    let incs : List NestUpd := (n.atts.filter (fun a => a.kind == 0)).map (fun a => ⟨a.addr, false, a.value⟩)
    let rews : List NestUpd := ((n.atts.zip n.saved).filter (fun a => a.1.kind == 2)).map (fun a => ⟨a.1.addr, true, a.2⟩)
    u.vcc = t.vcc + 1 ∧ u.grp.fresh = true ∧ (∀ r, u.reg r = t.reg r) ∧ (∀ k, k ≠ l → u.level k = t.level k) ∧
    (n.counter + 1 < n.trip → u.mpc = n.start ∧ u.level l = { n with counter := n.counter + 1 } ∧ u.nestUpd = t.nestUpd ++ incs) ∧
    (n.trip ≤ n.counter + 1 → u.mpc = (n.stop + 1) % 65536 ∧ (u.level l).active = false ∧ (u.level l).counter = 0 ∧
      u.nestUpd = t.nestUpd ++ incs ++ rews))

/-- R519, R520, Table 18-4: the arithmetic of integer lanes, modulo 2^32, in both integer types. Beside it: R519, R521, Table
18-4: bitwise operations, shifts, compares, VSEL and VMOV, lane by lane. -/
def Obligations.VectorIntegersAndBits : Prop :=
  (∀ (o : VFields) (s : State), (o.ty = 2 ∨ o.ty = 3) → s.me.guard o.G = true →
    let ty := o.ty.toNat
    let a := fun i => BitVec.ofNat 32 (lane s (vr s o.a) ty i)
    let b := fun i => BitVec.ofNat 32 (laneB s o i)
    let c := fun i => BitVec.ofNat 32 (lane s (vr s o.c) ty i)
    let p1 := badWord s (vr s o.a)
    let p2 := fun w => p1 w || badB s o w
    let p3 := fun w => p2 w || badWord s (vr s o.c) w
    RowLands (.vadd o) o s s 2 ty (fun i => (a i + b i).toNat) p2 ∧
    RowLands (.vsub o) o s s 2 ty (fun i => (a i - b i).toNat) p2 ∧
    RowLands (.vmul o) o s s 2 ty (fun i => (a i * b i).toNat) p2 ∧
    RowLands (.vfma o) o s s 4 ty (fun i => (a i * b i + c i).toNat) p3 ∧
    RowLands (.vfms o) o s s 4 ty (fun i => (a i * b i - c i).toNat) p3 ∧
    RowLands (.vmax o) o s s 2 ty (fun i => (if (if ty = 2 then (a i).slt (b i) else (a i).ult (b i)) then b i else a i).toNat) p2 ∧
    RowLands (.vmin o) o s s 2 ty (fun i => (if (if ty = 2 then (b i).slt (a i) else (b i).ult (a i)) then b i else a i).toNat) p2 ∧
    RowLands (.vabs o) o s s 2 ty (fun i => (if ty = 2 ∧ (a i).msb = true then -(a i) else a i).toNat) p1 ∧
    RowLands (.vneg o) o s s 2 ty (fun i => (-(a i)).toNat) p1) ∧
  (∀ (o : VFields) (s : State), s.me.guard o.G = true → o.ty.toNat < 4 →
    let ty := o.ty.toNat
    let a := fun i => lane s (vr s o.a) ty i
    let b := fun i => laneB s o i
    let x := fun i => BitVec.ofNat 32 (a i)
    let y := fun i => BitVec.ofNat 32 (b i)
    let p1 := badWord s (vr s o.a)
    let p2 := fun w => p1 w || badB s o w
    RowLands (.vand o) o s s 2 ty (fun i => a i &&& b i) p2 ∧
    RowLands (.vor o) o s s 2 ty (fun i => a i ||| b i) p2 ∧
    RowLands (.vxor o) o s s 2 ty (fun i => a i ^^^ b i) p2 ∧
    RowLands (.vmov o) o s s 2 ty a p1 ∧
    RowLands (.vsel o) o s s 2 ty (fun i => if lane s (vr s o.c) ty i ≠ 0 then a i else b i) (fun w => p2 w || badWord s (vr s o.c) w) ∧
    (2 ≤ ty → RowLands (.vshl o) o s s 2 ty (fun i => (x i <<< (b i % 32)).toNat) p2 ∧
      RowLands (.vshr o) o s s 2 ty (fun i => (if ty = 2 then (x i).sshiftRight (b i % 32) else x i >>> (b i % 32)).toNat) p2 ∧
      (o.flags.toNat < 12 → RowLands (.vcmp o) o s s 2 ty (fun i => if holds o.flags.toNat (x i) (y i) then 0xFFFFFFFF else 0) p2)) ∧
    (ty < 2 → o.flags.toNat < 8 →
      let f := if ty = 0 then Fmt.fp32 else Fmt.fp64
      RowLands (.vcmp o) o s s 2 ty
        (fun i => if sfCond o.flags.toNat (FVal.cmp (f.read (a i)) (f.read (b i))) then 2 ^ f.width - 1 else 0) p2))

/-- R129, R519, Table 18-4: the arithmetic of float lanes, the exact result rounded once; the larger and the smaller are the canonical
NaN where a lane is a NaN, and order −0 below +0. -/
def Obligations.VectorFloatLanes : Prop :=
  ∀ (o : VFields) (s : State), (o.ty = 0 ∨ o.ty = 1) → s.me.guard o.G = true →
    let ty := o.ty.toNat
    let f := if ty = 0 then Fmt.fp32 else Fmt.fp64
    let n := if ty = 0 then 128 else 64
    let a := fun i => f.read (lane s (vr s o.a) ty i)
    let b := fun i => f.read (laneB s o i)
    let c := fun i => f.read (lane s (vr s o.c) ty i)
    let p1 := badWord s (vr s o.a)
    let p2 := fun w => p1 w || badB s o w
    let p3 := fun w => p2 w || badWord s (vr s o.c) w
    RowRounds (.vadd o) o s 2 ty false false n (fun r i => f.write (r i) (FVal.sum ((r i).mode == 3) [a i, b i])) p2 ∧
    RowRounds (.vsub o) o s 2 ty false false n (fun r i => f.write (r i) (FVal.sum ((r i).mode == 3) [a i, (b i).neg])) p2 ∧
    RowRounds (.vmul o) o s 2 ty false false n (fun r i => f.write (r i) ((a i).mul (b i))) p2 ∧
    RowRounds (.vfma o) o s 4 ty false false n (fun r i => f.write (r i) (FVal.sum ((r i).mode == 3) [(a i).mul (b i), c i])) p3 ∧
    RowRounds (.vfms o) o s 4 ty false false n (fun r i => f.write (r i) (FVal.sum ((r i).mode == 3) [(a i).mul (b i), (c i).neg])) p3 ∧
    RowLands (.vmax o) o s s 2 ty (fun i => if (a i).isNan || (b i).isNan then f.nan
      else if (a i).below (b i) then laneB s o i else lane s (vr s o.a) ty i) p2 ∧
    RowLands (.vmin o) o s s 2 ty (fun i => if (a i).isNan || (b i).isNan then f.nan
      else if (b i).below (a i) then laneB s o i else lane s (vr s o.a) ty i) p2 ∧
    RowLands (.vabs o) o s s 2 ty (fun i => lane s (vr s o.a) ty i % 2 ^ (f.width - 1)) p1 ∧
    RowLands (.vneg o) o s s 2 ty (fun i => lane s (vr s o.a) ty i ^^^ 2 ^ (f.width - 1)) p1

/-- R521, R524, R525, R526: one lane in every lane, lane numbers, permutations, and a lane to or from a g register. -/
def Obligations.VectorMovement : Prop :=
  ∀ (o : VFields) (s : State), s.me.guard o.G = true → o.ty.toNat < 4 →
    let ty := o.ty.toNat
    let n := if ty = 1 then 64 else 128
    let word := fun i => if ty = 1 then i else i / 2
    let a := fun i => lane s (vr s o.a) ty i
    let i0 := o.imm.toNat % 128 % n
    (o.bsel = true → RowLands (.vbcast o) o s s 2 ty (laneB s o) (badB s o)) ∧
    (o.bsel = false → o.imm.toNat < 128 →
      RowLands (.vbcast o) o s s 2 ty (fun _ => a i0) (fun _ => badWord s (vr s o.a) (word i0))) ∧
    (2 ≤ ty → RowLands (.viota o) o s s 2 ty (fun i => (BitVec.ofNat 32 i + o.imm.signExtend 32).toNat) (fun _ => false)) ∧
    (ty < 2 → RowLands (.viota o) o s s 2 ty
      (fun i => (if ty = 0 then Fmt.fp32 else Fmt.fp64).write (Rnd.rne false) (ofInt ((i : Int) + o.imm.toInt))) (fun _ => false)) ∧
    RowLands (.vperm o) o s s 2 ty (fun i => a (laneB s o i % n)) (fun w => (List.range n).any (fun i => word i == w &&
      (badWord s (vr s o.a) (word (laneB s o i % n)) || badB s o (word i)))) ∧
    (let i := if o.bsel then (s.me.val o.b.toNat).toNat % 128 % n else i0
     exec (.vext o) s = .next (s.land 2 (.g o.d.toNat (BitVec.ofNat 64 (a i))
       (badWord s (vr s o.a) (word i) || (o.bsel && s.me.pois o.b.toNat))))) ∧
    RowLands (.vins o) o s s 2 ty
      (fun i => if i = i0 then (s.me.val o.b.toNat).toNat % 2 ^ (if ty = 1 then 64 else 32) else lane s (vr s o.d) ty i)
      (fun w => if w = word i0 then (ty != 1 && badWord s (vr s o.d) w) || s.me.pois o.b.toNat else badWord s (vr s o.d) w)

/-- R130, R195: VRSUM's tree, VSCAN's prefixes, and the largest and smallest lane, in lane 0 with zeros beside it. -/
def Obligations.VectorReductions : Prop :=
  ∀ (o : VFields) (s : State), s.me.guard o.G = true → o.ty.toNat < 4 →
    let ty := o.ty.toNat
    let n := if ty = 1 then 64 else 128
    let f := if ty = 0 then Fmt.fp32 else Fmt.fp64
    let a := fun i => lane s (vr s o.a) ty i
    let add : Rnd → Nat → Nat → Nat := fun r x y => if ty < 2 then f.write r (FVal.sum (r.mode == 3) [f.read x, f.read y])
      else (x + y) % 2 ^ 32
    let bad0 := fun w => w == 0 && (List.range 64).any (badWord s (vr s o.a))
    let sum := fun (r : Nat → Rnd) i => if i = 0 then treeNode add n r a (if ty = 1 then 6 else 7) 0 else 0
    let above : Nat → Nat → Bool := fun x y => if ty = 2 then (BitVec.ofNat 32 y).slt (BitVec.ofNat 32 x)
      else if ty = 3 then decide (y < x) else (f.read y).below (f.read x)
    let nan := decide (ty < 2) && (List.range n).any (fun i => (f.read (a i)).isNan)
    (ty < 2 → RowRounds (.vrsum o) o s 2 ty false false (n - 1) sum bad0) ∧
    (2 ≤ ty → RowLands (.vrsum o) o s s 2 ty (sum (fun _ => Rnd.rne false)) bad0) ∧
    (∃ m, RowLands (.vrmax o) o s s 2 ty (fun i => if i = 0 then m else 0) bad0 ∧ (nan = true → m = f.nan) ∧
      (nan = false → (∃ i, i < n ∧ m = a i) ∧ ∀ i, i < n → above (a i) m = false)) ∧
    (∃ m, RowLands (.vrmin o) o s s 2 ty (fun i => if i = 0 then m else 0) bad0 ∧ (nan = true → m = f.nan) ∧
      (nan = false → (∃ i, i < n ∧ m = a i) ∧ ∀ i, i < n → above m (a i) = false)) ∧
    (let bad := fun w => (List.range (w + 1)).any (badWord s (vr s o.a))
     let pre := fun (r : Nat → Rnd) i => Nat.rec (a 0) (fun k acc => add (r k) acc (a (k + 1))) i
     (ty < 2 → RowRounds (.vscan o) o s 2 ty false false (n - 1) pre bad) ∧
     (2 ≤ ty → RowLands (.vscan o) o s s 2 ty (pre (fun _ => Rnd.rne false)) bad))

/-- R522, Table 18-6, R121: VCVT between the lane types. Beside it: R523, R527, R131: VDQT expands a chunk of an operand row, each element
under its block's scale; VQNT quantises a chunk block by block, and every other bit of d stays. Which lanes take a draw under SR is the
model's choice (log entry 56). -/
def Obligations.VectorConversionsQuantisation : Prop :=
  (∀ (o : VFields) (s : State), (Instr.vcvt o).wf = true → s.me.guard o.G = true →
    let sty := o.ty.toNat
    let dty := o.imm.toNat % 4
    let h := o.imm.toNat / 4 % 2
    let a := fun i => laneValue sty (lane s (vr s o.a) sty i)
    let bad := badWord s (vr s o.a)
    (dty = 1 → RowLands (.vcvt o) o s s 2 1 (fun i => Fmt.fp64.write (Rnd.rne false) (a (64 * h + i))) (fun w => bad (32 * h + w / 2))) ∧
    (dty ≠ 1 → sty ≠ 1 → RowRounds (.vcvt o) o s 2 dty false s.me.sat 128 (fun r i => laneOf dty (r i) (a i)) bad) ∧
    (dty ≠ 1 → sty = 1 → RowRounds (.vcvt o) o s 2 dty false s.me.sat 64
      (fun r i => if 64 * h ≤ i ∧ i < 64 * h + 64 then laneOf dty (r (i - 64 * h)) (a (i - 64 * h)) else lane s (vr s o.d) dty i)
      (fun w => if 32 * h ≤ w ∧ w < 32 * h + 32 then bad (2 * (w - 32 * h)) || bad (2 * (w - 32 * h) + 1)
        else badWord s (vr s o.d) w))) ∧
  (∀ (o : VFields) (s : State), s.me.guard o.G = true →
    let code := o.imm.toNat % 16
    let e := 128 * (o.imm.toNat / 16 % 4)
    let w := fmtBits code
    let row := rowBase (gidOf s.cur) (vr s o.a)
    let bad := badWord s (vr s o.a)
    ((Instr.vdqt o).wf = true → RowRounds (.vdqt o) o s 2 0 false s.me.sat 128
      (fun r i => if fmtK code ≤ e + i then 0 else Fmt.fp32.write (r i) (scaled (s.natAt (row + 192 + (e + i) / 32) 1)
        (elemVal code (s.natAt row 192 >>> (w * (e + i)) % 2 ^ w))))
      (fun v => [2 * v, 2 * v + 1].any (fun i => decide (e + i < fmtK code) &&
        (bad (w * (e + i) / 64) || bad ((w * (e + i) + w - 1) / 64) || bad ((192 + (e + i) / 32) / 8))))) ∧
    ((Instr.vqnt o).wf = true →
      let n := Nat.min 128 (fmtK code - e)
      let x := fun i => Fmt.fp32.read (lane s (vr s o.a) 0 i)
      let scale := fun b => blockScale code ((List.range 32).map (fun i => x (32 * b + i)))
      match rounds s o.rnd.toNat true true n with
      | none => exec (.vqnt o) s = .next (s.raise .illfmt)
      | some (t, rs) => ∃ (bs : List Byte) (ps : List Bool), exec (.vqnt o) s = .next (t.land 2 (.row (vr s o.d) bs ps)) ∧
          bs.length = 512 ∧
          (∀ b, 32 * b < n → leNat bs >>> (8 * (192 + e / 32 + b)) % 256 = scale b) ∧
          (∀ i, i < n → leNat bs >>> (w * (e + i)) % 2 ^ w = blockElem code (scale (i / 32)) (rs.getD i (Rnd.rne false)) (x i)) ∧
          (∀ p, ¬(w * e ≤ p ∧ p < w * (e + n)) → ¬(8 * (192 + e / 32) ≤ p ∧ p < 8 * (192 + e / 32 + n / 32)) →
            (leNat bs).testBit p = (s.natAt (rowBase (gidOf s.cur) (vr s o.d)) 512).testBit p)))

/-- R133, Table 5-4: the special functions land at v + 12; their values on the infinities, the zeros, a NaN and, where it is
outside the domain, a negative number. Beside it: R528: VTOPK puts the k first of n lanes in descending order, equal values
in ascending lane order, with their lane numbers. Beside it: R288, R289: CONFT's statistics of the shards and its test, which
land together at v + 2; a NaN lane, and poison. -/
def Obligations.VectorSpecialFunctionsAndSelection : Prop :=
  ((∀ (o : VFields) (s : State), o.ty.toNat < 2 → s.me.guard o.G = true →
    let ty := o.ty.toNat
    let f := if ty = 0 then Fmt.fp32 else Fmt.fp64
    let a := fun i => lane s (vr s o.a) ty i
    let bad := badWord s (vr s o.a)
    RowLands (.vexp o) o s s 12 ty (fun i => f.exp s.me.ftz (a i)) bad ∧
    RowLands (.vlog o) o s s 12 ty (fun i => f.ln s.me.ftz (a i)) bad ∧
    RowLands (.vrcp o) o s s 12 ty (fun i => f.rcp s.me.ftz (a i)) bad ∧
    RowLands (.vrsq o) o s s 12 ty (fun i => f.rsq s.me.ftz (a i)) bad ∧
    RowLands (.vtanh o) o s s 12 ty (fun i => f.tanh s.me.ftz (a i)) bad) ∧
  (∀ f ∈ [Fmt.fp32, Fmt.fp64], ∀ (z : Bool) (c : Nat),
    let neg0 := 2 ^ (f.width - 1)
    let one := f.round (Rnd.rne false) false 1 0
    ((f.read c).isNan = true → f.exp z c = f.nan ∧ f.ln z c = f.nan ∧ f.rcp z c = f.nan ∧ f.rsq z c = f.nan ∧ f.tanh z c = f.nan) ∧
    (f.read c = .inf true → f.exp z c = 0 ∧ f.ln z c = f.nan ∧ f.rcp z c = neg0 ∧ f.rsq z c = f.nan ∧ f.tanh z c = one + neg0) ∧
    (f.read c = .inf false →
      f.exp z c = f.inf false ∧ f.ln z c = f.inf false ∧ f.rcp z c = 0 ∧ f.rsq z c = 0 ∧ f.tanh z c = one) ∧
    ((f.read c).isZero = true → f.exp z c = one ∧ f.ln z c = f.inf true ∧ f.rcp z c = f.inf (f.read c).sign ∧
      f.rsq z c = f.inf (f.read c).sign ∧ f.tanh z c = if (f.read c).sign then neg0 else 0) ∧
    ((f.read c).sign = true → (f.read c).isZero = false → (f.read c).isNan = false → f.ln z c = f.nan ∧ f.rsq z c = f.nan))) ∧
  ((∀ (o : VFields) (s : State), (Instr.vtopk o).wf = true → s.me.guard o.G = true →
    let ty := o.ty.toNat
    let k := o.imm.toNat % 128
    let n := o.imm.toNat / 256 + 1
    let a := fun i => lane s (vr s o.a) ty i
    let base := if o.bsel then (s.me.val o.b.toNat).toNat else 0
    let bad := (List.range n).any (fun i => badWord s (vr s o.a) (i / 2))
    ∃ p : List Nat, p.Perm (List.range n) ∧
      (∀ j, j + 1 < n → let x := p.getD j 0
        let y := p.getD (j + 1) 0
        ahead ty (a x) (a y) = true ∨ (ahead ty (a y) (a x) = false ∧ x < y)) ∧
      RowLands (.vtopk o) o s s 2 ty
        (fun j => if j < k then a (p.getD j 0) else if 64 ≤ j ∧ j < 64 + k then (p.getD (j - 64) 0 + base) % 2 ^ 32 else 0)
        (fun w => (bad && decide (2 * (w % 32) < k)) || (o.bsel && s.me.pois o.b.toNat))) ∧
  (∀ (o : VFields) (s : State), (Instr.conft o).wf = true → s.me.guard o.G = true →
    let n := o.imm.toNat
    let x := fun i => lane s (vr s o.a) 0 i
    let f := Fmt.fp32
    let r := Rnd.rne s.me.ftz
    let q := (List.range (n - 1)).foldl (confStep r x) (x 0, x 1, x 2)
    let nan := (List.range (3 * n)).any (fun i => (f.read (x i)).isNan)
    let t := if nan then f.nan else if o.flags.toNat = 0 then f.rcp r.ftz q.2.2 else f.sub r q.1 q.2.1
    let row := if nan then [f.nan, f.nan, f.nan, f.nan] else [q.1, q.2.1, q.2.2, t]
    let th := f.read ((s.me.val o.b.toNat).toNat % 2 ^ 32)
    let poisoned := s.me.pois o.b.toNat || (List.range (3 * n)).any (fun i => badWord s (vr s o.a) (i / 2))
    (poisoned = true → exec (.conft o) s = .next (s.raise .poison)) ∧
    (poisoned = false → ∃ (bs : List Byte),
      exec (.conft o) s = .next ((s.land 2 (.row (vr s o.d) bs (List.replicate 512 false))).land 2 (.p o.c.toNat
        (FVal.cmp (f.read t) th == some .gt || FVal.cmp (f.read t) th == some .eq))) ∧
      bs.length = 512 ∧ ∀ j, j < 128 → laneIn bs 0 j = row.getD j 0)))

/-- R136 to R141, R145, R463, R467, R472: MMA, MROT and MZERO are queued with what they capture, unless a test fails. Beside
it: R116, R149, R150, R155, R156, R458, R460, R466: MGV and MDRN are queued with what they capture, MDRN with its draws under
SR; MPRI changes the priority of the strand's queued operations. -/
def Obligations.MatrixOperations : Prop :=
  (∀ (o : MFields) (s : State), s.me.guard ⟨o.p, false⟩ = true →
    let n := (s.me.val o.gN.toNat).toNat
    let a := (s.me.val o.gA.toNat).toNat
    let b := (s.me.val o.gB.toNat).toNat
    let f := s.me.fmtr.toNat
    let acc := f / 256 % 4
    let base := (s.me.vwb + o.tile.toNat) % 2048
    let full := o.prod.toNat != 0 && decide (255 ≤ (s.me.tok o.prod.toNat).outst)
    let ra := 31 * s.me.cwn 0x102 + 256
    let rb := (n - 1) * s.me.cwn 0x103 + 256
    (∃ op, Captured s o op ∧ op.kind = .mma ∧ op.n = n ∧ op.m = 32 ∧ TestsThen (.mma o) s (queuedMat s op)
      [(!mmaFormats (f % 16) (f / 16 % 16) acc (f / 65536 % 4), .illfmt, ⟨0, 0, 0⟩),
       (!goodN n || s.me.cwn 0x102 % 256 != 0 || s.me.cwn 0x103 % 256 != 0 || base % 32 != 0, .illshape, ⟨0, 0, 0⟩),
       (s.me.pois o.gA.toNat || s.me.pois o.gB.toNat || s.me.pois o.gN.toNat, .poison, ⟨0, 0, 0⟩),
       (a % 256 != 0, .align, ⟨a, 0, 0⟩), (b % 256 != 0, .align, ⟨b, 0, 0⟩),
       (!s.inScratch s.cur a ra, .accv, ⟨a, 0, 0⟩), (!s.inScratch s.cur b rb, .accv, ⟨b, 0, 0⟩), (full, .tokovf, ⟨0, 0, 0⟩)]) ∧
    (∃ op, Captured s o op ∧ op.kind = .mrot ∧ op.n = n ∧ TestsThen (.mrot o) s (queuedMat s op)
      [(acc != 0, .illfmt, ⟨0, 0, 0⟩), (!goodN n || n % 32 != 0 || base % 32 != 0, .illshape, ⟨0, 0, 0⟩),
       (s.me.pois o.gN.toNat, .poison, ⟨0, 0, 0⟩), (full, .tokovf, ⟨0, 0, 0⟩)]) ∧
    (∃ op, Captured s o op ∧ op.kind = .mzero ∧ op.n = n ∧ TestsThen (.mzero o) s (queuedMat s op)
      [(acc == 3, .illfmt, ⟨0, 0, 0⟩), (!goodN n || base % 32 != 0, .illshape, ⟨0, 0, 0⟩),
       (s.me.pois o.gN.toNat, .poison, ⟨0, 0, 0⟩), (full, .tokovf, ⟨0, 0, 0⟩)])) ∧
  (∀ (o : MFields) (s : State), s.me.guard ⟨o.p, false⟩ = true →
    let v := (s.me.val o.gN.toNat).toNat
    let a := (s.me.val o.gA.toNat).toNat
    let b := (s.me.val o.gB.toNat).toNat
    let f := s.me.fmtr.toNat
    let acc := f / 256 % 4
    let base := (s.me.vwb + o.tile.toNat) % 2048
    let clean := !(s.me.pois o.gA.toNat || s.me.pois o.gB.toNat || s.me.pois o.gN.toNat)
    let full := o.prod.toNat != 0 && decide (255 ≤ (s.me.tok o.prod.toNat).outst)
    (let st := s.me.cwn 0x102
     let row := s.me.cwn 0x107 * fmtK (f / 16 % 16) * (fmtBits (f % 16) / 8)
     ∃ op, Captured s o op ∧ op.kind = .mgv ∧ op.n = v % 1024 ∧ op.m = v / 65536 % 32 + 1 ∧ TestsThen (.mgv o) s (queuedMat s op)
      [(!mgvFormats (f % 16) (f / 16 % 16) acc (f / 65536 % 4), .illfmt, ⟨0, 0, 0⟩),
       (!goodN (v % 1024) || v / 1024 % 64 != 0 || decide (2097152 ≤ v) || s.me.cwn 0x107 == 0 || st % 256 != 0 ||
         decide (st < row) || base % 32 != 0, .illshape, ⟨0, 0, 0⟩),
       (!clean, .poison, ⟨0, 0, 0⟩), (a % 256 != 0, .align, ⟨a, 0, 0⟩), (b % 65536 != 0, .align, ⟨b, 0, 0⟩),
       (!s.inScratch s.cur a (v / 65536 % 32 * st + row), .accv, ⟨a, 0, 0⟩), (decide (b < 2 ^ 32), .accv, ⟨b, 0, 0⟩),
       (full, .tokovf, ⟨0, 0, 0⟩)]) ∧
    (let d := b % 16
     let st := s.me.cwn 0x104
     let dense := bitAt o.mode.toNat 1
     let rows := ceilDiv v (fmtK d)
     let bytes := if dense then v * (fmtBits d / 8) else 256 * rows
     let mode := s.me.mode? 6 (decide (2 ≤ d))
     let bad := [(acc == 3 || decide (12 ≤ d) || mode.isNone || (acc == 1 && f / 65536 % 4 == 3), TrapClass.illfmt,
         (⟨0, 0, 0⟩ : FaultInfo)),
       (!goodN v || decide (16 ≤ b) || (if dense then isMx d || st % 64 != 0 || decide (st < bytes)
         else st % 256 != 0 || decide (st < 256 * rows)) || base % 32 != 0, .illshape, ⟨0, 0, 0⟩),
       (!clean, .poison, ⟨0, 0, 0⟩), (a % (if dense then 64 else 256) != 0, .align, ⟨a, 1, 0⟩),
       (!s.inScratch s.cur a (31 * st + bytes), .accv, ⟨a, 1, 0⟩), (full, .tokovf, ⟨0, 0, 0⟩)]
     ∃ op, Captured s o op ∧ op.kind = .mdrn ∧ op.n = v ∧ op.dfmt = d ∧
       (mode ≠ some 5 → op.draws = [] ∧ TestsThen (.mdrn o) s (queuedMat s op) bad) ∧
       (mode = some 5 → op.draws = (s.takeDraws (32 * v)).1 ∧ TestsThen (.mdrn o) s (queuedMat (s.takeDraws (32 * v)).2 op) bad)) ∧
    exec (.mpri o) s = .next { s with cores := s.cores.set (gidOf s.cur) { s.core (gidOf s.cur) with
      mq := (s.core (gidOf s.cur)).mq.map (fun x => if x.sid = s.cur ∧ x.task = s.me.task ∧
        (o.prod = 0 ∨ x.prod = o.prod.toNat) then
          { x with prio := x.basePrio s.now, turns := s.now + 1, next := o.tile.toNat % 16 } else x) } } ∧
    ∀ (x : MOp) (k : Nat), let y := { x with prio := x.basePrio s.now, turns := s.now + 1, next := k }
      y.basePrio s.now = x.basePrio s.now ∧ ∀ now, s.now < now → y.basePrio now = k)

/-- R162 to R166, Table 7-1: the place of an access by a strand of a compute core, and of a control core. -/
def Obligations.AddressMap : Prop :=
  ∀ (s : State) (sid a n : Nat), 0 < n →
    (sid < 2 ^ 15 →
      let g := sid / 8
      let p := 8 * (sid / 64) + (a - 0x1000000) / 0x400000
      let off := (a - 0x1000000) % 0x400000
      (a + n ≤ 0x400000 → s.place sid a n = .own (2 ^ 58 + g * 0x400000 + a)) ∧
      (0x1000000 ≤ a → a < 0x3000000 → off + n ≤ 0x400000 →
        ((s.core p).removed = true → s.place sid a n = .none) ∧
        ((s.core p).removed = false → p = g → s.place sid a n = .own (2 ^ 58 + g * 0x400000 + off)) ∧
        ((s.core p).removed = false → p ≠ g → s.place sid a n = .peer (2 ^ 58 + p * 0x400000 + off))) ∧
      (0x8000000 ≤ a → a + n ≤ 0x8100000 →
        s.place sid a n = .am ((a - 0x8000000) / 512) (2 ^ 59 + g * 0x100000 + (a - 0x8000000))) ∧
      ((a < 0x400000 ∧ 0x400000 < a + n) ∨ (0x400000 ≤ a ∧ a < 0x1000000) ∨ (0x1000000 ≤ a ∧ a < 0x3000000 ∧ 0x400000 < off + n) ∨
        (0x3000000 ≤ a ∧ a < 0x8000000) ∨ (0x8000000 ≤ a ∧ a < 0x8100000 ∧ 0x8100000 < a + n) ∨ (0x8100000 ≤ a ∧ a < 2 ^ 32) →
        s.place sid a n = .none)) ∧
    (2 ^ 15 ≤ sid → a < 2 ^ 32 → s.place sid a n = .none) ∧
    (2 ^ 32 ≤ a → a + n ≤ 2 ^ 57 → s.place sid a n = .translated) ∧
    (2 ^ 32 ≤ a → 2 ^ 57 < a + n → s.place sid a n = .none)

/-- R61, R67, R163, R165, R195, R197, R441 to R445: LD, LDA, LDT and LDS from the scratchpads and the AM window, and their
traps. Beside it: R67, R177 to R179, R441, R446, R447: the loads from translated space. -/
def Obligations.ScalarLoadsEverywhere : Prop :=
  (∀ (o : LMFields) (s : State), (Instr.ld o).wf = true → s.me.guard o.G = true →
    let a := ea (s.me.val o.base.toNat) o.off
    let n := bytesOf o.size.toNat
    let g := fun c => LandVal.g o.d.toNat (extended o.size.toNat ((seen s).natAt c n)) ((seen s).poisonIn c n)
    let safe := fun c => if (seen s).poisonIn c n then LandVal.g o.d.toNat 0 true else g c
    let bad := LandVal.g o.d.toNat 0 true
    let trapped := fun (cls : TrapClass) => exec (.ld o) s = .next (s.raiseVa cls a .load 0) ∧
      exec (.ldt o) s = .next (s.raiseVa cls a .load 0) ∧
      ∀ sc : BitVec 3, sc.toNat < 6 → exec (.lda { o with scope := sc }) s = .next (s.raiseVa cls a .load 0)
    let lands := fun k c => (unheld s a n [(c, n)] false → exec (.ld o) s = .next (s.land k (g c)) ∧
        exec (.ldt o) s = .next (s.land k (g c)) ∧ exec (.lds o) s = .next (s.land k (safe c))) ∧
      ∀ sc : BitVec 3, sc.toNat < 6 → unheld s a n [(c, n)] (sc != 0) →
        exec (.lda { o with scope := sc }) s = .next (s.land k (g c))
    (s.me.pois o.base.toNat = true →
      exec (.ld o) s = .next (s.raise .poison) ∧ exec (.ldt o) s = .next (s.raise .poison) ∧
      (∀ sc : BitVec 3, sc.toNat < 6 → exec (.lda { o with scope := sc }) s = .next (s.raise .poison))) ∧
    (s.me.pois o.base.toNat = true ∨ a % n ≠ 0 →
      exec (.lds o) s = .next (s.land (match s.place s.cur a n with
        | .peer _ => 10
        | _ => 4) bad)) ∧
    (s.me.pois o.base.toNat = false → a % n ≠ 0 → trapped .align) ∧
    (s.me.pois o.base.toNat = false → a % n = 0 →
      (∀ c, s.place s.cur a n = .own c → lands 4 c) ∧
      (∀ c, s.place s.cur a n = .peer c → lands 10 c) ∧
      (s.place s.cur a n = .none → trapped .accv ∧ exec (.lds o) s = .next (s.land 4 bad)) ∧
      (∀ r c, s.place s.cur a n = .am r c →
        (s.me.inWindow r = true → unheld s a n [(c, n)] false → exec (.ld o) s = .next (s.landEntry 4 [g c] true .data) ∧
          exec (.lds o) s = .next (s.landEntry 4 [safe c] true .data)) ∧
        (s.me.inWindow r = false → exec (.ld o) s = .next (s.raiseVa .accv a .load 0) ∧ exec (.lds o) s = .next (s.land 4 bad)) ∧
        exec (.ldt o) s = .next (s.raiseVa .accv a .load 0) ∧
        ∀ sc : BitVec 3, sc.toNat < 6 → exec (.lda { o with scope := sc }) s = .next (s.raiseVa .accv a .load 0)))) ∧
  (∀ (o : LMFields) (x : LDXFields) (s : State), s.me.guard o.G = true → s.me.pois o.base.toNat = false →
    let v := s.me.vcc
    let a := ea (s.me.val o.base.toNat) o.off
    let ax := ea (s.me.val x.base.toNat) x.off
    let n := bytesOf o.size.toNat
    let w := 64 * 2 ^ o.size.toNat
    let load := fun (spec acq : Bool) => AccOp.load o.d.toNat (loadForm o.size.toNat) (v + 4) spec acq
    let g := fun (d size : Nat) ps => LandVal.g d (extended size (leNat ((seen s).readPieces ps))) (((seen s).poisonPieces ps).any id)
    let row := fun (d : BitVec 6) ps => [LandVal.row (vr s d) ((seen s).readPieces ps) ((seen s).poisonPieces ps)]
    ((Instr.ld o).wf = true → a % n = 0 →
      TranslatedLoad (.ld o) s ⟨a, n, s.slot, load false false, true⟩ (fun ps => [g o.d.toNat o.size.toNat ps]) ∧
      TranslatedLoad (.ldt o) s ⟨a, n, s.slot, load false false, false⟩ (fun ps => [g o.d.toNat o.size.toNat ps]) ∧
      TranslatedLoad (.lds o) s ⟨a, n, s.slot, load true false, true⟩
        (fun ps => [if ((seen s).poisonPieces ps).any id then .g o.d.toNat 0 true else g o.d.toNat o.size.toNat ps]) ∧
      ∀ sc : BitVec 3, sc.toNat < 6 →
        TranslatedLoad (.lda { o with scope := sc }) s ⟨a, n, s.slot, load false (sc != 0), true⟩
          (fun ps => [g o.d.toNat o.size.toNat ps])) ∧
    ((Instr.ldv o).wf = true → a % 64 = 0 →
      TranslatedLoad (.ldv o) s ⟨a, w, s.slot, .loadRow (vr s o.d) w (v + 6), true⟩ (row o.d)) ∧
    ((Instr.ldx x).wf = true → s.me.pois x.base.toNat = false → ax % (if x.vec then 64 else bytesOf x.size.toNat) = 0 →
      (x.vec = false → TranslatedLoad (.ldx x) s
        ⟨ax, bytesOf x.size.toNat, s.slot, .load x.d.toNat (loadForm x.size.toNat) (v + x.land.toNat) false false, true⟩
        (fun ps => [g x.d.toNat x.size.toNat ps])) ∧
      (x.vec = true → TranslatedLoad (.ldx x) s
        ⟨ax, 64 * 2 ^ x.size.toNat, s.slot, .loadRow (vr s x.d) (64 * 2 ^ x.size.toNat) (v + x.land.toNat), true⟩ (row x.d))))

/-- R163, R165, R195, R446, R447: LDV loads a row, and LDX a register or a row at its own landing step. Beside it: R213,
R440, R479: LATCH lands its broadcast or a false predicate at v + 3, and writes to the own scratchpad only; PREF never fails
but for POISON, and changes nothing outside the caches. Beside it: R213: a latch that lands with a broadcast of its braid and
step sets its predicate and writes the bytes, behind what holds a store of its strand; without one it clears it and writes
nothing. -/
def Obligations.TimedLoadsLatchesPrefetches : Prop :=
  ((∀ (o : LMFields) (s : State), (Instr.ldv o).wf = true → s.me.guard o.G = true →
    let a := ea (s.me.val o.base.toNat) o.off
    let n := 64 * 2 ^ o.size.toNat
    let row := fun c => LandVal.row (vr s o.d) ((seen s).bytesAt c n) ((seen s).poisonAt c n)
    (s.me.pois o.base.toNat = true → exec (.ldv o) s = .next (s.raise .poison)) ∧
    (s.me.pois o.base.toNat = false → a % 64 ≠ 0 → exec (.ldv o) s = .next (s.raiseVa .align a .load 0)) ∧
    (s.me.pois o.base.toNat = false → a % 64 = 0 →
      (∀ c, s.place s.cur a n = .own c → unheld s a n [(c, n)] false → exec (.ldv o) s = .next (s.land 6 (row c))) ∧
      (∀ c, s.place s.cur a n = .peer c → unheld s a n [(c, n)] false → exec (.ldv o) s = .next (s.land 12 (row c))) ∧
      (s.place s.cur a n = .none → exec (.ldv o) s = .next (s.raiseVa .accv a .load 0)) ∧
      (∀ r c, s.place s.cur a n = .am r c → let last := (a + n - 1 - 0x8000000) / 512
        (s.me.inWindow r = true → s.me.inWindow last = true → unheld s a n [(c, n)] false →
          exec (.ldv o) s = .next (s.landEntry 6 [row c] true .data)) ∧
        (s.me.inWindow r = false ∨ s.me.inWindow last = false → exec (.ldv o) s = .next (s.raiseVa .accv a .load 0))))) ∧
  (∀ (o : LDXFields) (s : State), (Instr.ldx o).wf = true →
    let a := ea (s.me.val o.base.toNat) o.off
    let n := if o.vec then 64 * 2 ^ o.size.toNat else bytesOf o.size.toNat
    let k := o.land.toNat
    let soon := fun late early => decide ((if o.vec then late else early) ≤ k)
    let val := fun c => if o.vec then LandVal.row (vr s o.d) ((seen s).bytesAt c n) ((seen s).poisonAt c n)
      else LandVal.g o.d.toNat (extended o.size.toNat ((seen s).natAt c n)) ((seen s).poisonIn c n)
    (s.me.pois o.base.toNat = true → exec (.ldx o) s = .next (s.raise .poison)) ∧
    (s.me.pois o.base.toNat = false → a % (if o.vec then 64 else n) ≠ 0 → exec (.ldx o) s = .next (s.raiseVa .align a .load 0)) ∧
    (s.me.pois o.base.toNat = false → a % (if o.vec then 64 else n) = 0 →
      (∀ c, s.place s.cur a n = .own c → unheld s a n [(c, n)] false →
        exec (.ldx o) s = .next (s.landEntry k [val c] (soon 6 4) .data)) ∧
      (∀ c, s.place s.cur a n = .peer c → unheld s a n [(c, n)] false →
        exec (.ldx o) s = .next (s.landEntry k [val c] (soon 12 10) .data)) ∧
      (s.place s.cur a n = .none → exec (.ldx o) s = .next (s.raiseVa .accv a .load 0)) ∧
      (∀ r c, s.place s.cur a n = .am r c → let last := (a + n - 1 - 0x8000000) / 512
        (s.me.inWindow r = true → s.me.inWindow last = true → unheld s a n [(c, n)] false →
          exec (.ldx o) s = .next (s.landEntry k [val c] (soon 6 4) .data)) ∧
        (s.me.inWindow r = false ∨ s.me.inWindow last = false → exec (.ldx o) s = .next (s.raiseVa .accv a .load 0)))))) ∧
  ((∀ (o : LMFields) (s : State), s.me.guard o.G = true →
    let a := ea (s.me.val o.base.toNat) o.off
    let n := 64 * 2 ^ o.size.toNat
    ((Instr.latch o).wf = true →
      (s.me.pois o.base.toNat = true → exec (.latch o) s = .next (s.raise .poison)) ∧
      (s.me.pois o.base.toNat = false → a % 64 ≠ 0 → exec (.latch o) s = .next (s.raiseVa .align a .store 0)) ∧
      (s.me.pois o.base.toNat = false → a % 64 = 0 → isCtrl s.cur = false →
        (0x400000 < a + n → exec (.latch o) s = .next (s.raiseVa .accv a .store 0)) ∧
        (a + n ≤ 0x400000 →
          (s.me.braid = none → exec (.latch o) s = .next (s.land 3 (.p o.d.toNat false))) ∧
          (∀ b, s.me.braid = some b → exec (.latch o) s = .next (s.land 3
            (.latch o.d.toNat a (spadBase (gidOf s.cur) + a) n b s.me.vcc)))))) ∧
    ((Instr.pref o).wf = true →
      (s.me.pois o.base.toNat = true → exec (.pref o) s = .next (s.raise .poison)) ∧
      (s.me.pois o.base.toNat = false →
        (∃ t, exec (.pref o) s = .next t ∧ t.mem = s.mem ∧ t.poison = s.poison ∧ t.strands = s.strands ∧ t.now = s.now ∧
          ∀ c, (t.core c).cs = (s.core c).cs ∧ (t.core c).mq = (s.core c).mq) ∧
        (a < 2 ^ 32 → exec (.pref o) s = .next s)))) ∧
  (∀ (s : State) (sid pd va c n b v : Nat), let u := s.applyVal sid (.latch pd va c n b v)
    (∀ br x, s.braids.get? b = some br → br.bcasts.find? (fun y => y.vcc == v) = some x →
      let bs := x.bytes.take n
      let held := (s.strand sid).heldWrite (peerVa sid va) bs.length || (s.strand sid).behind [(c, bs.length)]
      (held = false → u = (s.write c bs (x.poison.take n)).updStrand sid (fun t => t.setPred pd true) ∧
        ∀ y, y < c ∨ c + bs.length ≤ y → u.peek y = s.peek y) ∧
      (held = true → u.mem = s.mem ∧ (u.strand sid).pred pd = true ∧ (∀ r, (u.strand sid).reg r = (s.strand sid).reg r) ∧
        ⟨s.nextId, .write (peerVa sid va) [(c, bs.length)] (.latch bs (x.poison.take n)), false⟩ ∈ (u.strand sid).wq ∧
        ∀ i ∈ (s.strand sid).wq, i ∈ (u.strand sid).wq)) ∧
    ((∀ br, s.braids.get? b = some br → br.bcasts.find? (fun y => y.vcc == v) = none) →
      u = s.updStrand sid (fun t => t.setPred pd false))))

/-- R284 to R286: KVAD lands the address of a record and its predicate at v + 4, waits under WAIT for a pending entry, and traps. Beside it:
R298, R392, R303: BFQ lands its status at v + 4: 2 under a cancelled scope, 3 for a malformed job, 1 where the queue is full or its
copy-on-write would wait, 0 where a job is queued, with SEQLEN one above its position and SEQCTX its descriptor; its traps. That a job
whose operator entry has a WIDTH other than 0 is malformed is the model's reading (log entry 31). -/
def Obligations.RecordsAndBackfill : Prop :=
  (∀ (o : LMFields) (s : State), (Instr.kvad o).wf = true → s.me.guard o.G = true →
    let pos := (s.me.val o.base.toNat).toNat
    let l := o.off.toNat % 2048
    let kv := if bitAt o.off.toNat 11 then 1 else 0
    let pd := o.off.toNat / 4096
    let root := (s.space s.cur).2
    let desc := (s.me.cw 0x009).toNat
    let chunk := (List.range 16).map (fun i => pos / 16 * 16 + i)
    (s.me.pois o.base.toNat = true → exec (.kvad o) s = .next (s.raise .poison)) ∧
    (s.me.pois o.base.toNat = false → desc = 0 → exec (.kvad o) s = .next (s.raiseVa .accv 0 .load 0)) ∧
    (s.me.pois o.base.toNat = false → desc ≠ 0 → 2 ^ 32 ≤ pos → exec (.kvad o) s = .next (s.raise .illshape)) ∧
    (s.me.pois o.base.toNat = false → desc ≠ 0 → pos < 2 ^ 32 →
      (∀ c, s.seqUse root desc = .error c → exec (.kvad o) s = .next (s.raiseVa c desc .load 0)) ∧
      (∀ d, s.seqUse root desc = .ok d →
        (d.layers ≤ l → exec (.kvad o) s = .next (s.raise .illshape)) ∧
        (l < d.layers → d.slot pos = none → exec (.kvad o) s = .next (s.raiseVa .accv desc .load 0)) ∧
        (∀ slot, l < d.layers → d.slot pos = some slot →
          let entries := if o.size = 1 then chunk else [pos]
          let state := fun q => s.kvStateOr root d q l
          let addr := LandVal.g o.d.toNat (BitVec.ofNat 64 (slot + (2 * l + kv) * 64 * d.rb)) false
          let waits := !d.mask && !s.isBackfill s.cur && entries.any (fun q => state q == 2)
          (∀ q ∈ entries, ∃ v, s.kvState root d q l = .ok v) →
          let held := (earlier s).heldRead desc 320
          (waits = false → held = false → exec (.kvad o) s = .next (s.landEntry 4 [addr, .p pd
            (if o.size = 1 then entries.all (fun q => state q != 2 && state q != 3) else state pos == 1)] true .data)) ∧
          (waits = true ∨ held = true → ∃ t, exec (.kvad o) s = .next t ∧
            t.me.lb = s.me.lb ++ [⟨s.posId, s.me.vcc + 4, [addr], false, false, .kvad desc pos l (o.size == 1) pd, []⟩] ∧
            ⟨s.posId, .order .acqLoad 0 0 0, false⟩ ∈ t.me.wq ∧
            t.mem = s.mem ∧ (∀ r, t.me.reg r = s.me.reg r) ∧ (∀ r, t.me.pred r = s.me.pred r)))))) ∧
  (∀ (s : State) (a b : BitVec 6),
    let va := (s.me.val a.toNat).toNat
    let w := (seen s).natAt (windowCell (gidOf s.cur) va) 32
    let root := (s.space s.cur).2
    let desc := w / 2 ^ 192 % 2 ^ 64
    let pos := w / 2 ^ 96 % 2 ^ 32
    let layer := w / 2 ^ 84 % 2 ^ 12
    let entry := w / 2 ^ 72 % 2 ^ 12
    let k := s.taskOf s.cur
    let status := fun (t : State) (n : Nat) => exec (.bfq a b) s = .next (t.landEntry 4 [.g b.toNat (BitVec.ofNat 64 n) false] true .data)
    let add := fun (t : State) (die : Nat) => (t.nameSeqOf k.ctx desc).addJob die k.ctx (State.microOf k).recIdx (State.microOf k).spans
      (State.microOf k).dims s.me.scopeId desc (w / 2 ^ 128 % 2 ^ 64) pos layer entry (w / 2 ^ 68 % 16)
    let dead := s.deadAt (clusterOf s.cur) s.me.scopeId
    let bad := decide (w % 2 ^ 68 ≠ 0 ∨ (s.entryAt (clusterOf s.cur) entry).width ≠ 0 ∨ desc = 0 ∨ desc % 64 ≠ 0)
    (s.me.pois a.toNat = true → exec (.bfq a b) s = .next (s.raise .poison)) ∧
    (s.me.pois a.toNat = false → va % 32 ≠ 0 → exec (.bfq a b) s = .next (s.raiseVa .align va .load 0)) ∧
    (s.me.pois a.toNat = false → va % 32 = 0 → s.inScratch s.cur va 32 = false → exec (.bfq a b) s = .next (s.raiseVa .accv va .load 0)) ∧
    (s.me.pois a.toNat = false → va % 32 = 0 → s.inScratch s.cur va 32 = true →
      (dead = true → status s 2) ∧
      (dead = false → bad = true → status s 3) ∧
      (dead = false → bad = false → ∀ c, s.seqUse root desc = .error c → status s 3) ∧
      (dead = false → bad = false → ∀ d, s.seqUse root desc = .ok d →
        let die := s.jobDie root d pos layer
        let st := s.kvStateOr root d pos layer
        let hwm := s.hwmOf root d layer
        let free := st = 3 ∨ (st = 0 ∧ pos = hwm ∧ pos < d.length)
        let full := 4096 ≤ (s.backfill.get [] die).length
        (d.layers ≤ layer → status s 3) ∧
        (layer < d.layers → full → status s 1) ∧
        (layer < d.layers → ¬ full → st = 2 → status (add s die) 0) ∧
        (layer < d.layers → ¬ full → st ≠ 2 → ¬ free → status s 3) ∧
        (layer < d.layers → ¬ full → free → s.poolSize = 0 → status s 3) ∧
        (layer < d.layers → ¬ full → free → s.poolSize ≠ 0 →
          (s.inTurn (2, 0) (s.cowPos root desc pos) = .wait ∨ s.inTurn (2, 0) (s.cowPos root desc pos) = .busy → status s 1) ∧
          (∀ t d1, s.inTurn (2, 0) (s.cowPos root desc pos) = .ok t → t.seqDesc root desc = .ok d1 →
            let die1 := t.jobDie root d1 pos layer
            (4096 ≤ (t.backfill.get [] die1).length → status s 1) ∧
            ((t.backfill.get [] die1).length < 4096 →
              let u := t.setKvState root d1 pos layer 2
              status (add (if st = 0 then u.setHwm root d1 layer (hwm + 1) else u) die1) 0)))) ∧
      ∀ (t : State) (die : Nat), let u := add t die
        let j := u.task t.nextId
        u.backfill.get [] die = t.backfill.get [] die ++ [t.nextId] ∧ u.strands = t.strands ∧ u.nextId = t.nextId + 1 ∧
        j.kind = .backfill ∧ j.status = .queued ∧ j.scopeId = s.me.scopeId ∧ j.prio = w / 2 ^ 68 % 16 ∧ j.ctx = k.ctx ∧
        (State.microOf j).entry = entry ∧ (State.microOf j).origin = [w / 2 ^ 128 % 2 ^ 64, pos, layer, 0, 0, 0] ∧
        (j.crs.get 0 0x005).toNat = pos + 1 ∧ (j.crs.get 0 0x009).toNat = desc))

/-- R505 to R508, R509, R510, R512, R513, R234, R236: ST, STX, STL and STV to the scratchpads, and their traps; every byte
outside the stored ones reads as before. Beside it: R177 to R179, R236, R505: stores to translated space. Beside it: R511,
Table 18-3, R101, R120: STP converts the lanes of a row, one rounding each, and stores them densely. -/
def Obligations.StoresEverywhere : Prop :=
  ((∀ (o : LMFields) (s : State), s.me.guard o.G = true →
    let a := ea (s.me.val o.base.toNat) o.off
    let n := bytesOf o.size.toNat
    let w := 64 * 2 ^ o.size.toNat
    let row := rowBase (gidOf s.cur) (vr s o.d)
    let data := leBytes n (s.me.val o.d.toNat).toNat
    let scalar := fun (i : Instr) (rel : Bool) (scope : Nat) =>
      (s.me.pois o.base.toNat = true ∨ s.me.pois o.d.toNat = true → exec i s = .next (s.raise .poison)) ∧
      (s.me.pois o.base.toNat = false → s.me.pois o.d.toNat = false →
        (a % n ≠ 0 → exec i s = .next (s.raiseVa .align a .store 0)) ∧
        (a % n = 0 →
          (∀ c, s.place s.cur a n = .own c ∨ s.place s.cur a n = .peer c → Stores i s a [(c, n)] data rel scope) ∧
          (∀ r c, s.place s.cur a n = .am r c → exec i s = .next (s.raiseVa .accv a .store 0)) ∧
          (s.place s.cur a n = .none → exec i s = .next (s.raiseVa .accv a .store 0))))
    let rows := fun (i : Instr) =>
      (s.me.pois o.base.toNat = true ∨ s.poisonIn row 512 = true → exec i s = .next (s.raise .poison)) ∧
      (s.me.pois o.base.toNat = false → s.poisonIn row 512 = false →
        (a % 64 ≠ 0 → exec i s = .next (s.raiseVa .align a .store 0)) ∧
        (a % 64 = 0 →
          (∀ c, s.place s.cur a w = .own c ∨ s.place s.cur a w = .peer c → Stores i s a [(c, w)] (s.bytesAt row w) false 0) ∧
          (∀ r c, s.place s.cur a w = .am r c → exec i s = .next (s.raiseVa .accv a .store 0)) ∧
          (s.place s.cur a w = .none → exec i s = .next (s.raiseVa .accv a .store 0))))
    ((Instr.st o).wf = true → scalar (.st o) false 0) ∧ ((Instr.stl o).wf = true → scalar (.stl o) true o.scope.toNat) ∧
    ((Instr.stx o).wf = true → o.vec = false → scalar (.stx o) false 0) ∧
    ((Instr.stv o).wf = true → rows (.stv o)) ∧ ((Instr.stx o).wf = true → o.vec = true → rows (.stx o)) ∧
    (∀ (c : Nat) (bs : List Byte), targetOf (c % 2 ^ 48) = .hbm →
      let t := s.writePieces [(c, bs.length)] bs
      t.strands = s.strands ∧ t.cores = s.cores ∧ (Memory.wf s.mem = true → t.bytesAt c bs.length = bs) ∧
      ∀ x, x < c ∨ c + bs.length ≤ x → t.peek x = s.peek x)) ∧
  (∀ (o : LMFields) (s : State), s.me.guard o.G = true → s.me.pois o.base.toNat = false →
    let a := ea (s.me.val o.base.toNat) o.off
    let n := bytesOf o.size.toNat
    let w := 64 * 2 ^ o.size.toNat
    let row := rowBase (gidOf s.cur) (vr s o.d)
    let sp := s.space s.cur
    let die := dieOf (gidOf s.cur)
    let case := fun (i : Instr) (bs : List Byte) (rel : Bool) (scope : Nat) =>
      let x : Access := ⟨a, bs.length, s.slot, .store bs rel scope, false⟩
      s.place s.cur a bs.length = .translated →
        (∀ ps, s.l1Places x = some ps → Stores i s a ps bs rel scope) ∧
        (s.l1Places x = none → (∃ c ∈ pageCut a bs.length, s.tlbHit die sp.1 c.1 = none) →
          exec i s = .next (s.updMe (fun t => { t with xlat := t.xlat ++ [x] }))) ∧
        (∀ e, s.l1Places x = none → a % 65536 + bs.length ≤ 65536 → s.tlbHit die sp.1 a = some e →
          (e.wr = true → targetFault s (isCtrl s.cur) x.op (e.pa + (a - e.va)) bs.length = none →
            Stores i s a [(e.pa + (a - e.va), bs.length)] bs rel scope) ∧
          (e.wr = false → exec i s = .next (s.raiseVa .accv a .store (sizeLevel e.size))))
    ((Instr.st o).wf = true → s.me.pois o.d.toNat = false → a % n = 0 →
      case (.st o) (leBytes n (s.me.val o.d.toNat).toNat) false 0) ∧
    ((Instr.stl o).wf = true → s.me.pois o.d.toNat = false → a % n = 0 →
      case (.stl o) (leBytes n (s.me.val o.d.toNat).toNat) true o.scope.toNat) ∧
    ((Instr.stx o).wf = true → o.vec = false → s.me.pois o.d.toNat = false → a % n = 0 →
      case (.stx o) (leBytes n (s.me.val o.d.toNat).toNat) false 0) ∧
    ((Instr.stv o).wf = true → s.poisonIn row 512 = false → a % 64 = 0 → case (.stv o) (s.bytesAt row w) false 0) ∧
    ((Instr.stx o).wf = true → o.vec = true → s.poisonIn row 512 = false → a % 64 = 0 → case (.stx o) (s.bytesAt row w) false 0))) ∧
  (∀ (o : LMFields) (s : State), (Instr.stp o).wf = true → s.me.guard o.G = true →
    let a := ea (s.me.val o.base.toNat) o.off
    let acc := s.me.fmtr.toNat / 256 % 4
    let fmt := s.me.fmtr.toNat % 16
    let m := 64 * 2 ^ o.size.toNat / (if acc = 2 then 8 else 4)
    let e := fmtBits fmt / 8
    let row := vr s o.d
    let poisoned := s.me.pois o.base.toNat || s.poisonIn (rowBase (gidOf s.cur) row) 512
    let pair := (acc = 0 ∧ ((1 ≤ fmt ∧ fmt ≤ 5) ∨ fmt = 8)) ∨ (acc = 1 ∧ fmt = 8) ∨ (acc = 2 ∧ fmt ≤ 5)
    let same := (acc = 0 ∧ fmt = 1) ∨ (acc = 2 ∧ fmt = 0)
    let val := fun i => if acc = 0 then Fmt.fp32.read (lane s row 0 i)
      else if acc = 1 then ofInt (BitVec.ofNat 32 (lane s row 0 i)).toInt else Fmt.fp64.read (lane s row 1 i)
    let r := rounds s 6 (decide (2 ≤ fmt)) (s.me.sat && !decide same) m
    (poisoned = true → exec (.stp o) s = .next (s.raise .poison)) ∧
    (poisoned = false → ¬pair ∨ s.me.fmtr.toNat / 65536 % 4 = 3 ∨ r = none → exec (.stp o) s = .next (s.raise .illfmt)) ∧
    (poisoned = false → pair → s.me.fmtr.toNat / 65536 % 4 ≠ 3 → r ≠ none → a % Nat.min 64 (m * e) ≠ 0 →
      exec (.stp o) s = .next (s.raiseVa .align a .store 0)) ∧
    (∀ t rs, poisoned = false → pair → s.me.fmtr.toNat / 65536 % 4 ≠ 3 → r = some (t, rs) → a % Nat.min 64 (m * e) = 0 →
      ∀ c, s.place s.cur a (m * e) = .own c ∨ s.place s.cur a (m * e) = .peer c →
        freeWrite s a (m * e) [(c, m * e)] → s.slotFailed = false → s.me.xlat.any (fun x => x.slot == s.slot) = false →
        exec (.stp o) s = .next ((t.noteParts (s.writer s.cur) [(c, m * e)]).writePieces [(c, m * e)]
          ((List.range m).map (fun i => leBytes e (elemCode fmt (rs.getD i (Rnd.rne false)) (val i)))).flatten)))

/-- R368 to R371, Table 15-2, R454: the atomics and the reductions act on their word in one step and return what it held. -/
def Obligations.AtomicsAndReductions : Prop :=
  ∀ (o : WAFields) (s : State),
    let x := (s.me.val o.s.toNat).toNat
    let n := if o.ty.toNat % 2 = 0 then 32 else 64
    let fl := decide (2 ≤ o.ty.toNat)
    let f := if o.ty.toNat = 2 then Fmt.fp32 else Fmt.fp64
    let y := BitVec.ofNat n x
    let w := fun old => BitVec.ofNat n old
    let bad := s.me.pois o.base.toNat || s.me.pois o.s.toNat
    let add := fun old => some (if fl then f.add (Rnd.rne false) old y.toNat else (w old + y).toNat)
    let max := fun old => some (if fl then f.max old y.toNat else if (w old).slt y then y.toNat else old)
    ((Instr.aadd o).wf = true → AtomicAt (.aadd o) o s bad add) ∧
    ((Instr.amin o).wf = true →
      AtomicAt (.amin o) o s bad (fun old => some (if fl then f.min old y.toNat else if y.slt (w old) then y.toNat else old))) ∧
    ((Instr.amax o).wf = true → AtomicAt (.amax o) o s bad max) ∧
    ((Instr.aand o).wf = true → AtomicAt (.aand o) o s bad (fun old => some (w old &&& y).toNat)) ∧
    ((Instr.aor o).wf = true → AtomicAt (.aor o) o s bad (fun old => some (w old ||| y).toNat)) ∧
    ((Instr.axor o).wf = true → AtomicAt (.axor o) o s bad (fun old => some (w old ^^^ y).toNat)) ∧
    ((Instr.axch o).wf = true → AtomicAt (.axch o) o s bad (fun _ => some y.toNat)) ∧
    ((Instr.acas o).wf = true → AtomicAt (.acas o) o s (bad || s.me.pois o.d.toNat)
      (fun old => if w old = (s.me.val o.d.toNat).setWidth n then some y.toNat else none)) ∧
    ((Instr.radd o).wf = true → AtomicAt (.radd o) o s bad add) ∧
    ((Instr.rmax o).wf = true → AtomicAt (.rmax o) o s bad max)

/-- R199 to R203, R207, R299, R301, R302, R406 to R409, R413, R457, Table 8-2: the operations of a copy channel are queued
with what they capture, unless a test fails; CPYN sets a level of its channel's nest. Beside it: R211, R212, R390: BCAST puts
the bytes at its address on its braid's lanyard for this step, but for a lower member's that stand there already; on a slack
strand it does nothing. -/
def Obligations.CopyOperations : Prop :=
  (∀ (o : XFields) (s : State),
    let g1 := (s.me.val o.g1.toNat).toNat
    let g2 := (s.me.val o.g2.toNat).toNat
    let g3 := (s.me.val o.g3.toNat).toNat
    let ch := o.ch.toNat
    let poison := (s.me.pois o.g1.toNat || s.me.pois o.g2.toNat || s.me.pois o.g3.toNat, TrapClass.poison, (⟨0, 0, 0⟩ : FaultInfo))
    let full := (o.prod.toNat != 0 && decide (255 ≤ (s.me.tok o.prod.toNat).outst), TrapClass.tokovf, (⟨0, 0, 0⟩ : FaultInfo))
    let shape := fun (b : Bool) => (b, TrapClass.illshape, (⟨0, 0, 0⟩ : FaultInfo))
    let case := fun (i : Instr) (kind : XKind) (plan : XPlan) (total : Nat) tests => ∃ op, CapturedCopy s o op ∧ op.kind = kind ∧
      op.plan = plan ∧ op.total = total ∧ TestsThen i s (queuedCopy s ch op) tests
    case (.cpy o) .copy (.linear g1 g2 g3) (ceilDiv g3 4096) [poison, shape (decide (2 ^ 32 ≤ g3)), full] ∧
    (let levels := (List.range 6).map (fun l => s.me.cnest.get ⟨1, 0, 0⟩ (6 * ch + l))
     case (.cpygo o) .copy (.nest g1 g2 g3 levels) (levels.foldl (fun p l => p * l.count) 1)
       [poison, shape (g3 == 0 || decide (4096 < g3)), full]) ∧
    (let list := g3 % 2 ^ 32
     let count := g3 / 2 ^ 32 % 4096
     let esz := g3 / 2 ^ 44 % 16
     case (.cpyg o) .copy (.list g1 g2 esz list count (bitAt g3 48)) count [poison, shape (g3 / 2 ^ 49 != 0 || decide (12 < esz)),
       (list % 4 != 0, .align, ⟨list, 0, 0⟩),
       ((List.range count).any (fun i => !s.inScratch s.cur (list + 4 * i) 4), .accv, ⟨list, 0, 0⟩), full]) ∧
    case (.drain o) (.drain o.g1.toNat) .none 0 [full] ∧
    (let index := g2 % 65536
     let cl := g2 / 65536 % 128
     case (.mcw o) .mcw (.store g1 cl index g3) g3
       [poison, shape (g2 / 2 ^ 23 != 0 || g3 == 0 || decide (4096 < g3) || decide (79 < cl) || decide (65536 < index + g3)),
        (g1 % 64 != 0, .align, ⟨g1, 0, 0⟩), (!isCtrl s.cur && decide (index < 0x800), .accv, ⟨0, 0, 0⟩), full]) ∧
    case (.kvcp o) .kvcp .none 0 [poison, shape (g3 / 2 ^ 32 % 2 ^ 31 != 0 || (decide (2 ^ 63 ≤ g3) && g2 != 0)), full] ∧
    case (.pfxl o) .pfxl .none 0 [poison, shape (g3 / 2 ^ 48 != 0), full] ∧
    case (.pfxi o) .pfxi .none 0 [poison, shape (g3 / 2 ^ 48 != 0), full] ∧
    TestsThen (.cpyn o) s (s.setStrand s.cur { s.me with
      cnest := s.me.cnest.set (6 * ch + o.prod.toNat) ⟨g1, s.me.val o.g2.toNat, s.me.val o.g3.toNat⟩ })
      [poison, shape (decide (2 ^ 32 ≤ g1))]) ∧
  (∀ (o : XFields) (s : State),
    let a := (s.me.val o.g1.toNat).toNat
    let n := 64 * 2 ^ o.ch.toNat
    let c := spadBase (gidOf s.cur) + a
    (∀ x, [(s.me.pois o.g1.toNat, TrapClass.poison, (⟨0, 0, 0⟩ : FaultInfo)), (a % 64 != 0, .align, ⟨a, 0, 0⟩),
        (decide (0x400000 < a + n), .accv, ⟨a, 0, 0⟩)].find? (·.1) = some x → exec (.bcast o) s = .next (s.raiseAt x.2.1 x.2.2)) ∧
    (s.me.pois o.g1.toNat = false → a % 64 = 0 → a + n ≤ 0x400000 →
      (s.me.braid = none → exec (.bcast o) s = .next s) ∧
      (∀ b x, s.me.braid = some b → s.braids.get? b = some x →
        ∃ bs, exec (.bcast o) s = .next { s with braids := s.braids.set b { x with bcasts := bs } } ∧
          let mine : Bcast := ⟨s.me.vcc, s.me.member, (seen s).bytesAt c n, (seen s).poisonAt c n⟩
          let lower := x.bcasts.any (fun y => y.vcc == s.me.vcc && decide (y.member ≤ s.me.member))
          (lower = false → bs.find? (fun y => y.vcc == s.me.vcc) = some mine) ∧
          (lower = true → bs.find? (fun y => y.vcc == s.me.vcc) = x.bcasts.find? (fun y => y.vcc == s.me.vcc)) ∧
          ∀ v, v ≠ s.me.vcc → s.me.vcc ≤ v + 3 → bs.find? (fun y => y.vcc == v) = x.bcasts.find? (fun y => y.vcc == v))))

/-- R214 to R218, R220, R405, R480, R482, R483, R489, R494: the operations of the communication unit are queued with what they
capture, unless a test fails; SEND and RECV meet the one of their peer that issued at their step. -/
def Obligations.CommunicationOperations : Prop :=
  ∀ (o : NFields) (s : State),
    let g1 := (s.me.val o.g1.toNat).toNat
    let g2 := (s.me.val o.g2.toNat).toNat
    let g3 := (s.me.val o.g3.toNat).toNat
    let p2 := s.me.pois o.g1.toNat || s.me.pois o.g2.toNat
    let p3 := p2 || s.me.pois o.g3.toNat
    let no : FaultInfo := ⟨0, 0, 0⟩
    let full := (o.prod.toNat != 0 && decide (255 ≤ (s.me.tok o.prod.toNat).outst), TrapClass.tokovf, no)
    let transfer := fun (i : Instr) (kind : NKind) (e k : Nat) (data : List Byte) (po : List Bool) =>
      let tests := [(p2, TrapClass.poison, no), (decide (g2 < 4) || decide (4096 < g2) || g2 % e != 0, .illshape, no),
        (g1 % e != 0, .align, ⟨g1, k, 0⟩), (decide (0x400000 < g1 + g2), .accv, ⟨g1, k, 0⟩), full]
      ∃ op, CapturedComm s o op ∧ op.kind = kind ∧ op.data = data ∧ op.dataPo = po ∧ op.started = true ∧ op.lat = 8 ∧ op.paired = false ∧
        (s.peerOf o.peer.toNat = none → TestsThen i s (queuedComm s op) tests) ∧
        (∀ q, s.peerOf o.peer.toNat = some q →
          let op1 := { op with lat := 8 + 2 * (ringHops (gidOf s.cur) (gidOf q) - 1) }
          match (s.core (gidOf q)).nq.find? (fun x => State.pairs op1 x s.me.member q) with
          | none => TestsThen i s (queuedComm s op1) tests
          | some x => ∃ t op2, TestsThen i s (queuedComm t op2) tests ∧ op2.paired = true ∧ op2.id = op.id ∧ op2.lat = op1.lat ∧
              (kind ≠ .send → op2.data = x.data ∧ op2.dataPo = x.dataPo) ∧ t.mem = s.mem ∧ t.strands = s.strands ∧
              ((s.core (gidOf q)).nq.filter (fun y => y.id == x.id) = [x] → ∃ x2, t.commAt (gidOf q) x.id = some x2 ∧
                x2.paired = true ∧ (kind = .send → x2.data = data ∧ x2.dataPo = po)))
    let c := spadBase (gidOf s.cur) + g1
    transfer (.send o) .send 4 0 ((seen s).bytesAt c g2) ((seen s).poisonAt c g2) ∧
    transfer (.recv o) .recv 4 1 [] [] ∧
    (∀ ty, o.g3.toNat = ty → transfer (.recva o) (.recva ty) (if ty = 1 then 8 else 4) 1 [] []) ∧
    (let bad := g2 == 0 || decide (2 ^ 30 < g2) || decide (287 < g3 % 512) || g3 / 512 % 128 != 0 || decide (2 ^ 32 ≤ g3)
     ∃ op, CapturedComm s o op ∧ op.started = false ∧
      TestsThen (.rtr o) s (queuedComm s { op with kind := .rtr })
        [(p3, .poison, no), (bad, .illshape, no), (decide (g1 < 2 ^ 32), .accv, ⟨g1, 1, 0⟩), full] ∧
      TestsThen (.put o) s (queuedComm s { op with kind := .put }) [(p3, .poison, no), (bad, .illshape, no), full] ∧
      TestsThen (.cpln o) s (queuedComm s { op with kind := .cpln (o.peer.toNat % 16), addr := 0, len := 0 })
        [(p3, .poison, no), full])

/-- R210, R268, R495, R503, R529, R530, Table 3-2: KNOT, WAITQ, SLEEP and WAITW pass once their group-start test has, and
trap; the test of WAITQ, SLEEP and WAITW; SETQ sets a counter. Beside it: R234, R235, R378, R414, R484: FENCE, ACQH and RELH
put an ordering event at its place in the write queue, and at STRAND scope none; what the descriptor's translation makes of ACQH
and RELH, and their traps. -/
def Obligations.WaitsAndOrdering : Prop :=
  (∀ (s : State) (q : BitVec 5) (n th : BitVec 8) (a b : BitVec 6) (imm : BitVec 11) (sc : BitVec 3) (cond : BitVec 2),
    let va := (s.me.val a.toNat).toNat
    let x := (s.me.val b.toNat).toNat
    let cycles := if a = 0 then imm.toNat else va
    let waits := fun (i : Instr) (w : Wait) => s.waitTest i = (false, s.updMe (fun t => { t with wait := w }))
    (s.me.handler.isSome = true → ∀ i ∈ [Instr.knot, .waitq q n, .sleep a imm, .waitw a b sc cond], exec i s = .next s.raiseFree) ∧
    (s.me.handler = none →
      exec .knot s = .next s ∧ exec (.waitq q n) s = .next s ∧
      ((s.me.tok q.toNat).outst ≤ n.toNat → s.waitTest (.waitq q n) = (true, s)) ∧
      (n.toNat < (s.me.tok q.toNat).outst → waits (.waitq q n) (.counter q.toNat n.toNat)) ∧
      (a ≠ 0 → s.me.pois a.toNat = true → exec (.sleep a imm) s = .next (s.raise .poison)) ∧
      (a ≠ 0 → s.me.pois a.toNat = false → 2 ^ 32 ≤ va → exec (.sleep a imm) s = .next (s.raise .illshape)) ∧
      (a = 0 ∨ (s.me.pois a.toNat = false ∧ va < 2 ^ 32) → exec (.sleep a imm) s = .next s ∧
        (let till := s.me.timer.getD s.now + cycles
         (till ≤ s.now ∨ s.me.pass = .done → s.waitTest (.sleep a imm) = (true, s)) ∧
         (s.now < till → s.me.pass ≠ .done → waits (.sleep a imm) (.sleep till)))) ∧
      (s.me.pois a.toNat = true ∨ s.me.pois b.toNat = true → exec (.waitw a b sc cond) s = .next (s.raise .poison)) ∧
      (s.me.pois a.toNat = false → s.me.pois b.toNat = false → va % 8 ≠ 0 →
        exec (.waitw a b sc cond) s = .next (s.raiseVa .align va .load 0)) ∧
      (s.me.pois a.toNat = false → s.me.pois b.toNat = false → va % 8 = 0 → isCtrl s.cur = false →
        ∀ c, s.place s.cur va 8 = .own c ∨ s.place s.cur va 8 = .peer c →
          let w := s.natAt c 8
          let met := match cond.toNat with
            | 0 => w == x
            | 1 => w != x
            | 2 => decide (x ≤ w)
            | _ => decide (w < x)
          let held := s.me.heldRead (peerVa s.cur va) 8 || s.me.behindRead [(c, 8)] true
          exec (.waitw a b sc cond) s = .next s ∧
          ((met = true ∧ held = false) ∨ s.me.pass = .done → s.waitTest (.waitw a b sc cond) = (true, s)) ∧
          (met = false ∨ held = true → s.me.pass ≠ .done → waits (.waitw a b sc cond) (.word c va x cond.toNat)))) ∧
    (s.me.pois a.toNat = true → exec (.setq q a th) s = .next (s.raise .poison)) ∧
    (s.me.pois a.toNat = false → 256 ≤ va → exec (.setq q a th) s = .next (s.raise .illshape)) ∧
    (s.me.pois a.toNat = false → va < 256 →
      exec (.setq q a th) s = .next (s.updMe (fun t => t.setTok q.toNat ⟨va, th.toNat, false⟩)))) ∧
  (∀ (s : State) (sc : BitVec 3) (kind : BitVec 2) (a : BitVec 6),
    let va := (s.me.val a.toNat).toNat
    let queue := fun (t : State) (k : OrdKind) (lo hi : Nat) => { t with
      strands := t.strands.set t.cur { t.me with wq := insertItem ⟨t.posId, .order k sc.toNat lo hi, false⟩ t.me.wq } }
    (sc = 0 → exec (.fence sc kind) s = .next s) ∧
    (sc ≠ 0 → exec (.fence sc kind) s = .next (queue s (if kind = 0 then .full else if kind = 1 then .acq else .rel) 0 0)) ∧
    ∀ x ∈ [(Instr.acqh a sc, OrdKind.acqh), (.relh a sc, .relh)],
      (s.me.pois a.toNat = true → exec x.1 s = .next (s.raise .poison)) ∧
      (s.me.pois a.toNat = false →
        (va = 0 → exec x.1 s = .next s) ∧
        (va % 64 ≠ 0 → exec x.1 s = .next (s.raiseVa .align va .load 0)) ∧
        (va ≠ 0 → va % 64 = 0 → va < 2 ^ 32 → exec x.1 s = .next (s.raiseVa .accv va .load 0)) ∧
        (va % 64 = 0 → 2 ^ 32 ≤ va →
          let acc : Access := ⟨va, 64, s.slot, .desc x.2 sc.toNat, false⟩
          let sp := s.space s.cur
          let die := dieOf (gidOf s.cur)
          let goes := fun (t : State) (ps : List (Nat × Nat)) =>
            let h := handleOf (leNat (t.readPieces ps))
            let span := (t.handleSpan va h).getD (1, 0)
            (4 ≤ h.layout → exec x.1 s = .next (t.raise .illshape)) ∧
            (h.layout < 4 → sc = 0 → exec x.1 s = .next t) ∧
            (h.layout < 4 → sc ≠ 0 → exec x.1 s = .next (queue t x.2 span.1 span.2))
          (s.place s.cur va 64 = .none → exec x.1 s = .next (s.raiseVa .accv va .load 0)) ∧
          (s.place s.cur va 64 = .translated →
            (∀ ps, s.l1Places acc = some ps → goes s ps) ∧
            (s.l1Places acc = none → s.tlbHit die sp.1 va = none →
              exec x.1 s = .next (s.updMe (fun t => { t with xlat := t.xlat ++ [acc] }))) ∧
            (∀ e, s.l1Places acc = none → s.tlbHit die sp.1 va = some e →
              (e.rd = false → exec x.1 s = .next (s.raiseVa .accv va .load (sizeLevel e.size))) ∧
              (e.rd = true → targetFault s (isCtrl s.cur) acc.op (e.pa + (va - e.va)) 64 = none →
                ∃ t : State, t.strands = s.strands ∧ t.mem = s.mem ∧ t.tasks = s.tasks ∧ t.ctxs = s.ctxs ∧
                  goes t [(e.pa + (va - e.va), 64)]))))))

/-- R263 to R265, R448, R517: a LOCK of a free scratchpad word is granted and writes the holder's name, one of a held word waits or,
in the try form, is refused; UNLOCK puts its release in the write queue; the traps. -/
def Obligations.LocksAndUnlocks : Prop :=
  ∀ (s : State) (a b : BitVec 6) (pd : BitVec 4) (sc : BitVec 3),
    let va := (s.me.val a.toNat).toNat
    let id := s.module * 2 ^ 16 + s.cur
    let both := fun (out : State) => exec (.lock a b sc) s = .next out ∧ exec (.lockTry pd a b sc) s = .next out
    (s.me.handler.isSome = true → both s.raiseFree) ∧
    (s.me.handler = none →
      (∀ old g, s.me.pass = .lock old g →
        exec (.lock a b sc) s = .next (s.land 1 (.g b.toNat (BitVec.ofNat 64 old) false)) ∧
        exec (.lockTry pd a b sc) s = .next ((s.land 1 (.g b.toNat (BitVec.ofNat 64 old) false)).land 1 (.p pd.toNat g))) ∧
      (s.me.pass = .none →
        (s.me.pois a.toNat = true → both (s.raise .poison)) ∧
        (s.me.pois a.toNat = false → va % 8 ≠ 0 → both (s.raiseVa .align va .atomic 0)) ∧
        (s.me.pois a.toNat = false → va % 8 = 0 → isCtrl s.cur = false →
          ∀ c, s.place s.cur va 8 = .own c ∨ s.place s.cur va 8 = .peer c →
            let w := s.natAt c 8
            let held := bitAt w 63
            s.me.heldRead (peerVa s.cur va) 8 = false → s.me.behindRead [(c, 8)] true = false →
            (held = true → w % 2 ^ 25 = id → both (s.raise .lockself)) ∧
            (held = false → (s.lockUnit c).handing = false → id < 2 ^ 25 → ∃ t : State,
              exec (.lock a b sc) s = .next (t.land 1 (.g b.toNat (BitVec.ofNat 64 w) false)) ∧
              exec (.lockTry pd a b sc) s = .next ((t.land 1 (.g b.toNat (BitVec.ofNat 64 w) false)).land 1 (.p pd.toNat true)) ∧
              (Memory.wf s.mem = true → t.natAt c 8 = 2 ^ 63 + (if bitAt w 62 then 2 ^ 62 else 0) + id) ∧
              (∀ x, x < c ∨ c + 8 ≤ x → t.peek x = s.peek x) ∧
              (t.lockUnit c).holder = some (s.cur, s.me.task) ∧ (t.lockUnit c).waiters = (s.lockUnit c).waiters ∧
              (∀ k, k ≠ c → t.lockUnit k = s.lockUnit k) ∧ (∀ r, t.me.reg r = s.me.reg r) ∧ (∀ p, t.me.pred p = s.me.pred p)) ∧
            (held = true → w % 2 ^ 25 ≠ id →
              exec (.lockTry pd a b sc) s = .next ((s.land 1 (.g b.toNat (BitVec.ofNat 64 w) false)).land 1 (.p pd.toNat false)) ∧
              ((s.lockUnit c).waiters.all (fun x => x.sid != s.cur) = true → ∃ t, s.waitTest (.lock a b sc) = (false, t) ∧
                t.me.wait = .lock c ∧ (t.lockUnit c).waiters = (s.lockUnit c).waiters ++ [⟨s.cur, s.nextId⟩] ∧ t.mem = s.mem))))) ∧
    (s.me.pois a.toNat = true → exec (.unlock a sc) s = .next (s.raise .poison)) ∧
    (s.me.pois a.toNat = false → va % 8 ≠ 0 → exec (.unlock a sc) s = .next (s.raiseVa .align va .atomic 0)) ∧
    (s.me.pois a.toNat = false → va % 8 = 0 → isCtrl s.cur = false →
      ∀ c, s.place s.cur va 8 = .own c ∨ s.place s.cur va 8 = .peer c →
        let w := s.natAt c 8
        let again := (earlier s).wq.any (fun i => match i.what with
          | .write _ qs (.unlock _) => piecesMeet [(c, 8)] qs
          | _ => false)
        (bitAt w 63 = true → w % 2 ^ 25 = id → again = false → exec (.unlock a sc) s = .next { s with
          strands := s.strands.set s.cur { s.me with
            wq := insertItem ⟨s.posId, .write (peerVa s.cur va) [(c, 8)] (.unlock sc.toNat), false⟩ s.me.wq } }) ∧
        (bitAt w 63 = false ∨ w % 2 ^ 25 ≠ id ∨ again = true → exec (.unlock a sc) s = .next (s.raiseVa .accv va .atomic 0)))

/-- R253 to R255, R259, R504: SPAWN places a child with its parent's arguments, or lands false; one that
blocks parks instead; its traps. Beside it: R305 to R308, R399, R492: CANCEL marks its scope and counts in its counter; SCOPE.open enters a scope of its own, and SCOPE.close
closes it; their traps. -/
def Obligations.SpawnsCancelsScopes : Prop :=
  (∀ (s : State) (pd : BitVec 4) (a b : BitVec 6),
    let word := (s.me.val a.toNat).toNat
    let cl := clusterOf s.cur
    let k := s.task s.me.task
    let entry := s.entryAt cl (word % 4096)
    let poisoned := s.me.pois a.toNat || s.me.pois b.toNat
    let off := s.updTask s.me.task (fun k => { k with hold := k.hold.erase s.cur })
    (off.strands = s.strands ∧ off.mem = s.mem ∧ (off.task s.me.task).hold = k.hold.erase s.cur) ∧
    (s.me.handler.isSome = true → exec (.spawnB pd a b) s = .next s.raiseFree) ∧
    ∀ i, (i = .spawnNb pd a b ∨ (i = .spawnB pd a b ∧ s.me.handler = none)) →
      (poisoned = true → exec i s = .next (off.raise .poison)) ∧
      (poisoned = false → 2 ^ 17 ≤ word → exec i s = .next (off.raise .illshape)) ∧
      (poisoned = false → word < 2 ^ 17 → entry.bad = true → exec i s = .next (off.raise .illenc)) ∧
      (poisoned = false → word < 2 ^ 17 → entry.bad = false →
        (s.deadAt cl s.me.scopeId = true → exec i s = .next (off.land 1 (.p pd.toNat false))) ∧
        (s.deadAt cl s.me.scopeId = false → s.canSpawn s.cur = false →
          (i = .spawnNb pd a b → exec i s = .next (s.land 1 (.p pd.toNat false))) ∧
          (i = .spawnB pd a b → exec i s = .next (s.updTask s.me.task (fun k => { k with saving := some .parked, asker := s.cur })))) ∧
        (s.deadAt cl s.me.scopeId = false → s.canSpawn s.cur = true → ∃ t : State, exec i s = .next (t.land 1 (.p pd.toNat true)) ∧
          t.strands = s.strands ∧ t.nextId = s.nextId + 1 ∧
          (let c := t.task s.nextId
           c.kind = .child ∧ c.status = .pool ∧ c.ctx = k.ctx ∧ c.record = k.record ∧ c.cluster = cl ∧ c.width = entry.width + 1 ∧
           c.amRows = entry.amRows ∧ c.home = s.me.scopeId ∧ c.scopeId = s.me.scopeId ∧ c.prio = word / 4096 % 16 ∧
           c.steal = bitAt word 16 ∧ c.weight = (if s.weighted k.ctx then k.weight / 2 else 0) ∧ c.after = some (s.cur, s.posId) ∧
           (State.microOf c).entry = word % 4096 ∧ (State.microOf c).origin = [(s.me.val b.toNat).toNat, 0, 0, 0, 0, 0] ∧
           (∀ r, r = 13 ∨ r = 15 ∨ (16 ≤ r ∧ r < 22) → (r, s.me.val r) ∈ c.args)) ∧
          (∀ r, s.records.get? k.record = some r → ∃ r2, t.records.get? k.record = some r2 ∧ r2.total = r.total + 1 ∧
            r2.spawned = true ∧ r2.returned = r.returned)))) ∧
  (∀ (s : State) (a b : BitVec 6) (q : BitVec 5) (pd : BitVec 4),
    let target := (s.me.val a.toNat).toNat
    let word := (s.me.val b.toNat).toNat
    let c := s.me.scopeId
    let foreign := match s.scopes.get? target with
      | some e => e.ctx != (s.me.val 15).toNat
      | none => false
    (∀ x, [(s.me.pois a.toNat || s.me.pois b.toNat, TrapClass.poison, (⟨0, 0, 0⟩ : FaultInfo)), (decide (65536 ≤ target), .illshape,
        ⟨0, 0, 0⟩), (word % 8 != 0, .align, ⟨word, 1, 0⟩), (word != 0 && decide (word < 2 ^ 32), .accv, ⟨word, 1, 0⟩),
        (target == 0 || foreign, .accv, ⟨0, 0, 0⟩), (q != 0 && decide (255 ≤ (s.me.tok q.toNat).outst), .tokovf, ⟨0, 0, 0⟩)].find? (·.1) =
        some x → exec (.cancel a b q) s = .next (s.raiseAt x.2.1 x.2.2)) ∧
    (s.me.pois a.toNat = false → s.me.pois b.toNat = false → 0 < target → target < 65536 → word % 8 = 0 → (word = 0 ∨ 2 ^ 32 ≤ word) →
      foreign = false → (q = 0 ∨ (s.me.tok q.toNat).outst < 255) → ∃ t, exec (.cancel a b q) s = .next t ∧
        t.me.tok q.toNat = (s.me.produce q.toNat).tok q.toNat ∧ (∀ r, t.me.reg r = s.me.reg r) ∧
        (∀ e, s.scopes.get? target = some e → t.scopes.get? target = some { e with cancelled := true }) ∧
        (∀ n, n ≠ target → t.scopes.get? n = s.scopes.get? n) ∧
        ∃ op, t.cancels.get? s.nextId = some op ∧ op.target = target ∧ op.void = (s.scopes.get? target).isNone ∧ op.word = word ∧
          op.prod = q.toNat ∧ op.sid = some s.cur ∧ op.killed = 0 ∧ op.removed = 0 ∧ op.taken = s.takenAlready target) ∧
    (let no := exec (.scopeOpen pd a) s = .next (s.landEntry 4 [.g a.toNat 0 false, .p pd.toNat false] true .data)
     (s.scopes.get? c = none → no) ∧
     (∀ e, s.scopes.get? c = some e →
       (s.freeScope = none ∨ s.scopeCancelled c = true ∨ e.depth = 15 → no) ∧
       (∀ n, s.freeScope = some n → s.scopes.get? n = none → s.scopeCancelled c = false → e.depth ≠ 15 →
         ∃ t : State, exec (.scopeOpen pd a) s = .next (t.landEntry 4
             [.g a.toNat (BitVec.ofNat 64 n) false, .p pd.toNat true, .scope n] true .data) ∧
           t.scopes.get? n = some ⟨0, false, false, e.depth + 1, e.ctx, c⟩ ∧ t.scopes.get? c = some { e with live := e.live + 1 } ∧
           (∀ m, m ≠ n → m ≠ c → t.scopes.get? m = s.scopes.get? m) ∧ t.me = { s.me with opened := s.me.opened + 1, opens := n :: s.me.opens }))) ∧
    (s.me.opened = 0 → exec .scopeClose s = .next (s.raise .accv)) ∧
    (0 < s.me.opened → ∀ e, s.scopes.get? c = some e → 0 < e.live → ∃ t : State,
      exec .scopeClose s = .next (t.landEntry 4 [.scope e.parent] true .data) ∧ t.me = { s.me with opened := s.me.opened - 1, opens := s.me.opens.erase c } ∧
      t.scopes.get? c = some { e with closed := true }))

/-- R419, R420, R422, R426, R430: loops, branches, calls and dimension registers: the walker goes on at its next record or at
its target, and nothing else changes. Beside it: R425, R428, R435, R421: what a record waits for: G.JOIN for counters or for
all earlier work, G.RET for all of it at the end of the program, which frees the context, and G.YIELD for a time or for
another value of a doorbell word. -/
def Obligations.GraphControl : Prop :=
  (∀ (r : GFields) (s : State),
    let w := s.wk
    let a := dimA r
    let b := dimB r
    let disp := r.imm32.toInt
    let trap := fun (i : Instr) (c : TrapClass) => exec i s = .next (s.walkerTrap c 0)
    exec (.gLoop r) s = .next (recordOver s (withDim w a 0) (if a = b ∨ dimOf s b = 0 then disp else 1)) ∧
    (let v := (dimOf s a + 1) % 2 ^ 64
     exec (.gEndloop r) s = .next (recordOver s (withDim w a v) (if a ≠ b ∧ v < dimOf s b then disp else 1))) ∧
    ((Instr.gBr r).wf = true →
      let taken : Prop := match r.spec16.toNat / 4096 with
        | 0 => True
        | 1 => dimOf s a = dimOf s b
        | 2 => dimOf s a ≠ dimOf s b
        | 3 => dimOf s a < dimOf s b
        | _ => dimOf s b ≤ dimOf s a
      (taken → exec (.gBr r) s = .next (recordOver s w disp)) ∧ (¬taken → exec (.gBr r) s = .next (recordOver s w 1))) ∧
    (w.stack.length < 15 → exec (.gCall r) s = .next (recordOver s { w with stack := (w.gpc + 32) % 2 ^ 64 :: w.stack } disp)) ∧
    (15 ≤ w.stack.length → trap (.gCall r) .accv) ∧
    ((Instr.gSetdim r).wf = true →
      (r.flags = 0 → exec (.gSetdim r) s = .next (recordOver s (withDim w a r.imm32.toNat) 1)) ∧
      (r.flags = 1 → exec (.gSetdim r) s = .next (recordOver s
        { w with d := w.d.set a ((w.d.get 0 b) + r.imm32.signExtend 64) } 1)) ∧
      (r.flags = 2 → r.spec64.toNat % 8 ≠ 0 → trap (.gSetdim r) .align) ∧
      (r.flags = 2 → r.spec64.toNat % 8 = 0 →
        (∀ v, s.wread r.spec64.toNat 8 = .ok v → exec (.gSetdim r) s = .next (recordOver s
          { w with d := w.d.set a (BitVec.ofNat 64 v + r.imm32.signExtend 64) } 1)) ∧
        (∀ c, s.wread r.spec64.toNat 8 = .error c → trap (.gSetdim r) c)))) ∧
  (∀ (r : GFields) (s : State),
    let w := s.wk
    let va := r.spec64.toNat
    let mask := r.imm32.toNat
    let trap := fun (i : Instr) (c : TrapClass) => exec i s = .next (s.walkerTrap c 0)
    (let left := (mask = 0 ∧ workLeft s) ∨ (mask ≠ 0 ∧ ∃ j, j < 16 ∧ mask.testBit j = true ∧ w.j.get 0 j ≠ 0)
     (left → exec (.gJoin r) s = .next (recordWaits s .record)) ∧ (¬left → exec (.gJoin r) s = .next (recordOver s w 1))) ∧
    (va % 8 ≠ 0 → trap (.gRet r) .align) ∧
    (va % 8 = 0 → ∀ pc rest, w.stack = pc :: rest → pc < 2 ^ 64 →
      exec (.gRet r) s = .next (recordOver s { w with stack := rest, gpc := pc } 0)) ∧
    (va % 8 = 0 → w.stack = [] →
      (workLeft s → exec (.gRet r) s = .next (recordWaits s .record)) ∧
      (¬workLeft s → (∀ c, va ≠ 0 → s.putWord w.troot va mask = .error c → trap (.gRet r) c) ∧
        (∀ u, (va = 0 ∧ u = s) ∨ (va ≠ 0 ∧ s.putWord w.troot va mask = .ok u) →
          ∃ t, exec (.gRet r) s = .next t ∧ (t.ctx s.curCtx).state = 0 ∧ (t.ctx s.curCtx).wait = .none ∧ t.strands = s.strands ∧
            t.tasks = s.tasks ∧ t.scopes.get? w.root = none ∧ (∀ c, c ≠ s.curCtx → t.ctx c = s.ctx c)))) ∧
    ((Instr.gYield r).wf = true →
      (r.flags = 0 → exec (.gYield r) s = .next (recordWaits s (.timer (s.now + 1200 * mask)))) ∧
      (r.flags = 1 → va % 8 ≠ 0 → trap (.gYield r) .align) ∧
      (r.flags = 1 → va % 8 = 0 →
        (∀ c, s.wread va 8 = .error c → trap (.gYield r) c) ∧
        (s.wread va 8 = .ok (dimOf s (dimA r)) → exec (.gYield r) s = .next (recordWaits s (.bell va (dimA r)))) ∧
        (∀ v, s.wread va 8 = .ok v → v ≠ dimOf s (dimA r) → exec (.gYield r) s = .next (recordOver s (withDim w (dimA r) v) 1)))))

/-- R307, R421, R429: G.SCOPE opens a child of WSCOPE and makes it current, or closes WSCOPE; G.CANCEL marks its scope, and with WAIT
the context waits for its completion; their walker traps. -/
def Obligations.GraphScopesAndCancels : Prop :=
  ∀ (r : GFields) (s : State),
    let w := s.wk
    let a := dimA r
    let c := w.wscope
    let trap := fun (i : Instr) (x : TrapClass) => exec i s = .next (s.walkerTrap x 0)
    let next := fun (x : Walker) => { x with gpc := (x.gpc + 32) % 2 ^ 64 }
    (s.scopes.get? c = none → trap (.gScopeOpen r) .accv ∧ trap (.gScopeClose r) .accv) ∧
    (w.wopen = 0 → trap (.gScopeClose r) .accv) ∧
    (∀ e, s.scopes.get? c = some e →
      (e.depth = 15 → trap (.gScopeOpen r) .accv) ∧
      (e.depth ≠ 15 → s.freeScope = none → exec (.gScopeOpen r) s = .next (recordWaits s .record)) ∧
      (∀ n, e.depth ≠ 15 → s.freeScope = some n → s.scopes.get? n = none → ∃ t, exec (.gScopeOpen r) s = .next t ∧
        t.wk = next { (if r.flags = 2 then withDim w a n else w) with wscope := n, wopen := w.wopen + 1 } ∧
        (t.ctx s.curCtx).state = 1 ∧ t.scopes.get? n = some ⟨0, false, false, e.depth + 1, e.ctx, c⟩ ∧
        t.scopes.get? c = some { e with live := e.live + 1 } ∧ (∀ m, m ≠ n → m ≠ c → t.scopes.get? m = s.scopes.get? m) ∧
        t.strands = s.strands) ∧
      (0 < w.wopen → ∃ t, exec (.gScopeClose r) s = .next t ∧ t.wk = next { w with wscope := e.parent, wopen := w.wopen - 1 } ∧
        (0 < e.live → t.scopes.get? c = some { e with closed := true } ∧ ∀ m, m ≠ c → t.scopes.get? m = s.scopes.get? m) ∧
        (e.live = 0 → 0 < e.depth → (∀ p, s.scopes.get? e.parent = some p → e.parent ≠ c → 1 < p.live →
          t.scopes.get? c = none ∧ t.scopes.get? e.parent = some { p with live := p.live - 1 })) ∧
        t.strands = s.strands)) ∧
    (let i : Instr := .gCancel r
     let n := dimOf s a
     let word := r.spec64.toNat
     let foreign := match s.scopes.get? n with
       | some e => e.ctx != s.curCtx
       | none => false
     (∀ x, [(decide (65536 ≤ n), TrapClass.illshape), (word % 8 != 0, .align), (word != 0 && decide (word < 2 ^ 32), .accv),
         (n == 0 || foreign, .accv)].find? (·.1) = some x → trap i x.2) ∧
     (0 < n → n < 65536 → word % 8 = 0 → (word = 0 ∨ 2 ^ 32 ≤ word) → foreign = false → ∃ t, exec i s = .next t ∧
       (∀ e, s.scopes.get? n = some e → t.scopes.get? n = some { e with cancelled := true }) ∧
       (∀ m, m ≠ n → t.scopes.get? m = s.scopes.get? m) ∧ t.strands = s.strands ∧ t.tasks = s.tasks ∧ t.nextId = s.nextId + 1 ∧
       (∃ op, t.cancels.get? s.nextId = some op ∧ op.target = n ∧ op.void = (s.scopes.get? n).isNone ∧ op.word = word ∧
         op.sid = none ∧ op.ctx = s.curCtx ∧ op.killed = 0 ∧ op.removed = 0 ∧ op.taken = s.takenAlready n) ∧
       (r.flags = 1 → (t.ctx s.curCtx).state = 2 ∧ (t.ctx s.curCtx).wait = .quiescent s.nextId ∧ t.wk = w) ∧
       (r.flags = 0 → (t.ctx s.curCtx).state = 1 ∧ t.wk = next w)))

/-- R186 to R188, R418, R424, R431, R433: G.ALLOC takes the lowest block of the least order that is free and zeroes it, G.FREE gives
one back, G.TENSOR and G.VIEW write a descriptor that no task uses, and G.SHARD replaces the mesh; their waits and their walker traps. -/
def Obligations.GraphRegionsAndHandles : Prop :=
  ∀ (r : GFields) (s : State),
    let w := s.wk
    let a := dimA r
    let c := s.curCtx
    let imm := r.imm32.toNat
    let trap := fun (i : Instr) (x : TrapClass) => exec i s = .next (s.walkerTrap x 0)
    let next := fun (x : Walker) => { x with gpc := (x.gpc + 32) % 2 ^ 64 }
    (let i : Instr := .gAlloc r
     let cl := r.entry.toNat % 128
     let k := s.cluster cl
     (80 ≤ cl → trap i .accv) ∧
     (cl < 80 → imm = 0 ∨ 2 ^ 22 < imm → trap i .illshape) ∧
     (cl < 80 → ∀ j, imm ≤ 2 ^ j * 4096 → 0 < imm → imm ≤ 2 ^ 22 → (∀ m, m < j → 2 ^ m * 4096 < imm) → k.allocWait = [] →
       ((∀ x ∈ k.regions.free, x.1 < j) →
         (r.flags = 1 → exec i s = .next (recordOver s (withDim w a 0) 1)) ∧
         (r.flags = 0 → ∃ t, exec i s = .next t ∧ (t.ctx c).state = 2 ∧ (t.ctx c).wait = .alloc ∧ t.wk = w ∧
           (t.cluster cl).allocWait = [(c, j)] ∧ (t.cluster cl).regions = k.regions ∧ t.mem = s.mem)) ∧
       (∀ x ∈ k.regions.free, j ≤ x.1 → (∀ y ∈ k.regions.free, j ≤ y.1 → x.1 < y.1 ∨ (x.1 = y.1 ∧ x.2 ≤ y.2)) →
         ∃ t, exec i s = .next t ∧ t.wk = next (withDim w a (2 ^ 20 + cl * 2 ^ 13 + x.2)) ∧ (t.ctx c).state = 1 ∧
           (t.cluster cl).regions.used = (j, x.2) :: k.regions.used ∧
           (t.cluster cl).owners.get? (2 ^ 20 + cl * 2 ^ 13 + x.2) = some c ∧
           (let lo := 2 ^ 58 + (8 * cl + x.2 / 1024) * 2 ^ 22 + x.2 % 1024 * 4096
            (∀ b, lo ≤ b → b < lo + 2 ^ j * 4096 → t.peek b = 0) ∧ ∀ b, b < lo ∨ lo + 2 ^ j * 4096 ≤ b → t.peek b = s.peek b) ∧
           t.strands = s.strands))) ∧
    (let i : Instr := .gFree r
     let id := dimOf s a
     let cl := id / 2 ^ 13 % 128
     let u := id / 1024 % 8 * 1024 + id % 1024
     let k := s.cluster cl
     (id / 2 ^ 20 ≠ 1 ∨ 80 ≤ cl ∨ (∀ x ∈ k.regions.used, x.2 ≠ u) → trap i .accv) ∧
     (id / 2 ^ 20 = 1 → cl < 80 → (∃ x ∈ k.regions.used, x.2 = u) →
       (s.regionNamed id = true → exec i s = .next (recordWaits s .rewrite)) ∧
       (s.regionNamed id = false → ∃ t, exec i s = .next t ∧ t.wk = next w ∧ (t.ctx c).state = 1 ∧
         (t.cluster cl).owners.get? id = none ∧ t.mem = s.mem ∧ t.strands = s.strands ∧ (∀ m, m ≠ cl → t.cluster m = s.cluster m) ∧
         (∀ j, k.regions.used.filter (fun x => x.2 == u) = [(j, u)] → ∀ x ∈ (t.cluster cl).regions.used, x.2 ≠ u)))) ∧
    (let va := (w.htva + 64 * r.h0.toNat) % 2 ^ 64
     ∀ v, s.attrWord r.attr.toNat 64 = .ok v → va % 64 = 0 →
       (∀ e, templateFault v = some e → trap (.gTensor r) e ∧ trap (.gView r) e) ∧
       (templateFault v = none → ∀ old, s.wread va 64 = .ok old →
         let keeps := fun (i : Instr) => exec i s = .next (recordWaits s .rewrite)
         let writes := fun (i : Instr) (pa base b129 : Nat) => ∃ t, exec i s = .next t ∧ t.wk = next w ∧ (t.ctx c).state = 1 ∧
           (Memory.wf s.mem = true → t.natAt pa 8 = base ∧ t.natAt (pa + 8) 8 = 0 ∧ t.natAt (pa + 16) 48 % 4 = 1 + 2 * b129 ∧
             t.natAt (pa + 16) 48 / 4 = v / 2 ^ 130) ∧ (∀ b, b < pa ∨ pa + 64 ≤ b → t.peek b = s.peek b) ∧ t.strands = s.strands
         let held := old / 2 ^ 64 % 2 ^ 48 ≠ 0 ∨ s.handleNamed r.h0.toNat = true
         (held → keeps (.gTensor r)) ∧
         (¬held → ∀ pa, s.vplaces w.troot .store [(va, 64)] = .ok [(pa, 64)] →
           writes (.gTensor r) pa (if r.flags = 1 then dimOf s a else v % 2 ^ 64) (v / 2 ^ 129 % 2)) ∧
         (r.h1.toNat ≠ 0 → ∀ src, s.wread ((w.htva + 64 * r.h1.toNat) % 2 ^ 64) 64 = .ok src →
           (src.testBit 128 = false → trap (.gView r) .illenc) ∧
           (src.testBit 128 = true → src.testBit 129 = true → imm ≠ 0 → trap (.gView r) .illshape) ∧
           (src.testBit 128 = true → src.testBit 129 = false ∨ imm = 0 →
             (held → keeps (.gView r)) ∧
             (¬held → ∀ pa, s.vplaces w.troot .store [(va, 64)] = .ok [(pa, 64)] →
               writes (.gView r) pa ((((src % 2 ^ 64 : Nat) : Int) + r.imm32.toInt) % 2 ^ 64).toNat (src / 2 ^ 129 % 2)))))) ∧
    (let i : Instr := .gShard r
     (imm = 0 ∨ 2047 < imm → trap i .illshape) ∧
     (0 < imm → imm ≤ 2047 → ∀ v, s.attrWord r.attr.toNat (8 * (imm + 2)) = .ok v →
       let word := fun n => v / 2 ^ (64 * n) % 2 ^ 64
       let lo := word 1 % 512
       let p := ((List.range 6).map (fun n => word 0 / 2 ^ (10 * n) % 1024)).foldl (· * ·) 1
       let bad := meshBad (word 0) (word 1) ((List.range imm).map (fun n => word (2 + n)))
       (bad = true → trap i .illshape) ∧
       (bad = false → s.module < lo ∨ lo + p ≤ s.module → trap i .accv) ∧
       (bad = false → lo ≤ s.module → s.module < lo + p →
         (workLeft s → exec i s = .next (recordWaits s .record)) ∧
         (¬workLeft s → exec i s = .next (recordOver s
           { w with mesh := (List.range (imm + 2)).map (fun n => BitVec.ofNat 64 (word n)) } 1)))))

/-- R30, R31, R32, R34 to R36, R249, R309, R427, R432: the grid of an operator record and its coordinates, the last dimension fastest; G.OP
and G.SPAWN place the next task of their record in the pool of a cluster of its set, G.SPAWN counts in its join counter, and the record
is over once its tasks are placed, at once under a scope seen cancelled. Where the graph program ends, and which record a bad chained
entry is reported with, are the model's choice (log entries 55 and 56); when a record enters its stage queue is the model's reading (log
entry 28). -/
def Obligations.GraphOperators : Prop :=
  (∀ (gs : List Nat) (t : Nat), t < gs.foldl (fun a b => a * b) 1 →
    let cs := coordsOf t gs
    cs.length = gs.length ∧ (∀ i, i < gs.length → cs.getD i 0 < gs.getD i 0) ∧
    (cs.zip gs).foldl (fun n x => n * x.2 + x.1) 0 = t) ∧
  (∀ (r : GFields) (s : State) (p : Part), s.partOf r = .ok p → p.dims.length = 6 ∧ p.tiles.length = 6 ∧
    ∀ i, i < 6 →
      let d := p.dims.getD i 0
      let x := (s.entryAt 0 r.entry.toNat).tiles.getD i 0
      p.tiles.getD i 0 = if x = 0 ∨ d ≤ x then d else x) ∧
  ∀ (r : GFields) (s : State) (i : Instr) (join : Option Nat),
    (i = .gOp r ∧ join = none) ∨ (i = .gSpawn r ∧ join = some (r.spec16.toNat / 4096)) →
    let c := s.curCtx
    let w := s.wk
    let new := decide ((s.ctx c).issued = 0)
    let id := if new then s.nextId else (s.ctx c).issued
    let t := if new then 0 else (s.ctx c).progress
    let past := (w.gpc + 32 * (r.chain.toNat + 1)) % 2 ^ 64
    let passed := ∃ u, exec i s = .next u ∧ u.wk = { w with gpc := past } ∧ (u.ctx c).issued = 0 ∧ (u.ctx c).state = 1 ∧
      u.tasks = s.tasks ∧ u.strands = s.strands
    let full := join.map (fun j => w.j.get 0 j) = some 65535
    (s.deadAt (88 + c) w.wscope = true → passed) ∧
    (s.deadAt (88 + c) w.wscope = false → r.chain ≠ 0 →
      (Config.programRecords w.gbase).toNat ≤ (((w.gpc : Int) + 32 - w.gbase) % 2 ^ 64).toNat / 32 →
      exec i s = .next (s.walkerTrap .illenc r.entry.toNat)) ∧
    (s.deadAt (88 + c) w.wscope = false → ∀ rs, s.chainRest w.gpc r.chain.toNat = .ok rs →
      (∀ e, s.partsOf (r :: rs) = .error e → exec i s = .next (s.walkerTrap e r.entry.toNat)) ∧
      (∀ p ps set, s.partsOf (r :: rs) = .ok (p :: ps) → s.clusterSet r = .ok set →
        (new = true →
          (∀ e, s.groupBad (p :: ps) set = some e → exec i s = .next (s.walkerTrap e r.entry.toNat)) ∧
          (s.groupBad (p :: ps) set = none → p.total = 0 → passed) ∧
          (s.groupBad (p :: ps) set = none → 0 < p.total → full → exec i s = .next (recordWaits s .record)) ∧
          (s.groupBad (p :: ps) set = none → 0 < p.total → s.entersQueue (p :: ps) = true →
            State.stageDepth w.mesh ≤ s.stageq.get 0 c → exec i s = .next (recordWaits s .record))) ∧
        ((new = true → s.groupBad (p :: ps) set = none ∧ 0 < p.total ∧ ¬full ∧
            (s.entersQueue (p :: ps) = true → s.stageq.get 0 c < State.stageDepth w.mesh)) → r.seq = false → set ≠ [] →
          (∀ q ∈ p :: ps, ∀ x ∈ q.named, x.h.region = false) →
          (∀ k ∈ set, s.poolFull k = false ∧ s.boxesIn k + ((p :: ps).map (fun q => (State.boxesOf q t).length)).sum ≤ 1024) →
          ∃ u x name, exec i s = .next u ∧ u.strands = s.strands ∧ u.tasks.get? name = some x ∧ x.kind = .op ∧
            s.nextId ≤ name ∧ (w.mesh = [] → name = if new then s.nextId + 1 else s.nextId) ∧ x.status = .pool ∧
            x.ctx = c ∧ x.record = id ∧ x.cluster ∈ set ∧ (r.mode = 0 → x.cluster = set.getD (t % set.length) 0) ∧ x.ordinal = t ∧
            x.home = w.wscope ∧ x.scopeId = w.wscope ∧ x.prio = r.sched.toNat % 16 ∧ x.micros.length = ps.length + 1 ∧
            (State.microOf x).entry = r.entry.toNat ∧ (State.microOf x).origin = p.origin t ∧ (State.microOf x).extent = p.extent t ∧
            (State.microOf x).recIdx = s.recIndex c ∧ (State.microOf x).dims = w.d ∧ (s.weighted c = false → x.weight = 0) ∧
            (new = true → s.weighted c = true → x.weight = 2 ^ 30) ∧
            (new = true → s.entersQueue (p :: ps) = true → u.stageq.get 0 c = s.stageq.get 0 c + 1) ∧
            (p.total ≤ t + 1 → u.wk.gpc = past ∧ (u.ctx c).issued = 0) ∧
            (t + 1 < p.total → u.wk.gpc = w.gpc ∧ (u.ctx c).issued = id ∧ (u.ctx c).progress = t + 1) ∧
            (new = true → ∀ j, join = some j → u.wk.j.get 0 j = w.j.get 0 j + 1))))

/-- R283, R291 to R295, R423: G.EXIT takes the requesting sequences of its table out of the layer stack: their entries above d(E)
become PENDING with a backfill job each, EXITS holds d(E), EXITED is set and EXREQ cleared; where every sequence has left it transfers;
its advance form sets CUR to the committed length. -/
def Obligations.GraphExits : Prop :=
  ∀ (r : GFields) (s : State),
    let w := s.wk
    let c := s.curCtx
    let table := r.spec64.toNat
    let same := ∃ e ∈ s.records, e.2.ctx = c ∧ e.2.seqt = table
    let both := fun (t : State) => exec (.gExitTest r) s = .next t ∧ exec (.gExitAdv r) s = .next t
    (∀ x, s.namedHandle r.h0.toNat = .error x → both (s.walkerTrap x r.entry.toNat)) ∧
    (∀ h n rest, s.namedHandle r.h0.toNat = .ok h → h.sizes w.d = n :: rest →
      (same → both (recordWaits s .record)) ∧
      (¬same →
        (∀ seqs : Nat → Nat × SeqDesc, (∀ k, k < n → s.seqEntry table k = .ok (seqs k) ∧
            ((seqs k).2.exreq = false ∨ (seqs k).2.exited = true)) →
          ∃ t, exec (.gExitTest r) s = .next t ∧ t.mem = s.mem ∧ t.backfill = s.backfill ∧ t.tasks = s.tasks ∧ t.strands = s.strands ∧
            (∀ k, k < n → (seqs k).1 ∈ (t.ctx c).seqs) ∧ (t.ctx c).state = 1 ∧
            t.wk = { w with gpc := (((w.gpc : Int) + 32 * (if (∀ k, k < n → (seqs k).2.exited = true) ∧ r.imm32 ≠ 0 then r.imm32.toInt
              else 1)) % 2 ^ 64).toNat }) ∧
        (n = 1 → ∀ va d, s.seqEntry table 0 = .ok (va, d) → d.exreq = true → d.exited = false →
          let e := dimOf s (dimA r)
          let p := d.cur
          let left := fun (u : State) =>
            (((if p < d.cap then u.vput w.troot (d.exits + 2 * p) 2 (e % 2 ^ 16) else u).seqFlag w.troot d 63 true).seqFlag w.troot d 62 false)
          ((∀ l, e < l → l < d.layers → s.hwmOf w.troot d l ≠ p) → ∃ t, exec (.gExitTest r) s = .next t ∧ t.mem = (left s).mem ∧
            t.backfill = s.backfill ∧ t.tasks = s.tasks ∧ va ∈ (t.ctx c).seqs) ∧
          (d.layers = e + 2 → s.hwmOf w.troot d (e + 1) = p → ∀ u d1,
            (s.nameSeq va).inTurn (0, c) ((s.nameSeq va).readyPos w.troot va p) = .ok u →
            u.seqDesc w.troot va = .ok d1 →
            let die := u.jobDie w.troot d1 p (e + 1)
            u.jobsFull die = false → u.deadAt (80 + die) u.wk.wscope = false → ∃ t job, exec (.gExitTest r) s = .next t ∧
              t.mem = (left (((u.setKvState w.troot d1 p (e + 1) 2).setHwm w.troot d1 (e + 1) (p + 1)).addJob die c
                (u.recIndex c) ((h.span (n :: rest)).toList.map (fun x => (r.h0.toNat, x.1, x.2))) u.wk.d u.wk.wscope va
                (h.at (n :: rest) [0]) p (e + 1) r.entry.toNat (r.sched.toNat % 16))).mem ∧
              t.backfill.get [] die = u.backfill.get [] die ++ [u.nextId] ∧ t.tasks.get? u.nextId = some job ∧ job.kind = .backfill ∧
              job.status = .queued ∧ job.ctx = c ∧ job.prio = r.sched.toNat % 16 ∧ job.seq = some ⟨va, e + 1, 1, p, false⟩ ∧
              (State.microOf job).entry = r.entry.toNat ∧ (State.microOf job).origin = [h.at (n :: rest) [0], p, e + 1, 0, 0, 0])) ∧
        (n = 0 → exec (.gExitAdv r) s = .next (recordOver s w 1)) ∧
        (n = 1 → ∀ va d, s.seqEntry table 0 = .ok (va, d) → ∃ t, exec (.gExitAdv r) s = .next t ∧
          t.mem = (((s.seqField w.troot d 0 32 (s.committed w.troot d)).seqFlag w.troot d 63 false).seqFlag w.troot d 62 false).mem ∧
          va ∈ (t.ctx c).seqs ∧ (t.ctx c).state = 1 ∧ t.wk = { w with gpc := (w.gpc + 32) % 2 ^ 64 } ∧ t.strands = s.strands)))

/-- R339 to R354, chapter 14: some words of the spec's examples, each decoded in its slot to the instruction it stands for. -/
def Obligations.ExampleWordsDecode : Prop :=
  decodeSlot .s 0x00050001C821 = some (.addi ⟨0, false⟩ false 8 7 5) ∧
  decodeSlot .s 0x000000204302 = some (.sub ⟨0, false⟩ false 3 1 2) ∧
  decodeSlot .s 0x03080001_4719 = some (.bfx ⟨0, false⟩ false 7 5 8 12) ∧
  decodeSlot .s 0x40000020_0531 = some (.movhi ⟨0, false⟩ false 5 2 0x4000) ∧
  decodeSlot .s 0x00040020_4341 = some (.sfmul ⟨0, false⟩ 3 1 2 0 1) ∧
  decodeSlot .c 0xFFFFE001 = some (.br 0x1FFFFC) ∧
  decodeSlot .c 0x000C4809 = some (.chk ⟨0, false⟩ 9 6) ∧
  decodeSlot .v0 0x00204514 = some (.vperm ⟨5, 1, 2, 0, 0, 0, false, ⟨0, false⟩, 0, 0⟩) ∧
  decodeSlot .m 0x0000_0403_0000_4003 = some (.mrot ⟨0x40, 0, 0, 6, 0, 4, 0, 0, 0, 0⟩) ∧
  decodeSlot .l 0x0030_0401_0901 = some (.ld ⟨9, 4, 0x40, 3, 0, ⟨0, false⟩, false⟩) ∧
  decodeSlot .w 0x03A0_4041_8512 = some (.amax ⟨5, 6, 4, 0x10, 2, 2, 3⟩) ∧
  decodeSlot .x 0x0002_2461_4403 = some (.cpygo ⟨4, 5, 6, 1, 2, 1, 0, 0⟩) ∧
  decodeSlot .n 0x2004_0144_0002 = some (.recv ⟨0, 4, 5, 0, 1, 0, 2⟩) ∧
  decodeSlot .y 0x00080485 = some (.relh 18 2) ∧
  decodeSlot .y 0x0030510C = some (.waitw 4 5 4 1) ∧
  decodeSlot .y 1 = some .knot ∧ decodeSlot .y 0 = none ∧ decodeSlot .s 0 = none ∧ decodeSlot .c 0x00006001 ≠ decodeSlot .c 0xFFFFE001

/-- R339, R340, R354, chapter 14: every well-formed slot operation and graph record, with every operand at every value, decodes from
its own word, alone and in a bundle, to itself. -/
def Obligations.WordsRoundTrip : Prop :=
  ∀ i : Instr, i.wf = true →
    (i.isRecord = true → encodeWord i < 2 ^ 256 ∧ decodeG (encodeWord i) = some i) ∧
    ∀ (k : Slot) (f : Nat), i.slot? = some k → encodeWord i < 2 ^ k.range.2 ∧ decodeSlot k (encodeWord i) = some i ∧
      decodeBundle (bundleOfSlot k (encodeWord i) f) = .ok [(k, i)]

/-- R340: what a slot's decoder and the record decoder accept is well formed and is the word of one instruction only, bit for bit, so no
reserved field is dropped; a bundle that decodes gives the operations of its present slots in program order. -/
def Obligations.DecodedWordsAreCanonical : Prop :=
  (∀ (k : Slot) (w : Nat) (i : Instr), decodeSlot k w = some i → i.wf = true ∧ encodeWord i = w) ∧
  (∀ (w : Nat) (i : Instr), decodeG w = some i → i.wf = true ∧ encodeWord i = w ∧ i.isRecord = true) ∧
  ∀ (b : Nat) (ops : List (Slot × Instr)), decodeBundle b = .ok ops →
    b / 2 ^ 12 % 16 = 0 ∧ ops.Pairwise (fun x y => x.1.index < y.1.index) ∧
    (∀ k i, (k, i) ∈ ops ↔ slotPresent b k = true ∧ decodeSlot k (slotWord b k) = some i) ∧
    ∀ k, slotPresent b k = false → slotWord b k = 0

/-- R25, R44, R54, R59, R340, R416: a step runs the decoded instruction: the operation of a strand's prepared bundle, which is the one
fetched at MPC or held for replay, in its slot, after which the bundle closes; the record at a walker's GPC; an event of the agenda. The
agenda is the model's own (log entry 6). In recovery nothing else runs (R325). -/
def Obligations.StepRunsDecodedInstruction : Prop :=
  ∀ (s : State) (rest : List Turn), s.service.removed = false →
    let s0 : State := { s with agenda := rest }
    (s.boot.phase = 2 → ∀ u, s.agenda = u :: rest →
      ((∀ d g, u ≠ .event (.frameReceive d g)) → u ≠ .event .powerOn → (∀ n, u ≠ .cycles n) → step s = .next s0) ∧
      (∀ d g, u = .event (.frameReceive d g) → step s = exec (.frameReceive d g) s0) ∧
      (u = .event .powerOn → step s = exec .powerOn s0)) ∧
    (s.boot.phase ≠ 2 →
    (∀ i : Instr, s.agenda = .event i :: rest → i.isEvent = true → step s = exec i s0) ∧
    (∀ c, s.agenda = .walker c :: rest → (s.ctx c).state = 1 → (s.ctx c).leaving = false →
      let s1 : State := { s0 with curCtx := c }
      (s1.wk.gpc % 32 ≠ 0 → step s = .next (s1.walkerTrap .align 0)) ∧
      (s1.wk.gpc % 32 = 0 →
        (∀ e, s1.wread s1.wk.gpc 32 = .error e → step s = .next (s1.walkerTrap e 0)) ∧
        (∀ w i, s1.wread s1.wk.gpc 32 = .ok w → decodeG w = some i → step s = exec i s1) ∧
        (∀ w, s1.wread s1.wk.gpc 32 = .ok w → decodeG w = none → ∃ e, step s = .next (s1.walkerTrap .illenc e)))) ∧
    (∀ sid, s.agenda = .strand sid :: rest →
      let t := s0.strand sid
      t.braid = none → t.trap = none → t.wait.idle = false → s0.mayRun sid = true →
      ∀ s1 b k i, (s0.transfers sid).prepare sid = (s1, .go b [(k, i)]) → (s1.strand sid).wait.idle = false → (s1.strand sid).mpc ≠ 0 →
        let s2 := s1.openBundle (sid, .go b [(k, i)])
        let u := s2.strand sid
        let s3 : State := { s2 with cur := sid, slot := k.index }
        let s4 := if (usesOf u i).special then s3.updCore (gidOf sid) (fun c => { c with sfu := s2.now + 4 }) else s3
        (((s2.task u.task).kind == .ballast && u.task != 0 && State.ballastBars k i) = false) →
        ∀ s5, exec i s4 = .next s5 → step s = .next (s5.closeGang sid [sid]))) ∧
    (∀ sid b ops s1, s.prepare sid = (s1, .go b ops) →
      ((s.strand sid).replay = none → s.fetch sid (s.strand sid).mpc = .bundle b ∧ decodeBundle b = .ok ops) ∧
      (∀ r, (s.strand sid).replay = some r → b = r.bundle ∧ ∃ all, decodeBundle b = .ok all ∧
        ops = all.filter (fun o => !r.perf.testBit (9 - o.1.index))))

/-- R90, R373: a slot operation whose guard is false has no effect. -/
def Obligations.FalseGuardsDoNothing : Prop :=
  ∀ (i : Instr) (s : State) (G : Guard), (usesOf s.me i).guard = some G → s.me.guard G = false → exec i s = .next s

/-- R4, R88, R90 to R92, R193 to R195: a register, a predicate, a token counter and a byte of memory read back what was last written there,
and no other changes; g0, p0 and q0 read as constants and keep nothing; a full write of a word sets or clears its poison mark. -/
def Obligations.RegistersAndMemory : Prop :=
  (∀ (t : Strand) (r n : Nat) (v : Word) (p : Bool) (x : Tok),
    t.reg 0 = ⟨0, false⟩ ∧ t.setReg 0 v p = t ∧ (r ≠ 0 → (t.setReg r v p).reg r = ⟨v, p⟩) ∧
    (n ≠ r → (t.setReg r v p).reg n = t.reg n) ∧ (∀ m, (t.setReg r v p).pred m = t.pred m ∧ (t.setReg r v p).tok m = t.tok m) ∧
    t.pred 0 = true ∧ t.setPred 0 p = t ∧ (r ≠ 0 → (t.setPred r p).pred r = p) ∧ (n ≠ r → (t.setPred r p).pred n = t.pred n) ∧
    t.tok 0 = ⟨0, 0, false⟩ ∧ t.setTok 0 x = t ∧ (r ≠ 0 → (t.setTok r x).tok r = x) ∧ (n ≠ r → (t.setTok r x).tok n = t.tok n) ∧
    (r ≠ 0 → (t.produce r).tok r = ⟨(t.tok r).outst + 1, (t.tok r).thresh, (t.tok r).canc⟩ ∧
      (t.complete r p).tok r = ⟨(t.tok r).outst - 1, (t.tok r).thresh, (t.tok r).canc || p⟩)) ∧
  (∀ (s : State) (a : Nat) (bs : List Byte) (po : List Bool), Memory.wf s.mem = true →
    let t := s.write a bs po
    Memory.wf t.mem = true ∧ (∀ i, i < bs.length → t.peek (a + i) = bs.getD i 0) ∧
    (∀ x, x < a ∨ a + bs.length ≤ x → t.peek x = s.peek x) ∧
    (∀ w, a ≤ 8 * w → 8 * w + 8 ≤ a + bs.length → t.poison.contains w = ((po.drop (8 * w - a)).take 8).any id) ∧
    (∀ w, 8 * w + 8 ≤ a ∨ a + bs.length ≤ 8 * w → t.poison.contains w = s.poison.contains w) ∧
    (∀ w, s.poison.contains w = true → a ≤ 8 * w ∧ 8 * w + 8 ≤ a + bs.length ∨ t.poison.contains w = true)) ∧
  (∀ (s : State) (a n v : Nat), Memory.wf s.mem = true → (s.writeNat a n v).natAt a n = v % 256 ^ n ∧
    ∀ i, i < n → ((s.writeNat a n v).peek (a + i)).toNat = v / 256 ^ i % 256) ∧
  (∀ (s : State) (a n : Nat), s.natAt a (n + 1) = (s.peek a).toNat + 256 * s.natAt (a + 1) n)

/-- R60, R63, R67, R82: at a strand's step its due results land in the order of their steps, then of issue, so that the last of them is what
a register or a predicate holds, and an earlier one that comes later does not overwrite it; a result that is frozen, or late, or not yet
due stays; iterations' updates are added at the step. -/
def Obligations.LandingsTakeEffect : Prop :=
  ∀ (s : State) (sid : Nat),
    let t := s.strand sid
    let u := (s.deliver sid).strand sid
    let ripe := fun (l : Latch) => !l.frozen && decide (l.due ≤ t.vcc)
    let ready := fun (e : LandEntry) => e.arrived && !e.frozen && decide (e.due ≤ t.vcc)
    let due : List (Nat × Nat × LandVal) := (t.latches.filter ripe).map (fun l => (l.due, l.id, l.val)) ++
      (t.lb.filter ready).flatMap (fun e => (e.left (gidOf sid)).map (fun v => (e.due, e.id, v)))
    let before := fun (x y : Nat × Nat × LandVal) => y.1 < x.1 ∨ (y.1 = x.1 ∧ y.2.1 < x.2.1)
    (∀ x ∈ due, ∀ r v p, x.2.2 = .g r v p → r ≠ 0 → (∀ y ∈ due, y = x ∨ before x y ∨ ∀ v' p', y.2.2 ≠ .g r v' p') →
      u.reg r = ⟨v, p⟩) ∧
    (∀ r, (∀ y ∈ due, ∀ v p, y.2.2 ≠ .g r v p) → u.reg r = t.reg r) ∧
    (∀ x ∈ due, ∀ r v, x.2.2 = .p r v → r ≠ 0 → (∀ y ∈ due, y = x ∨ before x y ∨ ((∀ v', y.2.2 ≠ .p r v') ∧
      ∀ a c n b v', y.2.2 ≠ .latch r a c n b v')) → u.pred r = v) ∧
    (∀ r, (∀ y ∈ due, (∀ v, y.2.2 ≠ .p r v) ∧ ∀ a c n b v', y.2.2 ≠ .latch r a c n b v') → u.pred r = t.pred r) ∧
    u.latches = t.latches.filter (fun l => !ripe l) ∧ u.lb.map (·.id) = (t.lb.filter (fun e => !ready e)).map (·.id) ∧
    (∀ x ∈ due, ∀ r v p, x.2.2 = .g r v p → ∀ e ∈ t.lb, ready e = false → e.due < x.1 ∨ (e.due = x.1 ∧ e.id < x.2.1) →
      ∃ e2 ∈ u.lb, e2.id = e.id ∧ e2.vals = e.vals ∧ ∀ v2 p2, .g r v2 p2 ∉ e2.left (gidOf sid)) ∧
    u.vcc = t.vcc ∧ u.mpc = t.mpc ∧ u.task = t.task ∧ (∀ n, n ≠ sid → (s.deliver sid).strand n = s.strand n) ∧
    (∀ r v w, t.nestUpd = [⟨r, w, v⟩] → r ≠ 0 →
      ((s.applyNest sid).strand sid).reg r = (if w then ⟨v, false⟩ else ⟨t.val r + v, t.pois r⟩) ∧
      ((s.applyNest sid).strand sid).nestUpd = [] ∧ ∀ n, n ≠ r → ((s.applyNest sid).strand sid).reg n = t.reg n)

/-- R22, R29, Tables 7-5, 11-3, 12-5, 13-2, 13-3: what reset leaves; of a register for which the spec gives no value, 0 (the model's
choice, log entry 20). -/
def Obligations.ResetLeaves : Prop :=
  let s := State.reset
  Memory.wf s.mem = true ∧ s.poison = [] ∧ s.service.removed = false ∧
  (∀ cl e, s.natAt (ucodeBase s.module cl + 64 * e) 64 = 0 ∧ (s.entryAt cl e).bad = true) ∧ decodeBundle 0 = .ok [] ∧
  (∀ c, (s.ctx c).state = 0 ∧ (s.ctx c).saved = none) ∧
  (∀ sid, (s.strand sid).task = 0 ∧ (s.strand sid).trap = none ∧ (s.strand sid).handler = none ∧ (s.strand sid).fmtr = 0x11 ∧
    ∀ r, (s.strand sid).reg r = ⟨0, false⟩) ∧
  (∀ g, (s.core g).cs = [] ∧ (s.core g).l1 = [] ∧ (s.core g).removed = false) ∧
  s.tlb = [] ∧ s.scopes = [] ∧ s.locks = [] ∧ s.tasks = [] ∧ s.records = [] ∧
  (∀ off, s.devReg off = match off with
    | 0x0000 => 640 * 2 ^ 40 + 32 * 2 ^ 24 + 36 * 2 ^ 18
    | 0x0200 => 64 * 2 ^ 12 + 4
    | 0x0510 => 10
    | 0x0610 => 2800
    | 0x0618 => 10
    | _ => 0)

/-- Every step keeps the canonical form of memory: addresses strictly rising, and no listed byte that an unlisted one reads as. That an
unlisted byte reads 0 is the model's choice (log entry 1). -/
def Obligations.StepKeepsMemoryCanonical : Prop :=
  ∀ s t : State, Memory.wf s.mem = true → step s = .next t → Memory.wf t.mem = true

/-- R49, R51, R313, R314, R316, R318, R516, Tables 12-7 and 12-8: taking a trap freezes the strand with its bundle in the replay buffer, writes
the trap record, names it in TRAPREC and posts a report; a lower slot that fails later names the trap; in handler mode the task is to be killed once the bundle
is over;
TRAP performs its slot and gives its code. -/
def Obligations.TakingATrap : Prop :=
  (∀ (s : State) (cls : TrapClass) (info : FaultInfo) (n : BitVec 8) (G : Guard),
    let sid := s.cur
    let t := s.me
    let k := s.task t.task
    let va := s.devReg 0x508 / 2 ^ 16 % 2 ^ 41 * 2 ^ 16 + sid * 0x110000
    let takes := fun (u : State) (c : TrapClass) (code perf : Nat) (f : FaultInfo) =>
      u.me = { t with trap := some ⟨c, code, s.slot, f, true⟩, replay := some ⟨t.bundle, perf⟩, trapRec := BitVec.ofNat 64 va } ∧
      (∀ m, m ≠ sid → u.strand m = s.strand m) ∧ u.tasks = s.tasks ∧ u.cores = s.cores ∧
      (s.frqFull = true → u.frqHeld = s.frqHeld ++ [⟨0, c, va, (State.microOf k).recIdx, (State.microOf k).entry, 0, 0, k.home, k.ctx,
          s.strandName sid⟩] ∧
        ∀ pa, s.sysPa va .store = some pa → Memory.wf s.mem = true → u.natAt pa 128 = s.trapRecord sid t ⟨c, code, s.slot, f, true⟩ perf 0) ∧
      (s.frqFull = false → u.frqHeld = s.frqHeld ∧ u.devReg 0x518 = (s.devReg 0x518 + 1) % 2 ^ 32)
    isCtrl sid = false → t.handler = none → t.braid = none → k.kind ≠ .backfill → k.kind ≠ .ballast → s.slot < 10 →
      let first := (∀ a ∈ t.xlat, s.slot ≤ a.slot)
      (t.trap = none → first → takes (s.raiseAt cls info) cls 0 (0x3FF - 2 ^ (9 - s.slot)) info) ∧
      (t.trap = none → ¬ first → s.raiseAt cls info = s.updMe (fun t => { t with
        trap := some ⟨cls, 0, s.slot, info, false⟩, replay := some ⟨t.bundle, 0x3FF - 2 ^ (9 - s.slot)⟩ })) ∧
      (t.trap = none → t.guard G = true → first → ∃ u, exec (.trap G n) s = .next u ∧ takes u .trap n.toNat 0x3FF ⟨0, 0, 0⟩) ∧
      (t.guard G = false → exec (.trap G n) s = .next s) ∧
      (∀ tr, t.trap = some tr → ∃ r, (s.raiseAt cls info).me = { t with
        trap := some (if s.slot < tr.slot then ⟨cls, tr.code, s.slot, info, tr.posted⟩ else tr)
        replay := t.replay.map (fun x => ⟨x.bundle, if x.perf.testBit (9 - s.slot) then x.perf - 2 ^ (9 - s.slot) else x.perf⟩)
        trapRec := r })) ∧
  (∀ (s : State) (cls : TrapClass) (info : FaultInfo) (h : Handler), s.me.handler = some h → isCtrl s.cur = false →
    (s.doomed = [] → s.raiseAt cls info = { s with doomed := [⟨s.me.task, 0, cls, some s.slot⟩] }) ∧
    ∀ k a c, s.doomed = [⟨s.me.task, 0, c, some k⟩] → a = s.raiseAt cls info →
      a = { s with doomed := [⟨s.me.task, 0, if s.slot < k then cls else c, some (Nat.min s.slot k)⟩] }) ∧
  (∀ (s : State) (sid : Nat) (t : Strand) (tr : TrapInfo) (perf wout : Nat),
    let v := s.trapRecord sid t tr perf wout
    let k := s.task t.task
    v < 2 ^ 1024 ∧ v % 2 ^ 25 = s.strandName sid % 2 ^ 25 ∧ v / 2 ^ 25 % 2 = t.braid.isSome.toNat ∧ v / 2 ^ 26 % 16 = tr.slot % 16 ∧
    v / 2 ^ 30 % 1024 = perf % 1024 ∧ v / 2 ^ 40 % 256 = tr.code % 256 ∧ v / 2 ^ 48 % 256 = tr.cls.code ∧
    v / 2 ^ 64 % 2 ^ 64 = t.vcc % 2 ^ 64 ∧ v / 2 ^ 128 % 2 ^ 32 = (State.microOf k).recIdx % 2 ^ 32 ∧
    v / 2 ^ 160 % 2 ^ 12 = (State.microOf k).entry % 2 ^ 12 ∧ v / 2 ^ 192 % 2 ^ 16 = t.mpc % 2 ^ 16 ∧
    v / 2 ^ 448 % 2 ^ 57 = tr.info.fva % 2 ^ 57 ∧ v / 2 ^ 515 % 4 = tr.info.kind % 4 ∧ v / 2 ^ 517 % 8 = tr.info.level % 8)

/-- R44, R53, R58, R59, R77, R179, R265, R268: the events that end a strand's waits, and the bundle with no slot: each happens once its
condition holds, and changes nothing while it does not. -/
def Obligations.WaitsEnd : Prop :=
  ∀ (s : State) (sid addr : Nat),
    let t := s.strand sid
    let turn : Turn := match t.braid with
      | some b => .braid b
      | none => .strand sid
    let wakes := fun (i : Instr) => exec i s = .next { s with agenda := turn :: s.agenda }
    let ends := fun (i : Instr) (p : Pass) => exec i s = .next { s with strands := s.strands.set sid { t with wait := .none, pass := p } }
    ((t.wait = .stall ∨ t.wait = .late ∨ t.wait = .queueFull ∨ ∃ q n, t.wait = .counter q n) → wakes (.groupStart sid)) ∧
    (t.wait = .none → exec (.groupStart sid) s = .next s ∧ exec (.sleepExpire sid) s = .next s ∧ exec (.wordWaitRecheck sid) s = .next s) ∧
    (∀ till, t.wait = .sleep till → (till ≤ s.now → ends (.sleepExpire sid) .done) ∧
      (s.now < till → exec (.sleepExpire sid) s = .next s)) ∧
    (∀ a va x c, t.wait = .word a va x c →
      let w := leNat (s.readPieces [(a, 8)])
      let held := t.heldRead (peerVa sid va) 8 || t.behindRead [(a, 8)] true
      let met : Prop := match c with
        | 0 => w = x
        | 1 => w ≠ x
        | 2 => x ≤ w
        | _ => w < x
      (met → held = false → ends (.wordWaitRecheck sid) .done) ∧
      (¬met ∨ held = true → exec (.wordWaitRecheck sid) s = .next s)) ∧
    (∀ b x, s.braids.get? b = some x →
      (x.depart.isSome = true → exec (.knotDepart b) s = .next { s with agenda := .braid b :: s.agenda }) ∧
      (x.depart = none → exec (.knotDepart b) s = .next s) ∧
      (t.braid = some b → ((∀ m ∈ x.members, (s.strand m).wait = .knot) →
        ∃ u, s.setDepart sid = u ∧ u.braids.get? b = some { x with depart := some (t.vcc + 2) } ∧ u.strands = s.strands) ∧
        ∀ d, x.depart = some d → (t.vcc < d → s.departKnot sid = s) ∧
          (d ≤ t.vcc → ∀ m ∈ x.members, ((s.departKnot sid).strand m).wait = .none ∧ ((s.departKnot sid).strand m).pass = .done))) ∧
    (∀ line, isCtrl sid = false → t.wait = .fill line → s.poisonIn (ucodeBase s.module (sid / 8 / 8) + 512 * line) 512 = false →
      ∃ u bs rest, exec (.controlStoreFill (sid / 8) line) s = .next u ∧ u.strand sid = { t with wait := .none } ∧
        (u.core (sid / 8)).cs = (line, bs) :: rest ∧ bs.length = 8 ∧
        (∀ i, i < 8 → let a := ucodeBase s.module (sid / 8 / 8) + 512 * line + 64 * i
          ((∀ p ∈ s.parts, p.addr ≠ a) → (bs.getD i 0).toNat = s.natAt a 64) ∧
          ∀ p, s.parts.find? (fun p => p.addr == a) = some p → bs.getD i 0 = p.old) ∧
        (∀ l ∈ rest, l ∈ (s.core (sid / 8)).cs ∧ l.1 ≠ line) ∧ u.mem = s.mem ∧
        ∀ m, (s.strand m).wait ≠ .fill line → u.strand m = s.strand m) ∧
    (∀ a, t.xlat = [a] → t.braid = none →
      let s1 : State := { s with strands := s.strands.set sid { t with xlat := [], wait := .none }, cur := sid, slot := a.slot }
      let u := (s1.finish a).undraw sid
      ((u.strand sid).braid = none → (u.strand sid).xlat = [] → (u.strand sid).wait.idle = false →
        exec (.translationResolve sid) s = .next (u.closeGang sid [sid])) ∧
      (∀ c l, a.addr % 65536 + a.size ≤ 65536 → 0 < a.size → s1.tlbHit (dieOf (gidOf sid)) (s1.space sid).1 a.addr = none →
        s1.walk (s1.space sid).2 a.addr a.op.kind = .fail c l → (∀ d f v q, a.op ≠ .load d f v true q) →
        isCtrl sid = false → t.trap = none → t.handler = none → (s.task t.task).kind = .op → t.draws = none → s.doomed = [] →
        exec (.translationResolve sid) s = .next (s1.raiseVa c a.addr a.op.trapKind l))) ∧
    (let w := s.natAt addr 8
     let x := s.lockUnit addr
     ∀ m ∈ x.waiters, x.handing = true → bitAt w 63 = false → s.strandName m.sid < 2 ^ 25 →
       (∀ n ∈ x.waiters, n = m ∨ (s.strand n.sid).eff < (s.strand m.sid).eff ∨
         ((s.strand n.sid).eff = (s.strand m.sid).eff ∧ m.since < n.since)) →
       ∃ u, exec (.lockGrant addr) s = .next u ∧
         (Memory.wf s.mem = true → u.natAt addr 8 = 2 ^ 63 + (if bitAt w 62 then 2 ^ 62 else 0) + s.strandName m.sid) ∧
         (∀ y, y < addr ∨ addr + 8 ≤ y → u.peek y = s.peek y) ∧ (u.strand m.sid).wait = .none ∧
         (u.strand m.sid).pass = .lock w true ∧ (u.lockUnit addr).holder = some (m.sid, (s.strand m.sid).task) ∧
         (u.lockUnit addr).waiters = x.waiters.filter (fun n => n != m) ∧ (u.lockUnit addr).handing = false ∧
         ∀ n r, (u.strand n).reg r = (s.strand n).reg r) ∧
    (s.cur = sid → t.task ≠ 0 → isCtrl sid = false → t.braid = none → t.trap = none → t.xlat = [] → t.returning = false →
      s.doomed = [] → t.ending = false → bundleYield t.bundle = false →
      exec .emptyBundle s = .next { s with strands := s.strands.set sid (t.nextBundle (bundleStop t.bundle)) })

/-- R68, R221, R222, R232, R234, R236, R454: late data fills its landing entry, held and queued accesses and ordering events perform one at
a time once they may, a pod flush drives the strand's contributions home, and contributions are merged into one update. What RELH waits
for is the model's reading in part (log entry 16). -/
def Obligations.HeldAccessesPerform : Prop :=
  ∀ (s : State) (sid entry addr count : Nat),
    let t := s.strand sid
    let fills := fun (vals : List LandVal) =>
      let u : State := { s with strands := s.strands.set sid { t with lb := t.lb.map (fun e =>
        if e.id = entry then { e with vals := vals, arrived := true, req := .data } else e) } }
      exec (.landingDataArrive sid entry) s = .next (u.deliverLate sid)
    (∀ e, t.lb.find? (fun e => e.id == entry && !e.arrived) = some e →
      let q := t.before entry
      (e.req = .data → fills e.vals) ∧
      (e.req = .queued → exec (.landingDataArrive sid entry) s = .next s) ∧
      (∀ a ps, e.req = .held a ps →
        let held := q.heldRead (peerVa sid a.addr) a.size || q.behindRead ps a.op.acquires || !q.xlat.isEmpty
        (held = true → exec (.landingDataArrive sid entry) s = .next s) ∧
        (held = false →
          (∀ d n v acq, a.op = .load d ⟨n, false⟩ v false acq → ∀ c, ps = [(c, n)] →
            let m := s.withQueued q.wq
            targetOf (c % 2 ^ 48) = .hbm → fills [.g d (BitVec.ofNat 64 (m.natAt c n)) (m.poisonIn c n)]) ∧
          ∃ vals, fills vals)) ∧
      (∀ desc p l blk pd, e.req = .kvad desc p l blk pd → q.heldRead desc 320 = false →
        (∀ d, s.seqUse (s.space sid).2 desc = .ok d →
          (s.kvWaits sid (s.space sid).2 d p l blk = true → exec (.landingDataArrive sid entry) s = .next s) ∧
          (s.kvWaits sid (s.space sid).2 d p l blk = false → fills (e.vals ++ [.p pd (s.kvPred (s.space sid).2 d p l blk)]))) ∧
        (∀ c, s.seqUse (s.space sid).2 desc = .error c → fills (e.vals ++ [.p pd false])))) ∧
    (∀ (x : Instr × (WqItem → Bool)), x ∈ [(Instr.heldWritePerform sid, fun i : WqItem => i.isWrite && !i.releases),
        (.orderingEventPerform sid, fun i => !i.isWrite || i.releases)] →
      let items := t.wq.filter (fun i => x.2 i && s.mayPerform sid i)
      (items = [] → exec x.1 s = .next s) ∧
      (items ≠ [] → ∃ i ∈ items,
        let w : State := { s with free := s.free + 1, strands := s.strands.set sid { t with wq := t.wq.erase i } }
        let u := if i.releasesAll && decide (2 ≤ i.scope) then
            w.releaseParts (s.writer sid) (if 4 ≤ i.scope ∨ isCtrl sid then none else some (clusterOf sid)) else w
        (u = { w with parts := u.parts }) ∧
        (∀ k sc lo hi, i.what = .order k sc lo hi → exec x.1 s = .next u) ∧
        (∀ va ps bs rel sc, i.what = .write va ps (.store bs rel sc) → exec x.1 s = .next ((u.noteParts (u.writer sid) ps).writePieces ps bs)) ∧
        (∀ va c n sc, i.what = .write va [(c, n)] (.unlock sc) → ∃ v, exec x.1 s = .next v ∧ v.strands = u.strands ∧
          (Memory.wf s.mem = true → s.strandName sid < 2 ^ 25 → v.natAt c 8 = s.strandName sid) ∧ (v.lockUnit c).holder = none ∧
          ((v.lockUnit c).handing = true ↔ (s.lockUnit c).waiters ≠ [])) ∧
        ∀ va ps op, i.what = .write va ps op → exec x.1 s = .next (u.performWrite sid i.id va ps op))) ∧
    (∀ i, t.wq.find? (fun i => i.releases && i.scope == 5 && !i.gathered) = some i →
      (t.writesDone i.id = false → exec (.podFlushGather sid) s = .next s) ∧
      (t.writesDone i.id = true → ∃ u, exec (.podFlushGather sid) s = .next u ∧ (∀ r ∈ u.swRed, r ∈ s.swRed ∧ (r.sid = sid → i.id ≤ r.id)) ∧
        (u.strand sid).wq = t.wq.map (fun x => if x = i then { x with gathered := true } else x) ∧
        ∀ n, n ≠ sid → u.strand n = s.strand n)) ∧
    (∀ r, s.swRed.find? (fun r => r.pa == addr) = some r →
      let n := if r.ty % 2 = 0 then 4 else 8
      let group := (s.swRed.filter (fun x => r.pa == x.pa && r.fn == x.fn && r.ty == x.ty)).take count
      let c := homeOf addr
      let u := exec (.reductionApply addr count) s
      (0 < count → s.poisonIn c n = true → ∃ v, u = .next v ∧ v.mem = s.mem ∧ v.swRed.length + group.length = s.swRed.length) ∧
      (0 < count → s.poisonIn c n = false → Memory.wf s.mem = true → ∃ v, u = .next v ∧ v.strands = s.strands ∧
        v.swRed.length + group.length = s.swRed.length ∧ (∀ x, x < c ∨ c + n ≤ x → v.peek x = s.peek x) ∧
        (r.fn = 0x18 → r.ty < 2 → v.natAt c n = (s.natAt c n + (group.map (·.x)).sum) % 2 ^ (8 * n)) ∧
        (r.fn = 0x18 → r.ty = 2 ∨ r.ty = 3 →
          let f := if r.ty = 2 then Fmt.fp32 else Fmt.fp64
          v.natAt c n = f.write (Rnd.rne false) (FVal.sum false ((s.natAt c n :: group.map (·.x)).map f.read)) % 2 ^ (8 * n))))

/-- R141 to R148, R157, R318, Table 12-4: the matrix engine starts the best eligible operation, ends its passes, suspends it for a better one
and completes it: its regions' busy counts fall and its counter completes; an MGV starts and completes beside it. -/
def Obligations.MatrixEngineEvents : Prop :=
  ∀ (s : State) (g : Nat),
    let c := s.core g
    let withMq := fun (t : State) (f : MOp → MOp) => { t with cores := t.cores.set g { t.core g with mq := (t.core g).mq.map f } }
    let starts := fun (o x : MOp) => if x.id = o.id then
      { x with running := true, started := true, waited := x.waited + (s.now - x.since), since := s.now + x.fill } else x
    (s.power.hold = true → exec (.matrixOpStart g) s = .next s ∧ exec (.mgvStart g) s = .next s) ∧
    (s.power.hold = false → (∀ o ∈ c.mq, o.running = false) →
      ((∀ o ∈ c.mq, s.matEligible o = false) → exec (.matrixOpStart g) s = .next s) ∧
      (∀ o ∈ c.mq, s.matEligible o = true → o.sid / 8 = g → (∀ p ∈ c.mq, p = o ∨ s.matEligible p = false ∨
          s.matEff p < s.matEff o ∨ (s.matEff p = s.matEff o ∧ o.id < p.id)) → exec (.matrixOpStart g) s = .next (withMq s (starts o)))) ∧
    (∀ o, c.mq.find? (fun o => o.running) = some o → o.sid / 8 = g →
      (s.power.hold = false → exec (.matrixOpStart g) s = .next s) ∧
      (s.now < o.due → exec (.matrixPassEnd g) s = .next s) ∧
      (o.due ≤ s.now → o.passes + 1 < o.total →
        (∀ t, s.matPass o = .ok t → t.core g = c → o.cut = false →
          let u := withMq t (fun x => if x.id = o.id then { x with passes := o.passes + 1, since := o.due } else x)
          (∀ p ∈ (u.core g).mq, u.matEligible p = false) → exec (.matrixPassEnd g) s = .next u) ∧
        (∀ va, s.matPass o = .error va → s.frqFull = false →
          exec (.matrixPassEnd g) s = .next (s.endMat o 2 (some ⟨.poison, va, 0, 0⟩) false))) ∧
      (o.due ≤ s.now → o.total ≤ o.passes + 1 → (∀ x ∈ c.mq, x.cut = false ∨ x.running = true) →
        (∀ t, s.matPass o = .ok t → exec (.matrixOpComplete g) s = .next (t.endMat o 2 none false)) ∧
        (∀ va, s.matPass o = .error va → s.frqFull = false →
          exec (.matrixOpComplete g) s = .next (s.endMat o 2 (some ⟨.poison, va, 0, 0⟩) false)))) ∧
    (∀ o kind,
      let t := s.endMat o kind none false
      let k := s.core (o.sid / 8)
      (t.core (o.sid / 8)).mq = k.mq.filter (fun x => x.id != o.id) ∧ (t.core (o.sid / 8)).gq = k.gq.filter (fun x => x.id != o.id) ∧
      (∀ r, (t.core (o.sid / 8)).busy.get 0 r = k.busy.get 0 r - o.regions.count r) ∧ t.mem = s.mem ∧
      ((s.strand o.sid).task = o.task → t.strand o.sid = (s.strand o.sid).complete o.prod false) ∧
      ((s.strand o.sid).task ≠ o.task → t.strand o.sid = s.strand o.sid) ∧ ∀ n, n ≠ o.sid → t.strand n = s.strand n) ∧
    (∀ o, s.power.hold = false → s.mgvHead g = some o → o.sid / 8 = g →
      (∀ e ∈ s.cores, e.1 = g ∨ s.mgvHead e.1 = none ∨ ∃ p, s.mgvHead e.1 = some p ∧ s.matBefore p o = false) →
      (∀ t ps, s.panelWalk o (State.panelPages o) = (t, .ok ps) → ∃ u, exec (.mgvStart g) s = .next u ∧
        (u.core g).gq = (t.core g).gq.map (fun x => if x.id = o.id then
          { x with started := true, pages := ps, waited := x.waited + (s.now - x.since) } else x) ∧ u.mem = t.mem ∧ u.strands = t.strands) ∧
      (∀ t f, s.panelWalk o (State.panelPages o) = (t, .error f) → t.frqFull = false →
        exec (.mgvStart g) s = .next (t.endMat o 3 (some f) false))) ∧
    (∀ o, c.gq.filter (fun o => o.started) = [o] →
      let f : State := { s with free := s.free + 1 }
      (o.cut = true → f.frqFull = false → exec (.mgvComplete g) s = .next (f.endMat o 3 none true)) ∧
      (o.cut = false → f.firstPoison (State.mgvReads o) = none → ∃ u : State, exec (.mgvComplete g) s = .next (u.endMat o 3 none false) ∧
        u.strands = s.strands ∧ u.cores = s.cores ∧
        (Memory.wf s.mem = true → o.base % 32 = 0 → o.base < 2048 → o.m ≤ 32 → o.n ≤ 512 → ∀ i j, i < o.m → j < o.n →
          u.tileNat o i j = f.mgvElem o i j % 2 ^ (8 * o.elem)) ∧
        ∀ x, (x < amBase (o.sid / 8) ∨ amBase (o.sid / 8) + 0x100000 ≤ x) → u.peek x = s.peek x))

/-- R199, R201 to R207, Table 12-4: a channel starts its operations in order and completes them, with CANC where one failed or was cut
short; each beat is written as it arrives, up to 256 bytes and whole aligned words, and within the own scratchpad reads as bytes copied
in ascending order; a DRAIN waits for what its strand put on the channel before. The order and the ends of beats are the model's reading
(log entry 26). -/
def Obligations.CopyEngineEvents : Prop :=
  ∀ (s : State) (g ch : Nat),
    let q := (s.core g).chans.get [] ch
    let withOp := fun (t : State) (id : Nat) (f : XOp → XOp) => ({ t with cores := t.cores.set g { t.core g with
      chans := (t.core g).chans.set ch (((t.core g).chans.get [] ch).map (fun o => if o.id = id then f o else o)) } } : State)
    let gone := fun (o : XOp) => (({ s with cores := s.cores.set g { s.core g with
      chans := (s.core g).chans.set ch (q.filter (fun x => x.id != o.id)) } } : State).releaseParts (1, o.id) none)
    (s.power.hold = true → exec (.copyOpStart g ch) s = .next s) ∧
    (∀ pre o rest, q = pre ++ o :: rest → (∀ p ∈ pre, p.started = true) → o.started = false → s.power.hold = false →
      let passed := fun (p : XOp) => (∀ sc, p.kind ≠ .drain sc) ∧
        (p.fail.isSome = true ∨ p.next = p.total ∨ p.since + p.plan.beats ≤ s.now)
      let t := s.strand o.sid
      let free : Prop := o.since < s.now ∧ (∀ p ∈ pre, passed p) ∧
        (t.task = o.task → ∀ n ∈ o.cons, (t.tok n).outst ≤ (t.tok n).thresh) ∧
        s.released o.sid o.task o.pos o.vcc (fun _ => o.plan.readsAm) = true
      (free → exec (.copyOpStart g ch) s = .next (withOp s o.id (fun x => { x with started := true, since := s.now }))) ∧
      (¬free → exec (.copyOpStart g ch) s = .next s)) ∧
    (∀ op o, q.find? (fun x => x.id == op) = some o →
      let size := o.plan.size o.next
      let beat := fun (t : State) (src dst : List (Nat × Nat)) (at_ : Nat) =>
        let to_ := if size ≤ at_ + 256 then size else at_ + 256 - ((dst.headD (0, 0)).1 + at_ + 256) % 8
        let r := (t.noteParts (1, op) (takePieces (to_ - at_) (dropPieces at_ dst))).copyBeat src dst at_ size o.carry
        withOp r.1 op (fun x =>
          if size ≤ to_ then { x with next := o.next + 1, places := none, written := 0, carry := [] }
          else { x with places := some (src, dst), written := to_, carry := r.2.2 })
      (o.started = false ∨ o.fail.isSome = true ∨ o.total ≤ o.next ∨ s.now < o.since + 4 → exec (.copyBeatWrite g ch op) s = .next s) ∧
      (o.started = true → o.fail = none → o.next < o.total → o.since + 4 ≤ s.now →
        (∀ src dst, o.places = some (src, dst) → exec (.copyBeatWrite g ch op) s = .next (beat s src dst o.written)) ∧
        (o.places = none → o.cut = true → exec (.copyBeatWrite g ch op) s = .next s) ∧
        (o.places = none → o.cut = false →
          (∀ t f, s.innerPlaces o = (t, .error f) →
            exec (.copyBeatWrite g ch op) s = .next (withOp t op (fun x => { x with fail := some f }))) ∧
          (∀ t src dst, s.innerPlaces o = (t, .ok (src, dst)) → exec (.copyBeatWrite g ch op) s = .next (beat t src dst 0)) ∧
          ∀ src dst len, o.plan = .linear src dst len → 4096 * o.next < len → o.sid < 2 ^ 15 → o.carry = [] →
            Memory.wf s.mem = true →
            let a := src + 4096 * o.next
            let d := dst + 4096 * o.next
            let size := Nat.min 4096 (len - 4096 * o.next)
            let n := if size ≤ 256 then size else 256 - d % 8
            let m := Nat.min size (n + (8 - (a + n) % 8) % 8)
            let base := spadBase (o.sid / 8)
            a + Nat.min 4096 (len - 4096 * o.next) ≤ 0x400000 → d + Nat.min 4096 (len - 4096 * o.next) ≤ 0x400000 →
            ∃ t, exec (.copyBeatWrite g ch op) s = .next t ∧ t.strands = s.strands ∧
              (∀ i, i < n → t.peek (base + d + i) = s.peek (base + a + (if a < d ∧ d < a + m then i % (d - a) else i))) ∧
              ∀ x, x < base + d ∨ base + d + n ≤ x → t.peek x = s.peek x)) ∧
      (o.started = false ∨ s.now ≤ o.since → exec (.copyOpComplete g ch op) s = .next s) ∧
      (o.started = true → s.now < o.since + 1 ∨ (o.kind = .copy ∨ o.kind = .mcw) ∧ o.fail = none ∧
          (o.places.isSome = true ∨ (o.cut = false ∧ o.next < o.total)) → exec (.copyOpComplete g ch op) s = .next s) ∧
      (o.started = true → o.since < s.now → o.kind = .copy ∨ o.kind = .mcw →
        (o.fail = none → o.places = none → o.total ≤ o.next →
          exec (.copyOpComplete g ch op) s = .next ((gone o).completeTok o.sid o.task o.prod false)) ∧
        (o.fail = none → o.places = none → o.cut = true → o.next < o.total → s.frqFull = false →
          exec (.copyOpComplete g ch op) s =
            .next (((gone o).completeTok o.sid o.task o.prod true).postReport (o.stamp.report 4 .cancelled 0 o.prod o.next))) ∧
        (∀ f, o.fail = some f → s.frqFull = false → (s.task o.task).status ≠ .ended →
          exec (.copyOpComplete g ch op) s = .next ((((gone o).completeTok o.sid o.task o.prod true).addFail o.sid o.task f).postReport
            (o.stamp.report 4 f.cls f.fva o.prod o.next))))) ∧
    (∀ o ∈ q, ∀ sc, o.kind = .drain sc → (∀ x ∈ q, x = o ∨ ∀ k, x.kind ≠ .drain k) → o.fail = none →
      (s.strand o.sid).task = o.task →
      (o.started = true → (∀ x ∈ q, x.id < o.id → x.sid = o.sid → x.task ≠ o.task) →
        exec (.drainComplete g ch) s = .next ((gone o).completeTok o.sid o.task o.prod false)) ∧
      (o.started = false ∨ (∃ x ∈ q, x.id < o.id ∧ x.sid = o.sid ∧ x.task = o.task) → exec (.drainComplete g ch) s = .next s)) ∧
    ∀ (t : State) (sid task n : Nat) (c : Bool),
      ((t.strand sid).task = task → t.completeTok sid task n c = { t with strands := t.strands.set sid ((t.strand sid).complete n c) }) ∧
      ((t.strand sid).task ≠ task → t.completeTok sid task n c = t)

/-- R277, R278, R299 to R302, Table 12-4: what the sequence unit does when a KVCP, a PFXL or a PFXI completes: a release and a clone, field
by field; a chain's extents filled in; a run of chunks inserted; and with EN clear, nothing but CANC. The merging of extents, and what
PFXL keeps, are the model's reading (log entry 32). -/
def Obligations.SequenceUnitOperations : Prop :=
  ∀ (s : State) (g ch op : Nat) (o : XOp),
    let root := (s.stampSpace o.sid o.stamp).2
    let left := fun (t : State) => ({ t with cores := t.cores.set g { t.core g with
      chans := (t.core g).chans.set ch (((t.core g).chans.get [] ch).filter (fun x => x.id != op)) } } : State)
    let gone := fun (t : State) => (left t).releaseParts (1, op) none
    let ends := fun (t : State) (canc : Bool) =>
      exec (.copyOpComplete g ch op) s = .next ((gone t).completeTok o.sid o.task o.prod canc)
    let fails := fun (c : TrapClass) (va : Nat) => s.frqFull = false → (s.task o.task).status ≠ .ended →
      exec (.copyOpComplete g ch op) s = .next ((((gone s).completeTok o.sid o.task o.prod true).addFail o.sid o.task
        ⟨c, va, 0, match s.walk root va .load with
          | .fail _ l => l
          | .page .. => 0⟩).postReport
        (o.stamp.report 4 c va o.prod o.next))
    let a := o.a1.toNat
    let b := o.a2.toNat
    let n := o.a3.toNat % 2 ^ 32
    let ns := o.a3.toNat / 2 ^ 32 % 2 ^ 16
    let filled := fun (t : State) (d : SeqDesc) (exts : List Extent) => (exts.zip (span 0 16)).foldl (fun (t : State) e =>
      (t.vput root (d.va + 64 + 16 * e.2) 16 (e.1.base + 2 ^ 64 * e.1.len + 2 ^ 96 * e.1.stride)).refUp root e.1.base) t
    let marks := fun (t : State) (d : SeqDesc) (k : Nat) (f : State → Nat → Nat) =>
      (span 0 k).foldl (fun (t : State) l => t.setHwm root d l (f t l)) t
    ((s.core g).chans.get [] ch).find? (fun x => x.id == op) = some o → o.started = true → o.since < s.now → o.fail = none →
    (o.kind = .kvcp →
      (∀ c, s.seqUse root a = .error c → fails c a) ∧
      (∀ d, s.seqUse root a = .ok d →
        (bitAt o.a3.toNat 63 = true →
          let t := ((d.exts.foldl (fun (t : State) e => t.refDown root e.base) s).seqField root d 56 5 0).seqField root d 0 32 0
          ends (marks t d d.layers (fun _ _ => 0)) false) ∧
        (bitAt o.a3.toNat 63 = false →
          (∀ c, s.seqUse root b = .error c → fails c b) ∧
          (∀ e, s.seqUse root b = .ok e →
            let bad : Prop := e.exts ≠ [] ∨ d.length < n
            (bad → fails .illshape b) ∧
            (¬bad →
              let exts := State.extentsBelow n 0 d.exts
              let t := ((((s.seqField root e 40 11 (d.layers - 1)).seqField root e 32 8 d.rb).seqField root e 52 4 d.extord).seqField
                root e 56 5 exts.length).vput root (b + 8) 4 d.stride
              let u := ((filled t e exts).seqFlag root e 63 false).seqFlag root e 62 false
              ends ((marks u e d.layers (fun t l => Nat.min (t.hwmOf root d l) n)).seqField root e 0 32 (Nat.min d.cur n)) false))))) ∧
    (o.kind = .pfxl ∨ o.kind = .pfxi → bitAt (s.devReg 0x418) 0 = false →
      exec (.copyOpComplete g ch op) s = .next ((left s).completeTok o.sid o.task o.prod true)) ∧
    (o.kind = .pfxl → bitAt (s.devReg 0x418) 0 = true →
      (∀ c, s.seqUse root b = .error c → fails c b) ∧
      (∀ e, s.seqUse root b = .ok e →
        (e.exts ≠ [] → fails .illshape b) ∧
        (e.exts = [] → ∀ path es,
          s.pfxChain o.sid o.stamp a ns (Nat.min (n / 16) s.pfx.length) 0 [] [] = .ok (path, es) →
          let exts := s.mergeExts es
          let u := (((filled s e exts).seqField root e 56 5 exts.length).seqFlag root e 63 false).seqFlag root e 62 false
          ends (((marks u e e.layers (fun _ _ => 16 * path.length)).seqField root e 0 32 (16 * path.length)).pfxTouch ns path) false ∧
          es.length = path.length ∧ 16 * path.length ≤ n ∧ (s.mergeExts es).length ≤ 16 ∧
          (∀ i, i < path.length → s.tokenChunk o.sid o.stamp a i = .ok (path.getD i []) ∧
            ∃ x ∈ s.pfx, x.ns = ns ∧ x.path = path.take (i + 1) ∧ es.getD i ⟨0, 0, 0⟩ = ⟨x.base, 16, x.stride⟩) ∧
          (path.length < Nat.min (n / 16) s.pfx.length → ∀ toks x, s.tokenChunk o.sid o.stamp a path.length = .ok toks →
            s.pfxNode ns (path ++ [toks]) = some x → 16 < (s.mergeExts (es ++ [⟨x.base, 16, x.stride⟩])).length)))) ∧
    (o.kind = .pfxi → bitAt (s.devReg 0x418) 0 = true →
      (∀ c, s.seqUse root b = .error c → fails c b) ∧
      (∀ d, s.seqUse root b = .ok d →
        let most := Nat.min (s.committed root d) d.length
        ∀ u, s.pfxInsert o.sid o.stamp root a ns d (Nat.min (n / 16) (most / 16)) 0 [] = .ok u →
        ends u false ∧ u.strands = s.strands ∧
        (∀ x ∈ u.pfx, (∃ y ∈ s.pfx, y.ns = x.ns ∧ y.path = x.path ∧ y.base = x.base ∧ y.stride = x.stride) ∨
          (x.ns = ns ∧ 0 < x.path.length ∧ 16 * x.path.length ≤ most ∧ 16 * x.path.length ≤ n ∧
            ∃ y, SeqDesc.find (16 * (x.path.length - 1)) d.exts = some y ∧ x.base = y.1.base + y.2 * y.1.stride ∧
              x.stride = y.1.stride)) ∧
        (s.pfx.length + n / 16 ≤ 262144 → ∀ y ∈ s.pfx, ∃ x ∈ u.pfx, x.ns = y.ns ∧ x.path = y.path ∧ x.base = y.base ∧ x.stride = y.stride)))

/-- R208, R215 to R218, R555, Table 12-4: a transfer's beats are written and added, and its counters complete, at their steps; an unmatched
one completes with CANC; posts and PUTs meet by key in their order, the bytes go straight into the posted buffer, and both counters
complete; a PUT longer than its post writes nothing. What another module sends is free. That the bytes of other modules are free is the
model's choice (log entry 28). -/
def Obligations.TransfersAndRendezvous : Prop :=
  ∀ (s : State) (g op : Nat),
    let nq := (s.core g).nq
    let ended := fun (t : State) (o : NOp) (canc : Bool) =>
      ({ t with cores := t.cores.set (o.sid / 8) { t.core (o.sid / 8) with
        nq := (t.core (o.sid / 8)).nq.filter (fun x => x.id != o.id) } } : State).completeTok o.sid o.task o.prod canc
    let upd := fun (t : State) (f : NOp → NOp) => ({ t with cores := t.cores.set g { t.core g with
      nq := (t.core g).nq.map (fun o => if o.id = op then f o else o) } } : State)
    let timed := fun (x : NOp) => x.kind = .send ∨ x.kind = .recv ∨ ∃ ty, x.kind = .recva ty
    let ripe := fun (x : NOp) => timed x ∧ (s.pastSteps x.sid = true ∨ x.due ≤ (s.strand x.sid).vcc)
    (∀ x : NOp, x.due = (if x.paired = false then x.issued + x.lat else if x.kind = .send then x.issued + (x.len + 255) / 256
      else x.issued + x.lat + x.beats)) ∧
    ((∀ x ∈ nq, ¬ripe x ∧ (x.cut = false ∨ ¬timed x)) → exec (.transferBeat g) s = .next s) ∧
    (∀ o ∈ nq, ripe o → o.sid / 8 = g → (∀ x ∈ nq, x.cut = false ∨ ¬timed x) → (∀ x ∈ nq, x = o ∨ ¬ripe x ∨ o.due < x.due) →
      (o.paired = false → exec (.transferBeat g) s = .next (ended s o true)) ∧
      (o.paired = true → o.kind = .send → exec (.transferBeat g) s = .next (ended s o false)) ∧
      (o.paired = true → o.kind ≠ .send → o.data.length = o.len → 256 * o.beats < o.len → Memory.wf s.mem = true →
        let c := spadBase g + o.addr + 256 * o.beats
        let n := Nat.min 256 (o.len - 256 * o.beats)
        let word := fun (i e : Nat) => leNat ((o.data.drop (256 * o.beats + i * e)).take e)
        ∃ t, exec (.transferBeat g) s = .next t ∧ (∀ x, x < c ∨ c + n ≤ x → t.peek x = s.peek x) ∧
          (o.kind = .recv → ∀ i, i < n → t.peek (c + i) = o.data.getD (256 * o.beats + i) 0) ∧
          (∀ ty, o.kind = .recva ty → ty < 4 → o.len % (if ty = 1 then 8 else 4) = 0 → ∀ i,
            (2 ≤ ty → 4 * i < n → t.natAt (c + 4 * i) 4 = (s.natAt (c + 4 * i) 4 + word i 4) % 2 ^ 32) ∧
            (ty = 0 → 4 * i < n → t.natAt (c + 4 * i) 4 = Fmt.fp32.write (Rnd.rne false)
              (FVal.sum false [Fmt.fp32.read (s.natAt (c + 4 * i) 4), Fmt.fp32.read (word i 4)]) % 2 ^ 32) ∧
            (ty = 1 → 8 * i < n → t.natAt (c + 8 * i) 8 = Fmt.fp64.write (Rnd.rne false)
              (FVal.sum false [Fmt.fp64.read (s.natAt (c + 8 * i) 8), Fmt.fp64.read (word i 8)]) % 2 ^ 64)) ∧
          (o.len ≤ 256 * (o.beats + 1) → (t.core g).nq = nq.filter (fun x => x.id != o.id) ∧
            t.strands = (s.completeTok o.sid o.task o.prod false).strands) ∧
          (256 * (o.beats + 1) < o.len → t.strands = s.strands ∧
            (t.core g).nq = nq.map (fun x => if x.id = o.id then { x with beats := x.beats + 1 } else x)))) ∧
    (∀ o, nq.find? (fun x => x.cut && match x.kind with
        | .send | .recv | .recva _ => true
        | _ => false) = some o → o.sid / 8 = g → s.frqFull = false →
      exec (.transferBeat g) s = .next ((ended s o true).postReport (o.stamp.report 5 .cancelled 0 o.prod 0))) ∧
    (∀ o, nq.find? (fun x => x.id == op) = some o →
      let tag := o.key / 2 ^ 16 % 2 ^ 16
      let here := o.key % 512 = s.module
      let sp := s.stampSpace o.sid o.stamp
      let started := fun (t : State) => upd t (fun x => { x with started := true })
      (o.kind = .rtr ∨ o.kind = .put → o.started = false → o.post = none → s.power.hold = true ∨ s.commFree o = false →
        exec (.putMatch g op) s = .next s) ∧
      (o.kind = .rtr → o.started = false → o.cut = false → s.commFree o = true → s.power.hold = false →
        (¬here → exec (.putMatch g op) s = .next (started s)) ∧
        (here → s.posts.length < 1024 → exec (.putMatch g op) s = .next (started { s with
          posts := s.posts ++ [⟨s.module, tag, false, g, op, 0, o.addr, o.len, sp.1, sp.2, none⟩] })) ∧
        (here → 1024 ≤ s.posts.length → exec (.putMatch g op) s = .next s)) ∧
      (o.kind = .put → o.cut = false → o.post = none → o.started = true ∨ (s.power.hold = false ∧ s.commFree o = true) →
        (¬here ∨ s.putBehind o = true → exec (.putMatch g op) s = .next (started s)) ∧
        (here → s.putBehind o = false → (∀ p ∈ s.posts, p.plan = true ∨ p.src ≠ s.module ∨ p.tag ≠ tag) →
          exec (.putMatch g op) s = .next (started s)) ∧
        (here → s.putBehind o = false → ∀ pre p rest, s.posts = pre ++ p :: rest → (∀ x ∈ pre, x.plan = true ∨ x.src ≠ s.module ∨
            x.tag ≠ tag) → p.plan = false → p.src = s.module → p.tag = tag →
          ∃ t, exec (.putMatch g op) s = .next t ∧ t.posts = s.posts.filter (fun x => x != p) ∧ t.mem = s.mem ∧ t.strands = s.strands ∧
            t.commAt g op = some { o with started := true, post := some p })) ∧
      (o.sid / 8 = g → o.kind = .put → ∀ p, o.post = some p → o.cut = false → ∀ q, s.commAt p.core p.nop = some q → q.cut = false →
        (p.len < o.len → s.frqFull = false → exec (.rendezvousComplete g op) s =
          .next ((s.finComm o 5 0 (some ⟨.accv, o.addr, Kind.store.code, 0⟩) false).cancComm q)) ∧
        (o.len ≤ p.len → ∀ t u ps ds, s.copyPlaces o.sid o.stamp o.addr o.len false = (t, .ok ps) → t.postPlaces p o.len = (u, .ok ds) →
          p.red = none → exec (.rendezvousComplete g op) s =
            .next (ended (ended (u.writeCells ds (u.readPieces ps) (u.poisonPieces ps)) o false) q false)) ∧
        (o.len ≤ p.len → ∀ t f, s.copyPlaces o.sid o.stamp o.addr o.len false = (t, .error f) → s.frqFull = false →
          exec (.rendezvousComplete g op) s = .next ((t.finComm o 5 0 (some f) false).cancComm q)) ∧
        (o.len ≤ p.len → ∀ t u ps f, s.copyPlaces o.sid o.stamp o.addr o.len false = (t, .ok ps) → t.postPlaces p o.len = (u, .error f) →
          s.frqFull = false → exec (.rendezvousComplete g op) s = .next ((u.cancComm o).finComm q 5 0 (some f) false))) ∧
      (o.sid / 8 = g → o.kind = .put → o.post = none → o.cut = true → s.frqFull = false →
        exec (.rendezvousComplete g op) s = .next ((ended s o true).postReport (o.stamp.report 5 .cancelled 0 o.prod 0))) ∧
      (o.sid / 8 = g → o.kind = .put → o.post = none → o.cut = false → o.started = true → ¬here → ∀ t ps,
        s.copyPlaces o.sid o.stamp o.addr o.len false = (t, .ok ps) →
        (t.service.absent.contains (o.key % 512) = true → s.frqFull = false →
          exec (.rendezvousComplete g op) s = .next (t.finComm o 5 0 (some ⟨.mchk, 0, 0, 0⟩) false)) ∧
        ∀ u, t.putAway (o.key % 512) ps o.len = (u, .ok ()) → exec (.rendezvousComplete g op) s = .next (ended u o false)) ∧
      (o.sid / 8 = g → o.kind = .rtr → o.post = none → o.cut = false → o.started = true → ¬here → ∀ u,
        let p : Post := ⟨o.key % 512, tag, false, g, op, 0, o.addr, o.len, sp.1, sp.2, none⟩
        (s.remotePut p = (u, .ok true) → exec (.rendezvousComplete g op) s = .next (ended u o false)) ∧
        (s.remotePut p = (u, .ok false) → exec (.rendezvousComplete g op) s = .next (ended u o true))) ∧
      (o.kind = .rtr → o.started = false ∨ here → o.post = none → exec (.rendezvousComplete g op) s = .next s)) ∧
    (∀ (t : State) (o : NOp) (f : EngineFail), t.cancComm o = ended t o true ∧ t.finComm o 5 0 none false = ended t o false ∧
      ((t.task o.task).status ≠ .ended → t.finComm o 5 0 (some f) false =
        ((ended t o true).addFail o.sid o.task f).postReport (o.stamp.report 5 f.cls f.fva o.prod 0))) ∧
    (∀ (cl e : Nat) (l : Launch), let y := fun (c i : Nat) => s.planAt c i
      s.sendBehind cl l e = true ↔ ∃ k ∈ s.clusters, ∃ m ∈ k.2.launches, ∃ x ∈ m.started, (y k.1 x.1).op = 1 ∧ (y k.1 x.1).module = s.module ∧
        m.slot * 1024 + (y k.1 x.1).tag = l.slot * 1024 + (y cl e).tag ∧ x.1 ∉ m.finished ∧ x.2 < l.started.get 0 e)

/-- R219, R220, R324, Tables 8-5 and 12-4: a waiting CPLN becomes a launch or fails for a malformed slot; a launch starts its lowest
eligible entry, at most eight of a cluster being in flight; an entry that ends raises its signal counter, and the last one ends the
launch. The bytes of other modules are free (log entry 28, the model's choice). -/
def Obligations.CollectivePlans : Prop :=
  ∀ (s : State) (cl launch e : Nat),
    let ls := (s.cluster cl).launches
    let slot := fun (n : Nat) => (((s.cluster cl).slots.get 0 n).toNat / 2 ^ 16 % 2 ^ 12, ((s.cluster cl).slots.get 0 n).toNat % 2 ^ 13)
    let raw := fun (i : Nat) => ((s.cluster cl).plan.get 0 i).toNat
    let f := fun (i lo n : Nat) => raw i / 2 ^ lo % 2 ^ n
    let malformed := fun (i : Nat) => f i 0 3 > 4 ∨ f i 3 2 = 3 ∨ f i 5 2 = 3 ∨ (f i 0 3 ≠ 0 ∧ f i 48 16 = 0) ∨
      ((f i 0 3 = 1 ∨ f i 0 3 = 2 ∨ f i 0 3 = 3) ∧ 287 < f i 39 9)
    let withL := fun (t : State) (h : Launch → Launch) => ({ t with clusters := t.clusters.set cl { t.cluster cl with
      launches := (t.cluster cl).launches.map (fun x => if x.id = launch then h x else x) } } : State)
    ((∀ l ∈ ls, l.id ≠ launch) → ∀ g o n, 8 * cl ≤ g → g < 8 * cl + 8 → s.commAt g launch = some o → o.kind = .cpln n →
      (∀ k, 8 * cl ≤ k → k < g → s.commAt k launch = none) →
      let bad : Prop := (slot n).2 = 0 ∨ 4096 < (slot n).1 + (slot n).2 ∨ ∃ i, (slot n).1 ≤ i ∧ i < (slot n).1 + (slot n).2 ∧ malformed i
      (o.started = true ∨ o.cut = true ∨ s.commFree o = false ∨ s.power.hold = true → exec (.planEntryStart cl launch) s = .next s) ∧
      (o.started = false → o.cut = false → s.commFree o = true → s.power.hold = false →
        (bad → s.frqFull = false → exec (.planEntryStart cl launch) s = .next (s.finComm o 6 0 (some ⟨.illenc, 0, 0, 0⟩) false)) ∧
        (¬bad → 4 ≤ ls.length → exec (.planEntryStart cl launch) s = .next s) ∧
        (¬bad → ls.length < 4 → ∃ t, exec (.planEntryStart cl launch) s = .next t ∧ t.commAt g launch = some { o with started := true } ∧
          (t.cluster cl).launches = ls ++ [⟨launch, g, n, (slot n).1, (slot n).2, o.bases, [], [], [], none⟩] ∧ t.mem = s.mem ∧
          t.strands = s.strands ∧ t.posts = s.posts))) ∧
    (∀ l o, ls.find? (fun x => x.id == launch) = some l → s.commAt l.core launch = some o → o.sid / 8 = l.core →
      let ready := fun (i : Nat) => l.started.get? i = none ∧ f i 15 8 ≤ l.counters.get 0 (f i 23 6)
      let sp := s.stampSpace o.sid o.stamp
      let at_ := fun (sel off : Nat) => ((nth (0 : Word) l.bases sel).toNat + off) % 2 ^ 64
      (s.power.hold = true → exec (.planEntryStart cl launch) s = .next s) ∧
      (o.cut = false → l.failed = none → s.power.hold = false →
        (8 ≤ (ls.map (fun x => x.started.length - x.finished.length)).sum ∨
            (∀ i, l.first ≤ i → i < l.first + l.count → ¬ready i) → exec (.planEntryStart cl launch) s = .next s) ∧
        ((ls.map (fun x => x.started.length - x.finished.length)).sum < 8 → l.first ≤ e → e < l.first + l.count → ready e →
          (∀ i, l.first ≤ i → i < e → ¬ready i) →
          let go := fun (t : State) => withL { t with nextId := t.nextId + 1 } (fun x => { x with started := x.started.set e s.nextId })
          ((f e 0 3 ≠ 2 ∧ f e 0 3 ≠ 3) ∨ f e 39 9 ≠ s.module → exec (.planEntryStart cl launch) s = .next (go s)) ∧
          (f e 0 3 = 2 ∨ f e 0 3 = 3 → f e 39 9 = s.module →
            (1024 ≤ s.posts.length → exec (.planEntryStart cl launch) s = .next s) ∧
            (s.posts.length < 1024 → exec (.planEntryStart cl launch) s = .next (go { s with posts := s.posts ++
              [⟨s.module, l.slot * 1024 + f e 29 10, true, l.core, l.id, e, at_ (f e 3 2) (f e 64 32), f e 48 16 * 64, sp.1, sp.2,
                if f e 0 3 = 3 then some (f e 7 2) else none⟩] }))))) ∧
      (l.started.get? e = none ∨ e ∈ l.finished → exec (.planEntryComplete cl launch e) s = .next s) ∧
      (l.started.get? e ≠ none → e ∉ l.finished → o.cut = false →
        let l1 := { l with
          finished := l.finished ++ [e]
          counters := l.counters.set (f e 9 6) (Nat.min 255 (l.counters.get 0 (f e 9 6) + 1)) }
        let done := fun (t : State) =>
          (l.finished.length + 1 < l.started.length → exec (.planEntryComplete cl launch e) s = .next (withL t (fun _ => l1))) ∧
          (l.finished.length + 1 = l.started.length → l.started.length = l.count → l.failed = none →
            ∃ u, exec (.planEntryComplete cl launch e) s = .next u ∧ u.mem = t.mem ∧ (∀ x ∈ (u.cluster cl).launches, x.id ≠ launch) ∧
              u.strands = (t.completeTok o.sid o.task o.prod false).strands ∧ u.commAt l.core launch = none)
        (f e 0 3 = 0 → done s) ∧
        (f e 0 3 = 4 → ∀ t, s.copyAll o (at_ (f e 3 2) (f e 64 32)) (at_ (f e 5 2) (f e 96 32)) (ceilDiv (f e 48 16 * 64) 4096)
          (f e 48 16 * 64) = (t, none) → done t) ∧
        (f e 0 3 = 1 → f e 39 9 ≠ s.module → ∀ t u ps, s.copyPlaces o.sid o.stamp (at_ (f e 3 2) (f e 64 32)) (f e 48 16 * 64) false =
          (t, .ok ps) → t.putAway (f e 39 9) ps (f e 48 16 * 64) = (u, .ok ()) → done u) ∧
        (f e 0 3 = 2 ∨ f e 0 3 = 3 → f e 39 9 = s.module → exec (.planEntryComplete cl launch e) s = .next s) ∧
        (f e 0 3 = 1 → f e 39 9 = s.module →
          let mine := fun (p : Post) => p.plan = true ∧ p.src = s.module ∧ p.tag = l.slot * 1024 + f e 29 10
          (s.sendBehind cl l e = true ∨ (∀ p ∈ s.posts, ¬mine p) → exec (.planEntryComplete cl launch e) s = .next s) ∧
          (s.sendBehind cl l e = false → ∀ pre p rest, s.posts = pre ++ p :: rest → (∀ x ∈ pre, ¬mine x) → mine p → f e 48 16 * 64 ≤ p.len → l.failed = none →
            (∀ m ∈ (s.cluster (p.core / 8)).launches, m.failed = none ∧ ∀ q, s.commAt m.core m.id = some q → q.cut = false) →
            ∀ t u ps ds, ({ s with posts := s.posts.filter (fun q => q != p) } : State).copyPlaces o.sid o.stamp
                (at_ (f e 3 2) (f e 64 32)) (f e 48 16 * 64) false = (t, .ok ps) →
              t.postPlaces p (f e 48 16 * 64) = (u, .ok ds) →
              ∃ v, exec (.planEntryComplete cl launch e) s = .next v ∧ v.posts = s.posts.filter (fun q => q != p) ∧
                (p.red = none → v.mem = (u.writeCells ds (u.readPieces ps) (u.poisonPieces ps)).mem) ∧
                (∀ ty, p.red = some ty → v.mem = (u.writeCells ds (addElems ty (u.readPieces ds) (u.readPieces ps))
                  (((u.poisonPieces ds).zip (u.poisonPieces ps)).map (fun x => x.1 || x.2))).mem)))))

/-- R34, R38, R40 to R42, R86, R117, R250 to R252, R254, R255, R270, R296: the sequencer takes the best ready entry whose resources are
free; a dispatch gives each member the state of Table 2-5; a continuation goes on where it was, and a saved task comes back on its
strands with its rows. What of a save area the spec does not lay out comes back as it was kept, the model's choice (log entry 35). -/
def Obligations.TasksDispatchAndResume : Prop :=
  ∀ (s : State) (cl : Nat),
    let better := fun (a b : Task) => s.entryPrio b < s.entryPrio a ∨ (s.entryPrio a = s.entryPrio b ∧
      (s.queueOf a < s.queueOf b ∨ (s.queueOf a = s.queueOf b ∧ (a.readyAt < b.readyAt ∨ (a.readyAt = b.readyAt ∧ a.id < b.id)))))
    (∀ k : Task, s.entryPrio k = Nat.min 15 (s.queueOf k + k.age + (if k.nextAge ≤ s.now then (s.now - k.nextAge) / 4096 + 1 else 0))) ∧
    (∀ k fore, k ∈ s.entriesOf cl fore ↔
      ((∃ id, (id, k) ∈ s.tasks) ∧ k.cluster = cl ∧ s.ready k = true ∧ ((k.kind ≠ .backfill ∨ (s.promoted k).isSome = true) ↔ fore = true)) ∨
      (s.jobCluster (cl / 10) = cl ∧ ∃ j ∈ s.jobsOf (cl / 10), (s.promoted j).isSome = fore ∧
        k = { j with cluster := cl, amRows := (s.entryAt cl (State.microOf j).entry).amRows, width := 1 })) ∧
    (∀ k, s.taken cl = some k → s.resourcesFree k = true ∧
      ((k ∈ s.entriesOf cl true ∧ ∀ e ∈ s.entriesOf cl true, s.resourcesFree e = true → ¬better e k) ∨
       (k ∈ s.entriesOf cl false ∧ (∀ e ∈ s.entriesOf cl true, s.resourcesFree e = false) ∧
        ∀ e ∈ s.entriesOf cl false, s.resourcesFree e = true → ¬better e k))) ∧
    (s.taken cl = none → ∀ fore, ∀ e ∈ s.entriesOf cl fore, s.resourcesFree e = false) ∧
    (s.power.hold = true → exec (.taskDispatch cl) s = .next s ∧ exec (.taskResume cl) s = .next s) ∧
    (s.taken cl = none → exec (.taskDispatch cl) s = .next s ∧ exec (.taskResume cl) s = .next s) ∧
    (∀ k seats line, s.place4 k cl = some (seats, line) →
      seats.length = k.width ∧ (seats.map (fun x => x.1 / 8)).Pairwise (· < ·) ∧ (k.width = 1 → line = none) ∧
      (k.width ≠ 1 → ∃ b, line = some b ∧ 4 * cl ≤ b ∧ b < 4 * cl + 4 ∧ s.braids.get? b = none) ∧
      ∀ x ∈ seats, 64 * cl ≤ x.1 ∧ x.1 < 64 * cl + 64 ∧ (s.strand x.1).task = 0 ∧ (s.core (x.1 / 8)).removed = false ∧
        (∀ n, x.1 / 8 * 8 ≤ n → n < x.1 → (s.strand n).task ≠ 0) ∧ x.2 % 32 = 0 ∧ x.2 + k.amRows ≤ 2048 ∧
        ∀ n, n / 8 = x.1 / 8 → (s.strand n).task ≠ 0 →
          x.2 + k.amRows ≤ (s.strand n).amBase ∨ (s.strand n).amBase + (s.strand n).amRows ≤ x.2) ∧
    (∀ k seats line, s.power.hold = false → s.taken cl = some k → k.status = .pool →
      s.place4 k cl = some (seats, line) → s.tasks.get? k.id = some k → k.id ≠ 0 →
      (∀ e ∈ k.crs, e.1 = 0x005 ∨ e.1 = 0x009) → (k.args.map (·.1)).Nodup →
      ∃ t, exec (.taskDispatch cl) s = .next t ∧ t.mem = s.mem ∧ (∀ n, n ∉ seats.map (·.1) → t.strand n = s.strand n) ∧
        (t.task k.id).status = .running ∧ (t.task k.id).cluster = cl ∧ (t.task k.id).age = 0 ∧ (t.task k.id).strands = seats.map (·.1) ∧
        (∀ b, line = some b → t.braids.get? b = some ⟨k.id, seats.map (·.1), [], none, []⟩) ∧
        ∀ j sid base, seats[j]? = some (sid, base) →
          let u := t.strand sid
          let m := State.microOf k
          let has := fun (r : Nat) (v : Word) => u.reg r = ⟨match k.args.find? (fun e => e.1 == r) with
            | some e => e.2
            | none => v, false⟩
          u.task = k.id ∧ u.vcc = 0 ∧ u.mpc = s.natAt (ucodeBase s.module cl + 32 * m.entry) 2 ∧ u.depth = 0 ∧ u.rstack = [] ∧
          u.member = j ∧ u.braid = line ∧ u.scopeId = k.scopeId ∧ u.fmtr = 0x11 ∧ u.vwb = base ∧ u.cw 0x030 = BitVec.ofNat 64 k.prio ∧
          u.cw 0x106 = BitVec.ofNat 64 ((0x6A09E667 + 0x9E3779B9 * (k.ordinal % 2 ^ 32) + 0x85EBCA6B * j) % 2 ^ 32) ∧
          (∀ i, i < 6 → has (1 + i) (BitVec.ofNat 64 (nth 0 m.origin i)) ∧ has (7 + i) (BitVec.ofNat 64 (nth 1 m.extent i)) ∧
            has (16 + i) (nth 0 m.descs i) ∧ u.level i = NestLevel.idle) ∧
          has 13 (BitVec.ofNat 64 k.ordinal) ∧ has 14 (BitVec.ofNat 64 j) ∧ has 15 (BitVec.ofNat 64 k.ctx) ∧
          (∀ r, 22 ≤ r → has r 0) ∧ (∀ n, n ≠ 0 → u.pred n = false) ∧ (∀ n, u.tok n = ⟨0, 0, false⟩) ∧
          u.trap = none ∧ u.replay = none ∧ u.handler = none ∧ u.latches = [] ∧ u.lb = [] ∧ u.wait = .none) ∧
    (∀ k, s.power.hold = false → s.taken cl = some k → k.status ≠ .pool → k.status ≠ .queued → s.tasks.get? k.id = some k →
      (k.status = .yielded → ∃ t, exec (.taskResume cl) s = .next t ∧ t.mem = s.mem ∧ (t.task k.id).status = .running ∧
        (t.task k.id).age = 0 ∧ (∀ sid ∈ k.strands, t.strand sid =
          { s.strand sid with wait := if (s.strand sid).wait = .idleYield then .none else (s.strand sid).wait }) ∧
        ∀ n, n ∉ k.strands → t.strand n = s.strand n) ∧
      (k.status ≠ .yielded → (k.saved.map (·.sid)).Nodup → ∃ t, exec (.taskResume cl) s = .next t ∧ (t.task k.id).saved = [] ∧
        (t.task k.id).status ∈ [TaskStatus.running, .ended, .frozenEnd] ∧
        (s.loadSaved k.saved).map (·.sid) = k.saved.map (·.sid) ∧
        (∀ x ∈ s.loadSaved k.saved, t.strand x.sid =
          { x.strand with wait := if x.strand.wait = .idleYield then .none else x.strand.wait }) ∧
        (∀ n, n ∉ k.saved.map (·.sid) → t.strand n = s.strand n) ∧
        (∀ x, s.loadSaved k.saved = [x] → Memory.wf s.mem = true →
          let c := rowBase (x.sid / 8) x.strand.amBase
          (∀ i, i < x.rows.length → t.peek (c + i) = x.rows.getD i 0) ∧ ∀ y, y < c ∨ c + x.rows.length ≤ y → t.peek y = s.peek y))) ∧
    (∀ x head data rows, s.sysGet (s.saveArea x.sid + 0x80) 0xA80 = some head → s.sysGet (s.saveArea x.sid + 0x1000) 0x4000 = some data →
      s.sysGet (s.saveArea x.sid + 0x10000) (512 * x.strand.amRows) = some rows →
      let y := s.loadStrand x
      let at_ := fun (off n : Nat) => leNat head.1 / 2 ^ (8 * (off - 0x80)) % 2 ^ (8 * n)
      s.loadSaved [x] = [y] ∧ y.sid = x.sid ∧ y.rows = rows.1 ∧ y.marks = rows.2 ∧ y.strand.task = x.strand.task ∧
      y.strand.amBase = x.strand.amBase ∧
      (∀ r, 0 < r → r < 64 → y.strand.reg r = ⟨BitVec.ofNat 64 (at_ (0x80 + 8 * r) 8), bitAt (at_ 0x280 8) r⟩) ∧
      (∀ i, 0 < i → i < 16 → y.strand.pred i = bitAt (at_ 0x288 8) i) ∧
      y.strand.depth = at_ 0x3C0 8 / 2 ^ 24 % 16 ∧ y.strand.opened = at_ 0x3C0 8 % 16 ∧ y.strand.rstack.length = y.strand.depth ∧
      (x.strand.handler = none → y.strand.replay = if bitAt (at_ 0x3C8 8) 17 then some ⟨at_ 0x778 64, at_ 0x7B8 8 % 1024⟩ else none))

/-- R43, R251, R269, R270, R272, R273: ageing, a braid's reservation, the marking and eviction of victims, and ballast made on demand and
killed for work that needs its place. The counting of ballast is the model's reading (log entry 36). -/
def Obligations.AgeingReservationsEvictionBallast : Prop :=
  ∀ (s : State) (cl id : Nat),
    let c := s.cluster cl
    let withC := fun (h : Cluster) => ({ s with clusters := s.clusters.set cl h } : State)
    let withK := fun (k : Task) => ({ s with tasks := s.tasks.set id k } : State)
    (∀ k, s.tasks.get? id = some k →
      (s.ready k = true ∨ k.status = .queued → k.nextAge ≤ s.now →
        exec (.ageTick id) s = .next (withK { k with age := k.age + 1, nextAge := k.nextAge + 4096 })) ∧
      ((s.ready k = false ∧ k.status ≠ .queued) ∨ s.now < k.nextAge → exec (.ageTick id) s = .next s) ∧
      (∀ m, k.marked = some m →
        let needed : Prop := ∃ e, s.tasks.get? k.victimOf = some e ∧
          (if e.status = .queued then ∃ j ∈ s.queuedJobs k.cluster true, j.id = e.id ∧ s.resourcesFree j = false
           else s.ready e = true ∧ s.resourcesFree e = false) ∧
          (∀ l ∈ s.locks, ∀ h, l.2.holder = some h → h.2 ≠ k.id) ∧ ∀ sid ∈ k.strands, (s.strand sid).wait ≠ .knot
        (¬needed → exec (.eviction id) s = .next (withK { k with marked := none })) ∧
        (needed → k.saving = none → k.status = .yielded ∨ (k.status = .running ∧ m + 16384 ≤ s.now) →
          exec (.eviction id) s = .next (withK { k with saving := some .evicted })) ∧
        (needed → k.saving.isSome = true ∨ (k.status ≠ .yielded ∧ (k.status ≠ .running ∨ s.now < m + 16384)) →
          exec (.eviction id) s = .next s)) ∧
      (k.marked = none → exec (.eviction id) s = .next s) ∧
      (let all := s.ballastIn k.cluster
       let wanted : Prop := (∃ sid ∈ k.strands, (s.cluster k.cluster).demand < s.ballastOn (sid / 8)) ∨
         ∃ e ∈ s.entriesOf k.cluster true ++ s.entriesOf k.cluster false, s.resourcesFree e = false ∧
           ((s.without [k]).resourcesFree e = true ∨ ((s.without all).resourcesFree e = true ∧
             (s.without (all.filter (fun x => x.id != k.id))).resourcesFree e = false))
       (k.kind = .ballast → wanted → exec (.ballastKill id) s = .next (s.killTask id .cancelled)) ∧
       (k.kind = .ballast → k.id = id → s.atBoundary k = true → s.killTask id .cancelled = s.dropTask k .cancelled) ∧
       (k.kind = .ballast → k.id = id → s.atBoundary k = false → (s.killTask id .cancelled).tasks = s.tasks ∧
         (s.killTask id .cancelled).strands = s.strands ∧ (s.killTask id .cancelled).isDoomed id 0 = true) ∧
       (k.kind ≠ .ballast ∨ ¬wanted → exec (.ballastKill id) s = .next s))) ∧
    (∀ k t, s.oldestBraid cl = some k → c.oldest = some (k.id, t) →
      (k.status = .pool ∧ 1 < k.width ∧ k.cluster = cl ∧ s.ready k = true) ∧
      (t + 65536 < s.now → s.reservedCores cl = [] → exec (.braidReservation cl) s = .next (withC { c with reserve := some k.id })) ∧
      (s.now ≤ t + 65536 ∨ s.reservedCores cl ≠ [] → exec (.braidReservation cl) s = .next s)) ∧
    (∀ k, c.reserve = some k.id → s.tasks.get? k.id = some k → k.status = .pool →
      s.reservedCores cl = ((span (8 * cl) 8).filter (fun g => !(s.core g).removed)).take k.width ∧
      ∀ x seats line, x.width = 1 → s.place4 x cl = some (seats, line) → ∀ y ∈ seats, y.1 / 8 ∉ s.reservedCores cl) ∧
    (∀ e t, s.starved cl = some e → c.top = some (e.id, t) →
      (s.now < t + 4096 ∨ s.victimRun e [] (s.victims cl e) = none → exec (.evictionMark cl) s = .next s) ∧
      (t + 4096 ≤ s.now → ∀ ks, s.victimRun e [] (s.victims cl e) = some ks → ∃ u, exec (.evictionMark cl) s = .next u ∧
        u.strands = s.strands ∧ u.mem = s.mem ∧ (∀ k ∈ ks, s.tasks.get? k.id = some k → u.tasks.get? k.id =
          some { k with marked := some s.now, victimOf := e.id }) ∧
        (∀ n, n ∉ ks.map (·.id) → u.tasks.get? n = s.tasks.get? n) ∧ ks <+: s.victims cl e ∧
        (s.without ks).resourcesFree e = true)) ∧
    (∀ e k, k ∈ s.victims cl e ↔ (∃ n, (n, k) ∈ s.tasks) ∧ k.cluster = cl ∧ (k.status = .running ∨ k.status = .yielded) ∧
      k.saving = none ∧ k.kind ≠ .ballast ∧ (∀ l ∈ s.locks, ∀ h, l.2.holder = some h → h.2 ≠ k.id) ∧
      (∀ sid ∈ k.strands, (s.strand sid).wait ≠ .knot) ∧ (k.kind = .backfill ∨ s.taskEff k + 4 ≤ s.queueOf e)) ∧
    (let w := s.devReg 0x200
     let n := w / 2 ^ 36 % 2 ^ 12
     let e := s.entryAt cl n
     let good : Prop := e.bad = false ∧ e.outMask = 0 ∧ e.inMask = 0 ∧ e.width = 0
     (c.demand = 0 ∨ bitAt w 35 = false → exec (.ballastDispatch cl) s = .next s) ∧
     (c.demand ≠ 0 → bitAt w 35 = true → ¬good →
       exec (.ballastDispatch cl) s = .next { s with telem := { s.telem with ballast := s.telem.ballast + 1 } }) ∧
     (c.demand ≠ 0 → bitAt w 35 = true → good → s.taken cl ≠ none →
       exec (.ballastDispatch cl) s = .next s) ∧
     (c.demand ≠ 0 → bitAt w 35 = true → good → s.taken cl = none → ∀ g sid base,
       8 * cl ≤ g → g < 8 * cl + 8 → g ∉ s.reservedCores cl → s.ballastOn g < c.demand → s.coreFits g e.amRows = some (sid, base) →
       (∀ k, 8 * cl ≤ k → k < g → k ∈ s.reservedCores cl ∨ c.demand ≤ s.ballastOn k ∨ s.coreFits k e.amRows = none) →
       ∃ t, exec (.ballastDispatch cl) s = .next t ∧ (t.task s.nextId).kind = .ballast ∧ (t.task s.nextId).status = .running ∧
         (t.task s.nextId).strands = [sid] ∧ (t.strand sid).task = s.nextId ∧ (t.strand sid).vwb = base ∧
         (t.strand sid).mpc = s.natAt (ucodeBase s.module cl + 32 * n) 2 ∧ (∀ m, m ≠ sid → t.strand m = s.strand m) ∧ t.mem = s.mem))

/-- R39, R191, R258, R259, R283, R290, R295 to R297, R306, R425: a die's best backfill job is dispatched or fails before it runs, and its entry
becomes VALID or DROPPED with its one report; a task whose work is over frees its strands and counts in its record; a record whose tasks
have all returned retires and its join counter falls. -/
def Obligations.JobsTasksAndRecordsRetire : Prop :=
  ∀ (s : State) (die id : Nat),
    let cl := s.jobCluster die
    (s.jobsOf die = [] ∨ (∀ k, s.taken cl = some k → k.status ≠ .queued) → exec (.backfillDispatch die) s = .next s) ∧
    (∀ j ∈ s.jobsOf die, s.tasks.get? j.id = some j →
      let e := s.entryAt cl (State.microOf j).entry
      let k := { j with cluster := cl, amRows := e.amRows, width := 1 }
      s.taken cl = some k →
      k.status = .queued ∧
      (∀ c, s.jobFault k cl = some c → ∃ t, exec (.backfillDispatch die) s = .next t ∧ t.strands = s.strands ∧ t.mem = s.mem ∧
        t.backfill.get [] die = (s.backfill.get [] die).filter (fun n => n != k.id) ∧
        t.tasks.get? k.id = some { j with status := .ended, failed := some c }) ∧
      (k.seq = none → s.jobFault k cl = some .illshape) ∧
      (∀ q, k.seq = some q →
        (e.bad = true ∨ e.width ≠ 0 → s.jobFault k cl = some .illenc) ∧
        (e.bad = false → e.width = 0 → (∀ x, s.seqUse (s.ctx k.ctx).walker.troot q.desc = .error x → s.jobFault k cl = some x) ∧
          ∀ d, s.seqUse (s.ctx k.ctx).walker.troot q.desc = .ok d →
            s.jobFault k cl = if d.layers ≤ q.layer then some .illshape else none)) ∧
      (s.jobFault k cl = none → s.power.hold = true → exec (.backfillDispatch die) s = .next s) ∧
      (s.jobFault k cl = none → s.power.hold = false → k.id ≠ 0 → ∀ seat line,
        s.place4 k cl = some ([seat], line) → k.args = [] →
        (∀ x ∈ k.crs, x.1 = 0x005 ∨ x.1 = 0x009) →
        ∃ t, exec (.backfillDispatch die) s = .next t ∧ t.mem = s.mem ∧ (∀ n, n ≠ seat.1 → t.strand n = s.strand n) ∧
          t.backfill.get [] die = (s.backfill.get [] die).filter (fun n => n != k.id) ∧ (t.task k.id).status = .running ∧
          (t.strand seat.1).task = k.id ∧ (t.strand seat.1).vwb = seat.2 ∧
          (∀ i, i < 3 → (t.strand seat.1).reg (1 + i) = ⟨BitVec.ofNat 64 (nth 0 (State.microOf k).origin i), false⟩) ∧
          (t.strand seat.1).mpc = s.natAt (ucodeBase s.module cl + 32 * (State.microOf k).entry) 2)) ∧
    (∀ k, s.tasks.get? id = some k → k.id = id →
      let root := (s.ctx k.ctx).walker.troot
      let through : Prop := k.status = .ended ∧ k.saving = none ∧ s.isDoomed id 0 = false ∧ (∀ r ∈ s.swRed, r.task ≠ id) ∧
        ∀ sid ∈ k.strands, (s.strand sid).fails = [] ∧ (s.strand sid).wq = [] ∧
        (∀ e ∈ (s.strand sid).lb, e.arrived = true ∨ e.req = .data) ∧
        (∀ o ∈ (s.core (sid / 8)).mq ++ (s.core (sid / 8)).gq, o.task ≠ id) ∧
        (∀ ch ∈ (s.core (sid / 8)).chans, ∀ o ∈ ch.2, o.task ≠ id) ∧ ∀ o ∈ (s.core (sid / 8)).nq, o.task ≠ id
      let settled := fun (st : Nat) (t : State) => t = s ∨ ∃ q d, k.seq = some q ∧ s.seqDesc root q.desc = .ok d ∧
        s.kvStateOr root d q.pos q.layer = 2 ∧ t = s.setKvState root d q.pos q.layer st
      (k.kind ≠ .backfill → exec (.backfillRetire id) s = .next s) ∧
      (k.kind = .backfill → ∀ c, k.failed = some c → s.frqFull = false → ∃ t, settled 3 t ∧ exec (.backfillRetire id) s = .next
        ((({ t with tasks := t.tasks.del id } : State).scopeUnbind k.home).postReport ⟨7, c, 0, (State.microOf k).recIdx,
          (State.microOf k).entry, 0, 0, k.home, k.ctx, if k.strands = [] then 0 else s.strandName (k.strands.headD 0)⟩)) ∧
      (k.kind = .backfill → k.failed = none → through → ∃ t, settled 1 t ∧ exec (.backfillRetire id) s = .next
        (({ t.leaveStrands k with tasks := (t.leaveStrands k).tasks.del id } : State).scopeUnbind k.home)) ∧
      (k.failed = none → ¬through → exec (.backfillRetire id) s = .next s ∧ exec (.taskRetire id) s = .next s) ∧
      (k.kind ≠ .backfill → through → s.retireSeq k = .busy → exec (.taskRetire id) s = .next s) ∧
      (k.kind ≠ .backfill → through → s.retireSeq k = .wait → exec (.taskRetire id) s = .next (s.kvJoin (1, id))) ∧
      (k.kind ≠ .backfill → through → ∀ u, s.retireSeq k = .ok u ∨ (∃ c, s.retireSeq k = .fail c ∧ u = s.failCtx k c) →
        ∃ t, exec (.taskRetire id) s = .next t ∧ t.tasks.get? id = none ∧
        (∀ n, n ≠ id → t.tasks.get? n = s.tasks.get? n) ∧
        (∀ sid ∈ k.strands, (s.strand sid).task = id → t.strand sid = Strand.idle) ∧
        (∀ n, n ∉ k.strands → t.strand n = s.strand n) ∧ (∀ b x, k.line = some b → s.braids.get? b = some x → x.task = id →
          t.braids.get? b = none) ∧
        (∀ r, u.records.get? k.record = some r → t.records.get? k.record =
          some { r with returned := r.returned + 1, wBack := r.wBack + k.weight }) ∧
        (∀ c, s.retireSeq k = .fail c → (s.ctx k.ctx).state ≠ 0 → (t.ctx k.ctx).state = 3) ∧
        (∀ e, s.scopes.get? k.home = some e → 1 < e.live → (∀ sid ∈ k.strands, (s.strand sid).opened = 0) →
          t.scopes.get? k.home = some { e with live := e.live - 1 })) ∧
      (∀ q, k.seq = some q →
        let exit := k.strands.any (fun sid => bitAt ((s.strand sid).cwn 0x008) 0)
        let turn := fun (t : State) => if q.app then t.inTurn (1, k.id) (t.appendRun root q.desc q.layer q.pos q.count) else .ok t
        (exit = false → s.retireSeq k = turn s) ∧
        (exit = true → ∀ d, s.seqDesc root q.desc = .ok d → s.retireSeq k = turn (s.seqFlag root d 62 true)))) ∧
    (∀ r, s.records.get? id = some r →
      let done : Prop := r.issuing = false ∧ r.returned = r.total ∧ (∀ l ∈ s.lowered, l.record ≠ id) ∧
        (if bitAt (s.devReg 0x208) r.ctx then r.wBack = r.wTotal else r.spawned = false ∨ r.declared = true)
      (¬done → exec (.recordRetire id) s = .next s) ∧
      (done → (r.join = none → exec (.recordRetire id) s = .next { s with records := s.records.del id }) ∧
        ∀ j, r.join = some j → ∃ t, exec (.recordRetire id) s = .next t ∧ t.records = s.records.del id ∧ t.mem = s.mem ∧
          t.strands = s.strands ∧ t.tasks = s.tasks ∧ (t.ctx r.ctx).walker.j.get 0 j = (s.ctx r.ctx).walker.j.get 0 j - 1 ∧
          ∀ c, c ≠ r.ctx → t.ctx c = s.ctx c))

/-- R257 to R262: the walker of a context with an open spawning record samples its module's signal and counts, and two samples 64 cycles
apart that agree declare termination; a parent at weight 1 fetches more; the steal token attaches, grants and drops requests at this
module, and a stolen task's completion makes it retire. What other modules hold and send is free. The free remote side and the weights
of tile tasks are the model's choice (log entries 28 and 33). -/
def Obligations.TerminationAndStealing : Prop :=
  ∀ (s : State) (c id m count : Nat),
    let weighted := bitAt (s.devReg 0x208) c
    let sig : Bool := s.quietCtx c
    let xs := s.steal.samples.get [] c
    (sig = true ↔ (∀ e ∈ s.tasks, e.2.ctx = c → e.2.kind = .ballast ∨ e.2.status = .away) ∧ ∀ g ∈ s.cores,
      (∀ o ∈ g.2.mq ++ g.2.gq, o.stamp.ctx = c → isCtrl o.sid = true) ∧
      (∀ ch ∈ g.2.chans, ∀ o ∈ ch.2, o.stamp.ctx = c → isCtrl o.sid = true) ∧
      ∀ o ∈ g.2.nq, o.stamp.ctx = c → isCtrl o.sid = true) ∧
    (let open_ : Prop := ∃ e ∈ s.records, e.2.ctx = c ∧ e.2.spawned = true ∧ e.2.declared = false
     (weighted = false → open_ → exec (.terminationSample c) s = .next { s with steal := { s.steal with
       samples := s.steal.samples.set c (xs ++ [(s.now, sig, s.steal.sent.get 0 c, s.steal.done.get 0 c)]) } }) ∧
     (weighted = true ∨ ¬open_ → exec (.terminationSample c) s = .next s)) ∧
    (let agree : Prop := ∃ a ∈ xs, ∃ b ∈ xs, a.1 + 64 = b.1 ∧ a.2.1 = true ∧ b.2.1 = true ∧ a.2.2.1 = a.2.2.2 ∧ b.2.2.1 = b.2.2.2 ∧
       a.2.2 = b.2.2
     (¬agree → exec (.terminationDeclare c) s = .next s) ∧
     (agree → exec (.terminationDeclare c) s = .next { s with
       records := s.records.map (fun e =>
         (e.1, { e.2 with declared := e.2.declared || (e.2.ctx == c && e.2.spawned && !e.2.issuing) }))
       steal := { s.steal with samples := s.steal.samples.set c [] } })) ∧
    (∀ k, s.tasks.get? id = some k →
      (bitAt (s.devReg 0x208) k.ctx = false ∨ 1 < k.weight / 2 ^ k.hold.length → exec (.weightFetch id) s = .next s) ∧
      (bitAt (s.devReg 0x208) k.ctx = true → k.weight / 2 ^ k.hold.length ≤ 1 → ∃ t, exec (.weightFetch id) s = .next t ∧
        (t.task id).weight = k.weight + 2 ^ 31 ∧ t.mem = s.mem ∧ t.strands = s.strands ∧
        ((∀ e ∈ s.tasks, e.2.status = .parked → e.2.cluster ≠ k.cluster) → t.tasks = s.tasks.set id { k with weight := k.weight + 2 ^ 31 }) ∧
        (∀ r, s.records.get? k.record = some r → t.records = s.records.set k.record { r with wTotal := r.wTotal + 2 ^ 31 }) ∧
        (s.records.get? k.record = none → t.records = s.records)) ∧
      (k.status ≠ .away → exec (.stolenTaskCompletion id) s = .next s) ∧
      (k.status = .away → k.id = id → ∃ t, exec (.stolenTaskCompletion id) s = .next t ∧ t.tasks = s.tasks.del id ∧
        t.steal.done = s.steal.done.set k.ctx (s.steal.done.get 0 k.ctx + 1) ∧ t.strands = s.strands ∧
        (∀ r, s.records.get? k.record = some r → t.records.get? k.record =
          some { r with returned := r.returned + 1, wBack := r.wBack + k.weight }) ∧
        ∀ e, s.scopes.get? k.home = some e → 1 < e.live → t.scopes.get? k.home = some { e with live := e.live - 1 })) ∧
    (let low := s.devReg 0x200 % 2 ^ 12
     let high := s.devReg 0x200 / 2 ^ 12 % 2 ^ 12
     let own := s.stealable
     let noted := fun (n : Nat) (r : Option Nat) => ({ s with steal := { s.steal with request := r, counts := s.steal.counts.set m n, token := some (m, s.now) } } : State)
     let passes := fun (t : State) => exec (.stealTokenPass m count) s = .next t
     (∀ k, k ∈ own ↔ (∃ n, (n, k) ∈ s.tasks) ∧ k.status = .pool ∧ k.steal = true ∧ k.region = false ∧ s.parentDone k = true ∧
       s.ctxLive k.ctx = true ∧ s.deadAt k.cluster k.home = false) ∧
     (let far := fun (x y : Nat) => (y + 287 - x) % 288
      s.tokenNext m = true ↔ m < 288 ∧ ∀ x since, s.steal.token = some (x, since) → since + 1200 ≤ s.now ∧
        s.service.absent.contains m = false ∧ (m = s.module ∨ far x m < far x s.module)) ∧
     (bitAt (s.devReg 0x200) 34 = false ∨ s.tokenNext m = false → passes s) ∧
     (bitAt (s.devReg 0x200) 34 = true → s.tokenNext m = true → m = s.module →
       (s.steal.request = none → own.length < low → passes (noted own.length (some m))) ∧
       (s.steal.request = none → low ≤ own.length → passes (noted own.length none)) ∧
       (s.steal.request = some m → passes (noted own.length none)) ∧
       (∀ r, s.steal.request = some r → r ≠ m → own.length ≤ high → passes (noted own.length (some r))) ∧
       (∀ r, s.steal.request = some r → r ≠ m → high < own.length →
         let n := Nat.min 16 ((own.length - high) / 2)
         ∃ t, passes t ∧ t.steal.request = none ∧ t.strands = s.strands ∧ (s.swRed = [] → t.mem = s.mem) ∧
           ∀ k ∈ own.take n, s.tasks.get? k.id = some k → (t.task k.id).status = .away ∧
             (t.steal.sent.get 0 k.ctx = s.steal.sent.get 0 k.ctx + ((own.take n).filter (fun x => x.ctx == k.ctx)).length))) ∧
     (bitAt (s.devReg 0x200) 34 = true → s.tokenNext m = true → m ≠ s.module → ∃ t, passes t ∧ t.strands = s.strands ∧
       t.steal.counts = s.steal.counts.set m count ∧ (s.steal.request = some m → t.steal.request = none ∧ t.tasks = s.tasks) ∧
       ∀ n, n < s.nextId → t.tasks.get? n = s.tasks.get? n))

/-- R254, R308 to R311, R315, R319, R320, Tables 12-2, 12-3, 12-9: a CANCEL takes effect at a unit once, felling the subtree's work there
and counting it, and completes when the subtree is quiescent, with its word; a task to be saved is taken off its strands with all their
state, and they and their rows are free. Where stolen work and the packing of save areas show, they are the model's choice (log entries
35 and 39). -/
def Obligations.CancelsAndSaves : Prop :=
  ∀ (s : State) (id unit : Nat),
    (∀ c, s.cancels.get? id = some c →
      let taken := c.taken ++ [unit]
      let mine := fun (k : Task) => s.scopeUnder c.target k.home = true ∧
        (if k.status = .queued then ∃ u ∈ taken, 80 ≤ u ∧ u < 88 ∧ k.id ∈ s.backfill.get [] (u - 80) else k.cluster ∈ taken)
      let marked := ({ s with cancels := s.cancels.set id { c with taken := taken } } : State)
      (unit ∈ c.taken ∨ 152 ≤ unit → exec (.cancelTakeEffect id unit) s = .next s) ∧
      (unit ∉ c.taken → unit < 152 →
        (c.void = true ∨ c.target = 0 → exec (.cancelTakeEffect id unit) s = .next marked) ∧
        ((∀ e ∈ s.tasks, ¬mine e.2 ∧ e.2.status ≠ .parked) → exec (.cancelTakeEffect id unit) s = .next marked) ∧
        (∀ n k, c.void = false → c.target ≠ 0 → s.tasks = [(n, k)] → k.id = n → mine k → k.kind = .op → s.locks = [] →
          s.isDoomed n 0 = false →
          let counts := fun (t : State) (a b : Nat) => ∃ x, t.cancels.get? id = some x ∧ x.taken = taken ∧ x.killed = c.killed + a ∧
            x.removed = c.removed + b
          ∃ t, exec (.cancelTakeEffect id unit) s = .next t ∧
            (k.status = .pool → t.tasks.get? n = none ∧ counts t 0 1) ∧
            (k.status = .evicted ∨ k.status = .saved ∨ k.status = .parked → counts t 0 1 ∧ (s.mayKill k = true → t.tasks.get? n = none)) ∧
            (k.status = .running ∨ k.status = .yielded ∨ k.status = .ended → k.failed = none → counts t 1 0 ∧ (s.mayKill k = true →
              t.tasks.get? n = none ∧ ∀ sid ∈ k.strands, (s.strand sid).task = n → t.strand sid = Strand.idle)) ∧
            (k.status ≠ .pool → k.status ≠ .queued → k.status ≠ .away → k.failed = none → s.mayKill k = false →
              t.isDoomed n 0 = true ∧ t.strands = s.strands ∧ ∃ x, t.tasks.get? n = some x ∧ x.status = k.status) ∧
            (k.status = .away → t.tasks.get? n = some k ∧ counts t 0 0))) ∧
      (let quiet : Prop := c.void = true ∨ (s.deadEngines c.ctx = false ∧
          (∀ r ∈ s.swRed, r.task = 0 ∨ ∃ k, s.tasks.get? r.task = some k ∧ k.failed = none) ∧ (c.target = 0 ∨ ((∀ u, u < 152 → u ∈ c.taken) ∧
          ∀ e ∈ s.tasks, s.scopeUnder c.target e.2.home = false ∨ e.2.status = .away)))
       let word := 2 ^ 63 + (if c.void then 2 ^ 62 else 0) + Nat.min c.killed (2 ^ 20 - 1) * 2 ^ 20 + Nat.min c.removed (2 ^ 20 - 1)
       let gone := fun (t : State) (canc : Bool) =>
         let u : State := { t with cancels := (t.cancels.del id).map (fun e =>
           if e.2.target = c.target ∧ c.target ≠ 0 then (e.1, { e.2 with taken := State.cancelUnits }) else e) }
         match c.sid with
         | some sid => u.completeTok sid c.task c.prod canc
         | none => u
       let root := match c.sid with
         | some sid => if isCtrl sid then (s.ctrlSpace (sid / 8 - 4096)).2 else (s.ctx c.ctx).walker.troot
         | none => (s.ctx c.ctx).walker.troot
       (¬quiet → exec (.cancelComplete id) s = .next s) ∧
       (quiet → c.word = 0 → exec (.cancelComplete id) s = .next (gone s false)) ∧
       (quiet → 2 ^ 32 ≤ c.word → c.word + 8 ≤ 2 ^ 57 → (∀ ps, s.vplaces root .store [(c.word, 8)] = .ok ps →
           exec (.cancelComplete id) s = .next (gone (s.vput root c.word 8 word) false)) ∧
         (∀ e, s.vplaces root .store [(c.word, 8)] = .error e → s.frqFull = false → exec (.cancelComplete id) s =
           .next (gone (s.postReport (c.stamp.report 10 e c.word c.prod 0)) true))))) ∧
    (∀ k st, s.tasks.get? id = some k → k.id = id → k.saving = some st →
      let free : Prop := s.isDoomed id 0 = false ∧ (∀ e ∈ s.cancels, e.2.task ≠ id) ∧ ∀ sid ∈ k.strands, s.reportHeld sid = false ∧
        (s.strand sid).xlat = [] ∧ (s.strand sid).wq = [] ∧
        (∀ e ∈ (s.strand sid).lb, e.arrived = true) ∧ ((s.strand sid).handler = none ∨ (s.strand sid).settled = true)
      (s.taskEngines k = true ∨ ¬free → exec (.preemptSaveComplete id) s = .next s) ∧
      (s.taskEngines k = false → free → (st = .saved → s.frqFull = false) → k.strands.Nodup →
        (∀ sid ∈ k.strands, (s.strand sid).task = id ∧ ∀ a, (s.strand sid).wait ≠ .lock a) → s.locks = [] → (∀ n, (s.strand n).inherit = 0) →
        ∃ t, exec (.preemptSaveComplete id) s = .next t ∧ (t.task id).status = st ∧ (t.task id).saving = none ∧
          (t.task id).saved.map (·.sid) = k.strands ∧ (∀ sid ∈ k.strands, t.strand sid = Strand.idle) ∧
          (∀ n, n ∉ k.strands → t.strand n = s.strand n) ∧
          ∀ x ∈ (t.task id).saved,
            let o := s.strand x.sid
            x.strand.g = o.g ∧ x.strand.p = o.p ∧ x.strand.q = o.q ∧ x.strand.cr = o.cr ∧ x.strand.fmtr = o.fmtr ∧
            x.strand.vcc = o.vcc ∧ x.strand.mpc = o.mpc ∧ x.strand.depth = o.depth ∧ x.strand.rstack = o.rstack ∧
            x.strand.nest = o.nest ∧ x.strand.cnest = o.cnest ∧ x.strand.latches = o.latches ∧ x.strand.lb = o.lb ∧
            x.strand.redirect = o.redirect ∧ x.strand.trap = o.trap ∧ x.strand.handler = o.handler ∧
            (k.status ≠ .running ∨ o.replay.isSome = true → x.strand.replay = o.replay) ∧
            (k.status = .running → o.replay = none → o.handler = none → o.trap = none → o.wait.idle = false → 0x800 ≤ o.mpc →
              ∃ b, x.strand.replay = some ⟨b, 0⟩) ∧
            x.rows.length = 512 * o.amRows ∧ x.marks.length = 512 * o.amRows) ∧
      (s.frqFull = true → st = .saved → s.taskEngines k = false → free →
        ∃ t, exec (.preemptSaveComplete id) s = .next t ∧ t.tasks = s.tasks ∧ t.strands = s.strands)) ∧
    (∀ sid home r, r < 64 → ((s.areaHead sid home).drop (8 * r)).take 8 = leBytes 8 ((s.strand sid).val r).toNat) ∧
    (∀ k, s.tasks.get? id = some k → k.id = id → ∀ cls,
      (s.mayKill k = true ↔ (∀ sid ∈ k.strands, (s.strand sid).task = id → (s.strand sid).xlat = []) ∧
        (s.frqFull = true → k.kind = .backfill ∨ k.kind = .ballast)) ∧
      (s.mayKill k = false → (s.killTask id cls).tasks = s.tasks ∧ (s.killTask id cls).strands = s.strands ∧
        (s.killTask id cls).mem = s.mem ∧ (s.killTask id cls).isDoomed id 0 = true))

/-- R86, R97, R315, R316, R317, R515, Table 12-5: STRANDCMD resumes, hands to a handler, kills or pre-empts the strand it names, or is
refused with ERR; SYSRET leaves handler mode at the held VCC, with what was frozen; an uncorrectable error kills the one task it is
found in. That a control core's strand is not pre-empted is the model's reading (log entry 10). -/
def Obligations.StrandCommandsAndReturn : Prop :=
  ∀ (s : State) (target handler sid : Nat),
    let t := s.strand sid
    let names := fun (n : Nat) => target / 2 ^ 16 = s.module ∧ target % 2 ^ 16 = n ∧ (if 2 ^ 15 ≤ n then n / 8 < 4096 + 64 ∧
      ((s.strand n).mpc ≠ 0 ∨ (s.strand n).trap ≠ none) else n < 5120 ∧ (s.strand n).task ≠ 0)
    let refused := fun (i : Instr) => exec i s = .next (s.endCommand 0x528 true)
    let resumed := fun (x : Strand) => { x with
      trap := none, pass := .none, grp := ⟨true, 0, [], [], none, []⟩, wait := if x.wait.idle then x.wait else .none }
    (∀ (u : State) (e : Bool), let v := u.endCommand 0x528 e
      (v.strands = u.strands ∧ v.mem = u.mem ∧ v.tasks = u.tasks) ∧ (∀ off, off ≠ 0x528 → v.devReg off = u.devReg off) ∧
      bitAt (v.devReg 0x528) 61 = e ∧ bitAt (v.devReg 0x528) 62 = false ∧
      ∀ i, i ≠ 61 → i ≠ 62 → bitAt (v.devReg 0x528) i = bitAt (u.devReg 0x528) i) ∧
    ((∀ n, ¬names n) → refused (.strandcmdResume target) ∧ refused (.strandcmdHandler target handler) ∧
      refused (.strandcmdKill target) ∧ refused (.strandcmdPreempt target)) ∧
    (names sid →
      (s.frozen sid = false → refused (.strandcmdResume target)) ∧
      (s.frozen sid = true → s.reportHeld sid = true → exec (.strandcmdResume target) s = .next (s.busyCommand 0x528)) ∧
      (∀ tr, t.trap = some tr → t.braid = none → (s.task t.task).status ≠ .frozenEnd → 0x800 ≤ handler → s.reportHeld sid = true →
        exec (.strandcmdHandler target handler) s = .next (s.busyCommand 0x528)) ∧
      (t.braid = none → (s.reportHeld sid = true ↔ ∃ r ∈ s.frqHeld, r.kind = 0 ∧ r.strand = s.strandName sid)) ∧
      (s.frozen sid = true → s.reportHeld sid = false → (s.task t.task).status ≠ .frozenEnd →
        exec (.strandcmdResume target) s = .next ((s.resumeGang sid).endCommand 0x528 false)) ∧
      (t.braid = none → (s.resumeGang sid).strand sid = resumed t ∧ ∀ n, n ≠ sid → (s.resumeGang sid).strand n = s.strand n) ∧
      (∀ b x, t.braid = some b → s.braids.get? b = some x → x.members.Nodup →
        (∀ m ∈ x.members, (s.resumeGang sid).strand m = resumed (s.strand m)) ∧
        ∀ n, n ∉ x.members → (s.resumeGang sid).strand n = s.strand n) ∧
      (t.trap = none ∨ t.braid.isSome = true ∨ (s.task t.task).status = .frozenEnd ∨ handler < 0x800 →
        refused (.strandcmdHandler target handler)) ∧
      (∀ tr, t.trap = some tr → t.braid = none → (s.task t.task).status ≠ .frozenEnd → 0x800 ≤ handler → s.reportHeld sid = false →
        ∃ u : State, exec (.strandcmdHandler target handler) s = .next (u.endCommand 0x528 false) ∧ (∀ n, n ≠ sid → u.strand n = s.strand n) ∧
          u.mem = s.mem ∧
          let x := u.strand sid
          x.handler = some ⟨t.mpc, t.vcc, t.base, t.replay, t.redirect, t.nestUpd, tr⟩ ∧ x.cw 0x010 = BitVec.ofNat 64 t.mpc ∧
          x.mpc = handler ∧ x.vcc = t.vcc ∧ x.trap = none ∧ x.replay = none ∧ x.redirect = none ∧ x.nestUpd = [] ∧
          x.grp.fresh = true ∧ x.nest = t.nest ∧ x.g = t.g ∧ x.p = t.p ∧ x.q = t.q ∧
          x.latches = t.latches.map (fun l => { l with frozen := true }) ∧ x.lb = t.lb.map (fun e => { e with frozen := true })) ∧
      (∀ k, sid < 2 ^ 15 → s.tasks.get? t.task = some k → k.id = t.task → k.kind = .op → t.braid = none → s.locks = [] →
        k.strands = [sid] →
        let cls := match t.trap, t.handler with
          | some tr, _ => tr.cls
          | none, some h => h.trap.cls
          | none, none => .cancelled
        (exec (.strandcmdKill target) s = .next ((s.killTask t.task cls).endCommand 0x528 false)) ∧
        (t.xlat = [] → s.frqFull = false → (s.killTask t.task cls).tasks.get? t.task = none ∧
          (s.killTask t.task cls).strand sid = Strand.idle ∧ (s.killTask t.task cls).isDoomed t.task 0 = false) ∧
        (t.xlat ≠ [] ∨ s.frqFull = true → (s.killTask t.task cls).tasks = s.tasks ∧ (s.killTask t.task cls).strands = s.strands ∧
          (s.killTask t.task cls).isDoomed t.task 0 = true) ∧
        exec (.uncorrectableError sid) s = .next (s.killTask t.task .mchk) ∧
        exec (.strandcmdPreempt target) s =
          .next (({ s with tasks := s.tasks.set t.task { k with saving := some .saved } } : State).endCommand 0x528 false)) ∧
      (2 ^ 15 ≤ sid → refused (.strandcmdPreempt target)) ∧
      (∀ k, sid < 2 ^ 15 → s.tasks.get? t.task = some k → k.id = t.task → k.kind = .ballast →
        exec (.strandcmdPreempt target) s = .next ((s.killTask t.task .cancelled).endCommand 0x528 false))) ∧
    (sid < 2 ^ 15 → t.task = 0 → exec (.uncorrectableError sid) s = .next s) ∧
    (∀ g, g < 2 ^ 16 → s.frqFull = false →
      (∀ o, s.runningMat g = some o → exec (.uncorrectableError (2 ^ 16 + g)) s = .next (s.endMat o 2 (some ⟨.mchk, 0, Kind.load.code, 0⟩) false)) ∧
      (∀ o, (s.core g).gq.find? (fun x => x.started) = some o →
        exec (.uncorrectableError (2 ^ 17 + g)) s = .next (s.endMat o 3 (some ⟨.mchk, 0, Kind.load.code, 0⟩) false))) ∧
    (s.cur = sid →
      (t.handler = none → exec .sysret s = .next (s.raise .accv)) ∧
      (t.handler.isSome = true → exec .sysret s = .next { s with strands := s.strands.set sid { t with returning := true } })) ∧
    (∀ h, t.returning = true → t.handler = some h → t.task ≠ 0 → (s.closeOne sid).strand sid = t.sysReturn h) ∧
    (∀ (x : Strand) (h : Handler),
      let u := x.sysReturn h
      u.handler = none ∧ u.vcc = h.hvcc ∧ u.mpc = (x.cw 0x010).toNat ∧ u.returning = false ∧ u.grp.fresh = true ∧ u.nestUpd = h.nestUpd ∧
      ((x.cw 0x010).toNat = h.hmpc → u.replay = h.replay ∧ u.redirect = h.redirect) ∧
      ((x.cw 0x010).toNat ≠ h.hmpc → u.replay = none ∧ u.redirect = none) ∧ (∀ r, u.reg r = x.reg r) ∧ (∀ r, u.pred r = x.pred r) ∧
      (∀ l ∈ x.latches, l.frozen = true → { l with frozen := false } ∈ u.latches) ∧
      ∀ e ∈ x.lb, { e with frozen := false } ∈ u.lb)

/-- R25, R26, R51, R188, R191, R357, R416, R421, R435: a record that waits tries again once what it waits for is over; a timer and a
doorbell end a G.YIELD; a walker trap puts the context into state 3 with the record's index and a report of kind 8, and the record has
no effect: what it has issued goes, and other records' work stays. What a walker trap takes back of its record is the model's reading
(log entry 44). -/
def Obligations.WalkerWaitsAndTraps : Prop :=
  ∀ (s : State) (c cl : Nat),
    let x := s.ctx c
    let wakes := fun (i : Instr) (n : Nat) => exec i s = .next { s with
      ctxs := s.ctxs.set n { s.ctx n with state := 1, wait := .none }, agenda := .walker n :: s.agenda }
    let goes := fun (i : Instr) (d : Map Word) => exec i s = .next { s with curCtx := c, ctxs := s.ctxs.set c { x with
      state := 1, wait := .none, progress := 0, issued := 0
      walker := { x.walker with d := d, gpc := (x.walker.gpc + 32) % 2 ^ 64 } } }
    let stays := fun (i : Instr) => exec i s = .next s
    (x.leaving = true → stays (.recordWaitEnd c) ∧ stays (.handleRewritePerform c) ∧ stays (.yieldTimerExpire c) ∧
      stays (.doorbellChange c)) ∧
    (x.leaving = false →
      (x.wait = .record → wakes (.recordWaitEnd c) c) ∧
      (∀ n, x.wait = .quiescent n → (s.cancels.get? n = none → goes (.recordWaitEnd c) x.walker.d) ∧
        (s.cancels.get? n ≠ none → stays (.recordWaitEnd c))) ∧
      (x.wait = .none ∨ x.wait = .rewrite ∨ x.wait = .alloc → stays (.recordWaitEnd c)) ∧
      (x.wait = .rewrite → wakes (.handleRewritePerform c) c) ∧ (x.wait ≠ .rewrite → stays (.handleRewritePerform c)) ∧
      (∀ n, x.wait = .timer n → (n ≤ s.now → goes (.yieldTimerExpire c) x.walker.d) ∧ (s.now < n → stays (.yieldTimerExpire c))) ∧
      (∀ va r, x.wait = .bell va r → 2 ^ 32 ≤ va → va + 8 ≤ 2 ^ 57 → ∀ ps,
        s.vplaces x.walker.troot .load (pageCut va 8) = .ok ps → (∀ p ∈ ps, s.poisonIn p.1 p.2 = false) →
        let v := leNat (ps.foldr (fun p acc => s.bytesAt p.1 p.2 ++ acc) [])
        (v = (x.walker.d.get 0 r).toNat → stays (.doorbellChange c)) ∧
        (v ≠ (x.walker.d.get 0 r).toNat → goes (.doorbellChange c) (x.walker.d.set r (BitVec.ofNat 64 v)))) ∧
      (∀ va r e, x.wait = .bell va r → s.vplaces x.walker.troot .load (pageCut va 8) = .error e → 2 ^ 32 ≤ va → va + 8 ≤ 2 ^ 57 →
        exec (.doorbellChange c) s = .next (({ s with curCtx := c } : State).walkerTrap e 0))) ∧
    ((s.cluster cl).allocWait = [] → stays (.allocGrant cl)) ∧
    (∀ n j rest, (s.cluster cl).allocWait = (n, j) :: rest →
      (((s.cluster cl).regions.take j).isSome = true → (s.ctx n).leaving = false → wakes (.allocGrant cl) n) ∧
      ((s.cluster cl).regions.take j = none ∨ (s.ctx n).leaving = true → stays (.allocGrant cl))) ∧
    (∀ (cls : TrapClass) (entry : Nat), s.curCtx = c →
      let t := s.walkerTrap cls entry
      let index := (((x.walker.gpc : Int) - x.walker.gbase) % 2 ^ 64).toNat / 32 % 2 ^ 32
      (s.frqFull = true → t = { s with telem := { s.telem with holding := true } }) ∧
      (s.frqFull = false → (t.ctx c).state = 3 ∧ (t.ctx c).trap = some (cls, index, entry) ∧ (t.ctx c).wait = .none ∧
        (∀ n, n ≠ c → t.ctx n = s.ctx n) ∧
        ((∀ e ∈ s.tasks, e.2.id = e.1) → ∀ n, n ≠ x.issued → t.records.get? n = s.records.get? n) ∧
        (∀ r, s.records.get? x.issued = some r →
          (∀ n, (t.ctx c).walker.j.get 0 n = if r.join = some n then x.walker.j.get 0 n - 1 else x.walker.j.get 0 n) ∧
          (s.locks = [] → (∀ e ∈ s.tasks, e.2.id = e.1) → ∀ n k, s.tasks.get? n = some k →
            (k.record ≠ x.issued → t.tasks.get? n = some k) ∧
            (k.record = x.issued → k.status = .pool → k.kind ≠ .backfill → t.tasks.get? n = none) ∧
            (k.record = x.issued → k.status ≠ .pool → k.kind ≠ .backfill → t.tasks.get? n = none ∨ t.isDoomed n 0 = true)))) ∧
      (s.frqFull = false → s.records.get? x.issued = none → (t.ctx c).walker = x.walker ∧ t.strands = s.strands ∧ t.tasks = s.tasks ∧
        t.frqHeld = s.frqHeld ∧ t.devReg 0x518 = (s.devReg 0x518 + 1) % 2 ^ 32 ∧
        ∀ pa, s.sysPa (s.devReg 0x510 / 4096 % 2 ^ 45 * 4096 + 32 * (s.devReg 0x518 % s.frqSize)) .store = some pa →
          Memory.wf s.mem = true →
          let v := t.natAt pa 32
          v / 2 ^ 192 = 0 ∧ v / 2 ^ 160 % 2 ^ 32 = index ∧ v / 2 ^ 148 % 2 ^ 12 = entry % 2 ^ 12 ∧
          v / 2 ^ 64 % 2 ^ 16 = x.walker.wscope % 2 ^ 16 ∧ v / 2 ^ 48 % 2 ^ 8 = cls.code ∧ v / 2 ^ 44 % 2 ^ 4 = 8 ∧
          v / 2 ^ 38 % 2 ^ 6 = c % 2 ^ 6 ∧ v % 2 ^ 25 = 0))

/-- R182, R183, R303, R322, R330, R331, R334, Tables 7-5 and 13-2: the commands of control cores: a context starts from its block or from
its saved state, stops, and is pre-empted with its work kept or discarded; a shoot-down drops every matching translation and line, waits
for what holds one, and counts; a spare takes a core's place. What a discard, a stop and a resumption leave of a context, and the length
of a measured image, are the model's in part (log entries 40 and 55). -/
def Obligations.ControlCoreCommands : Prop :=
  ∀ (s : State) (c asid va size die core : Nat),
    let x := s.ctx c
    let free : Prop := s.service.command = none ∧ s.boot.phase ≠ 2 ∧ c < 64
    let busy := bitAt (s.devReg 0x100) 62
    let began := fun (a : Nat) => ({ s with service := { s.service with command := some (c, a) } } : State).setDev 0x100
      (if busy then setField (s.devReg 0x100) 61 1 0 else c + a * 2 ^ 56 + 2 ^ 62)
    let refused := fun (i : Instr) (a : Nat) =>
      exec i s = .next ((began a).setDev 0x100 (setField ((began a).devReg 0x100) 61 1 1))
    let word := fun (i : Nat) => s.natAt (s.devReg 0x108 + 8 * i) 8
    let waits := fun (t : State) => ∀ e ∈ t.clusters, ∀ w ∈ e.2.allocWait, w.1 ≠ c
    let seated := fun (k : Task) => k.ctx = c ∧ k.kind ≠ .ballast ∧ k.status ∈ [TaskStatus.running, .yielded, .ended, .frozenEnd]
    (¬free → exec (.ctxStart c) s = .next s ∧ exec (.ctxStop c) s = .next s ∧ exec (.ctxPreemptKeep c) s = .next s ∧
      exec (.ctxPreemptDiscard c) s = .next s) ∧
    (free → x.state ≠ 0 → refused (.ctxStart c) 0) ∧
    (free → x.state = 0 → refused (.ctxStop c) 1 ∧ refused (.ctxPreemptKeep c) 2 ∧ refused (.ctxPreemptDiscard c) 3) ∧
    (free → x.state = 0 → x.saved = none → word 5 % 4096 ≠ 0 ∨ s.freeScope = none → refused (.ctxStart c) 0) ∧
    (free → x.state = 0 → x.saved = none → word 5 % 4096 = 0 → ∀ n, s.freeScope = some n → ∃ t, exec (.ctxStart c) s = .next t ∧
      (t.ctx c).state = 1 ∧ (t.ctx c).wait = .none ∧ (t.ctx c).trap = none ∧ (t.ctx c).discarded = false ∧
      (t.ctx c).walker = ⟨word 1, word 0, word 5, word 3 % 2 ^ 16, word 2, [], [], n, 0, n, [], []⟩ ∧
      (∀ m, m ≠ c → t.ctx m = s.ctx m) ∧
      (∀ bs, (began 0).vbytes (word 2) (word 0) (Config.imageBytes (word 0)) = .ok bs →
        ∃ m ∈ t.boot.measured, m.2 = Config.shake256 64 bs) ∧
      (x.discarded = false ∨ x.seqs = [] → t.scopes.get? n = some ⟨0, false, false, 0, c, 0⟩ ∧ t.strands = s.strands ∧
        t.tasks = s.tasks ∧ (Memory.wf s.mem = true → n < 2 ^ 64 → t.natAt (s.devReg 0x108 + 32) 8 = n))) ∧
    (free → x.state = 0 → ∀ w, x.saved = some w → ∃ t, exec (.ctxStart c) s = .next t ∧ (t.ctx c).state = 1 ∧ (t.ctx c).walker = w ∧
      (t.ctx c).saved = none ∧ t.mem = ((began 0).vwrite w.troot w.htva (s.bytesAt (x.block + 0x1000) 0x40000)).mem ∧ t.strands = s.strands ∧
      ∀ m, m ≠ c → t.ctx m = s.ctx m) ∧
    (free → x.state ≠ 0 →
      (∃ t, exec (.ctxStop c) s = .next t ∧ (t.ctx c).state = 0 ∧ (t.ctx c).saved = x.saved ∧ (t.ctx c).discarded = true ∧ waits t ∧
        (∀ e ∈ t.records, e.2.ctx ≠ c) ∧ t.service.command = some (c, 1)) ∧
      (∃ t, exec (.ctxPreemptDiscard c) s = .next t ∧ (t.ctx c).state = 0 ∧ (t.ctx c).saved = x.saved ∧ (t.ctx c).discarded = true ∧
        waits t ∧ ∀ e ∈ t.records, e.2.ctx ≠ c) ∧
      (∃ t, exec (.ctxPreemptKeep c) s = .next t ∧ (t.ctx c).leaving = true ∧ (t.ctx c).walker = x.walker ∧ waits t ∧
        t.strands = s.strands ∧ t.mem = s.mem ∧ (∀ n k, s.tasks.get? n = some k →
          (seated k → t.tasks.get? n = some { k with saving := some (k.saving.getD .evicted) }) ∧
          (¬seated k → t.tasks.get? n = some k)))) ∧
    (s.service.command = none → exec .ctxcmdComplete s = .next s) ∧
    (∀ a, s.service.command = some (c, a) →
      let closed := ({ s with service := { s.service with command := none } } : State).setDev 0x100 (setField (s.devReg 0x100) 62 1 0)
      let left : Prop := ∃ e ∈ s.tasks, e.2.ctx = c ∧ e.2.kind ≠ .ballast ∧ e.2.status ≠ .away
      bitAt (closed.devReg 0x100) 62 = false ∧
      (bitAt (s.devReg 0x100) 61 = true ∨ a = 0 → exec .ctxcmdComplete s = .next closed) ∧
      (bitAt (s.devReg 0x100) 61 = false → a = 1 ∨ 3 ≤ a → left → exec .ctxcmdComplete s = .next s) ∧
      (bitAt (s.devReg 0x100) 61 = false → 3 ≤ a → ¬left → exec .ctxcmdComplete s = .next closed) ∧
      (bitAt (s.devReg 0x100) 61 = false → a = 1 → ¬left → ∃ t, exec .ctxcmdComplete s = .next t ∧ t.service.command = none ∧
        bitAt (t.devReg 0x100) 62 = false ∧ (t.ctx c).saved = none ∧ waits t ∧ t.scopes.get? x.walker.root = none ∧
        t.strands = s.strands ∧ t.mem = s.mem) ∧
      (bitAt (s.devReg 0x100) 61 = false → a = 2 → (∃ e ∈ s.tasks, seated e.2) → exec .ctxcmdComplete s = .next s) ∧
      (bitAt (s.devReg 0x100) 61 = false → a = 2 → (∀ e ∈ s.tasks, ¬seated e.2) → ∃ t, exec .ctxcmdComplete s = .next t ∧
        bitAt (t.devReg 0x100) 62 = false ∧ (t.ctx c).state = 0 ∧ (t.ctx c).saved = some x.walker ∧ (t.ctx c).leaving = false ∧ (t.ctx c).block = s.devReg 0x108 ∧
        t.strands = s.strands ∧
        ∀ bs, s.vbytes x.walker.troot x.walker.htva 0x40000 = .ok bs → Memory.wf s.mem = true →
          ∀ i, i < 0x40000 → t.peek (s.devReg 0x108 + 0x1000 + i) = bs.getD i 0)) ∧
    (s.tinvWait.isSome = true → exec (.tinvPage asid va size) s = .next s ∧ exec (.tinvAsid asid) s = .next s ∧
      exec .tinvAll s = .next s) ∧
    (s.tinvWait = none →
      let sz := if size = 0 then 2 ^ 16 else if size = 1 then 2 ^ 21 else 2 ^ 30
      let page := va / sz * sz
      let drops := fun (i : Instr) (hit : Nat → Nat → Nat → Bool) => ∃ t, exec i s = .next t ∧
        t.tlb = s.tlb.filter (fun e => !hit e.asid e.va e.size) ∧
        (∀ g, (t.core g).l1 = (s.core g).l1.filter (fun l => !hit l.asid l.va 64) ∧ (t.core g).chans = (s.core g).chans) ∧
        t.tinvWait.isSome = true ∧ bitAt (t.devReg 0x300) 63 = true ∧ t.mem = s.mem ∧
        (∀ n, (∀ a v k o, (s.strand n).wait ≠ .word a v k o) → t.strand n = s.strand n) ∧
        (∀ n a v k o, (s.strand n).wait = .word a v k o →
          t.strand n = if hit (s.space n).1 v 8 then { s.strand n with wait := .stall } else s.strand n)
      (3 ≤ size → exec (.tinvPage asid va size) s = .next (s.writeNat (s.devReg 0x310) 8 (2 ^ 64 - 1))) ∧
      (size < 3 → drops (.tinvPage asid va size) (fun a v n => a == asid && decide (v < page + sz) && decide (page < v + n))) ∧
      drops (.tinvAsid asid) (fun a _ _ => a == asid) ∧ drops .tinvAll (fun _ _ _ => true) ∧
      exec .shootdownComplete s = .next s) ∧
    (∀ ids, s.tinvWait = some ids →
      ((∃ n ∈ ids, n ∈ s.holders none none) → exec .shootdownComplete s = .next s) ∧
      ((∀ n ∈ ids, n ∉ s.holders none none) → ∃ t, exec .shootdownComplete s = .next t ∧ t.tinvWait = none ∧
        t.tinvCount = (s.tinvCount + 1) % 2 ^ 64 ∧ bitAt (t.devReg 0x300) 63 = false ∧ t.strands = s.strands ∧
        (Memory.wf s.mem = true → t.natAt (s.devReg 0x310) 8 = t.tinvCount))) ∧
    (let used := s.service.spares.get 0 die
     let g := 80 * die + core
     let empty : Prop := ∀ n, 8 * g ≤ n → n < 8 * g + 8 → (s.strand n).task = 0
     (s.service.mapping = none → 8 ≤ die ∨ 80 ≤ core ∨ 4 ≤ used → exec (.spareMap die core) s = .next (s.endCommand 0x110 true)) ∧
     (s.service.mapping = none → die < 8 → core < 80 → used < 4 →
       (∀ n, 8 * g ≤ n → n < 8 * g + 8 → (s.task (s.strand n).task).kind ≠ .ballast) → ∃ t, exec (.spareMap die core) s = .next t ∧
       t.service.mapping = some g ∧ bitAt (t.devReg 0x110) 62 = true ∧ t.strands = s.strands ∧ t.mem = s.mem ∧
       (∀ rows, t.coreFits g rows = none) ∧ ∀ n k, 8 * g ≤ n → n < 8 * g + 8 → (s.strand n).task ≠ 0 →
         s.tasks.get? (s.strand n).task = some k → (t.task (s.strand n).task).saving.isSome = true) ∧
     (∀ y, s.service.mapping = some y → y ≠ g ∨ ¬empty → exec (.spareMap die core) s = .next s) ∧
     (s.service.mapping = some g → empty → ∃ t : State, exec (.spareMap die core) s = .next (t.endCommand 0x110 false) ∧
       t.service.mapping = none ∧ t.service.spares.get 0 die = used + 1 ∧ t.devReg 0 / 2 ^ 24 % 2 ^ 6 = s.devReg 0 / 2 ^ 24 % 2 ^ 6 - 1 ∧
       t.devReg 0 % 2 ^ 24 = s.devReg 0 % 2 ^ 24 ∧ t.devReg 0 / 2 ^ 30 = s.devReg 0 / 2 ^ 30 ∧ t.strands = s.strands ∧ t.mem = s.mem))

/-- R219, R278, R302, R318, R323 to R325, R329, Tables 7-5, 11-3, 12-5, 13-1 to 13-3: what a write keeps of each device register, when it is
ignored, and the command that GO starts; the plan store, the pool and the fault report queue; the PCIe windows and the Ethernet ports.
The free addresses of frames and the layouts of flash are the model's choice (log entries 5 and 12), and so is GO, which reads 0 (log
entry 21). -/
def Obligations.RegisterWritesAndHostLinks : Prop :=
  ∀ (s : State) (off v cl : Nat),
    let f := fun (lo n : Nat) => v / 2 ^ lo % 2 ^ n
    let writes := fun (t : State) => exec (.registerWrite off v) s = .next t
    let running : Prop := ∃ e ∈ s.ctxs, e.2.state ≠ 0
    let keeps := fun (x : Nat) => writes (s.setDev off x)
    (∀ (t : State) (o x : Nat), (t.setDev o x).devReg o = x % 2 ^ 64 ∧ (∀ n, n ≠ o → (t.setDev o x).devReg n = t.devReg n) ∧
      (t.setDev o x).strands = t.strands ∧ (t.setDev o x).mem = t.mem ∧ (t.setDev o x).agenda = t.agenda) ∧
    (off = 0x108 → keeps (f 12 45 * 2 ^ 12)) ∧ (off = 0x200 → keeps (f 0 24 + f 34 14 * 2 ^ 34)) ∧
    (off = 0x308 → keeps (f 16 41 * 2 ^ 16)) ∧ (off = 0x310 → keeps (f 3 61 * 2 ^ 3)) ∧ (off = 0x600 ∨ off = 0x608 ∨ off = 0x610 →
      writes { s.setDev off (if off = 0x610 then Nat.max 400 (Nat.min 2800 (f 0 12)) else f 0 16) with
        power := { s.power with age := 0 } }) ∧ (off = 0x618 → keeps (f 12 45 * 2 ^ 12 + f 0 5)) ∧
    (off = 0x500 ∨ off = 0x508 ∨ off = 0x510 → (running → writes s) ∧
      (¬running → keeps (if off = 0x500 then f 20 37 * 2 ^ 20 else if off = 0x508 then f 16 41 * 2 ^ 16 else f 12 45 * 2 ^ 12 + f 0 5))) ∧
    (off = 0x208 → ∃ x, keeps x ∧ ∀ c, c < 64 → bitAt x c = (if (s.ctx c).state = 0 then bitAt v c else bitAt (s.devReg 0x208) c)) ∧
    (off < 0x100000 → off ∉ [0x100, 0x108, 0x110, 0x200, 0x208, 0x300, 0x308, 0x310, 0x400, 0x408, 0x410, 0x418, 0x500, 0x508, 0x510,
      0x520, 0x528, 0x600, 0x608, 0x610, 0x618] → writes s) ∧
    (off = 0x528 → bitAt (s.devReg off) 62 = true → writes s) ∧
    (off = 0x100 ∨ off = 0x110 ∨ (off = 0x528 ∧ bitAt (s.devReg off) 62 = false) → ∃ t, writes t ∧ t.strands = s.strands ∧ t.mem = s.mem ∧
      t.devReg off % 2 ^ 60 = (if off = 0x100 then f 56 2 * 2 ^ 56 + f 0 6 else if off = 0x110 then f 0 10
        else f 40 18 * 2 ^ 40 + f 0 25) ∧
      bitAt (t.devReg off) 62 = (bitAt (s.devReg off) 62 || (bitAt v 63 && off != 0x528)) ∧ bitAt (t.devReg off) 63 = false ∧
      bitAt (t.devReg off) 61 = bitAt (s.devReg off) 61 ∧
      (bitAt v 63 = false ∨ bitAt (s.devReg off) 62 = true → t.agenda = s.agenda) ∧
      (bitAt v 63 = true → bitAt (s.devReg off) 62 = false →
        (off = 0x100 → t.agenda = .event (match f 56 2 with
          | 0 => .ctxStart (f 0 6)
          | 1 => .ctxStop (f 0 6)
          | 2 => .ctxPreemptKeep (f 0 6)
          | _ => .ctxPreemptDiscard (f 0 6)) :: s.agenda) ∧
        (off = 0x110 → t.agenda = .event (.spareMap (f 7 3) (f 0 7)) :: s.agenda) ∧
        (off = 0x528 → t.agenda = .event (match f 56 2 with
          | 0 => .strandcmdResume (f 0 25)
          | 1 => .strandcmdHandler (f 0 25) (f 40 16)
          | 2 => .strandcmdKill (f 0 25)
          | _ => .strandcmdPreempt (f 0 25)) :: s.agenda))) ∧
    (off = 0x300 → (bitAt (s.devReg off) 63 = true → writes s) ∧
      (bitAt (s.devReg off) 63 = false → bitAt v 62 = true → ∃ t, writes t ∧ t.agenda = .event (match f 18 2 with
        | 0 => .tinvPage (f 0 16) (s.devReg 0x308) (f 16 2)
        | 1 => .tinvAsid (f 0 16)
        | 2 => .tinvAll
        | _ => .tinvPage (f 0 16) (s.devReg 0x308) 3) :: s.agenda)) ∧
    (let head := (s.devReg 0x518 + 2 ^ 32 - f 0 32) % 2 ^ 32
     let open_ := fun (u : State) => if u.frqFull then u else { u with telem := { u.telem with holding := false } }
     (off = 0x520 → s.doomed = [] → exec (.registerWrite off v) s = exec (.frqheadWrite v) s) ∧
     (s.frqSize < head → s.doomed = [] → exec (.frqheadWrite v) s = .next s) ∧
     (head ≤ s.frqSize → s.doomed = [] → ∃ t, exec (.frqheadWrite v) s = .next t ∧ t.devReg 0x520 = f 0 32 ∧ t.strands = s.strands ∧
       (s.frqHeld = [] → t = open_ (s.setDev 0x520 (f 0 32))) ∧
       (∀ r rest, s.frqHeld = r :: rest → head = s.frqSize → t.frqHeld = s.frqHeld) ∧
       (∀ r, s.frqHeld = [r] → head ≠ s.frqSize → t.frqHeld = [] ∧
         t = open_ (({ s.setDev 0x520 (f 0 32) with frqHeld := [] } : State).writeReport r)))) ∧
    (off = 0x400 ∨ off = 0x408 ∨ off = 0x410 → exec (.registerWrite off v) s = exec (.kvPoolConfigWrite off v) s ∧
      (s.poolIdle = false → exec (.kvPoolConfigWrite off v) s = .next s) ∧
      (s.poolIdle = true → (off = 0x400 → exec (.kvPoolConfigWrite off v) s = .next (s.setDev off (f 30 27 * 2 ^ 30))) ∧
        (off = 0x410 → exec (.kvPoolConfigWrite off v) s = .next (s.setDev off (f 6 51 * 2 ^ 6))) ∧
        (off = 0x408 → exec (.kvPoolConfigWrite off v) s = .next { s.setDev off (f 0 11) with
          kv := ⟨⟨(span 0 (f 0 11)).map (fun i => (14, i * 2 ^ 14)), []⟩⟩ }))) ∧
    (off = 0x418 → exec (.registerWrite off v) s = exec (.pfxvaWrite v) s) ∧
    (f 0 1 = 1 → exec (.pfxvaWrite v) s = .next (s.setDev 0x418 (f 16 41 * 2 ^ 16 + 1))) ∧
    (f 0 1 = 0 → ∃ t, exec (.pfxvaWrite v) s = .next t ∧ t.pfx = [] ∧ t.strands = s.strands ∧ t.devReg 0x418 = f 16 41 * 2 ^ 16) ∧
    (80 ≤ cl → exec (.planStoreWrite cl off v) s = .next s) ∧
    (cl < 80 → off < 0x20000 →
      let c := s.cluster cl
      let withC := fun (h : Cluster) => ({ s with clusters := s.clusters.set cl h } : State)
      exec (.registerWrite (0x100000 + 0x20000 * cl + off) v) s = exec (.planStoreWrite cl off v) s ∧
      (off < 0x10000 → (∃ l ∈ c.launches, l.first ≤ off / 16 ∧ off / 16 < l.first + l.count) →
        exec (.planStoreWrite cl off v) s = .next (withC { c with planHeld := c.planHeld ++ [(off, BitVec.ofNat 64 v)] })) ∧
      (off < 0x10000 → (∀ l ∈ c.launches, off / 16 < l.first ∨ l.first + l.count ≤ off / 16) → ∃ x,
        exec (.planStoreWrite cl off v) s = .next (withC { c with plan := c.plan.set (off / 16) x }) ∧
        let y := c.plan.get 0 (off / 16)
        (off / 8 % 2 = 0 → x.toNat % 2 ^ 64 = f 0 64 ∧ x.toNat / 2 ^ 64 = y.toNat / 2 ^ 64) ∧
        (off / 8 % 2 = 1 → x.toNat / 2 ^ 64 = f 0 64 ∧ x.toNat % 2 ^ 64 = y.toNat % 2 ^ 64)) ∧
      (0x10000 ≤ off → off < 0x10080 → exec (.planStoreWrite cl off v) s =
        .next (withC { c with slots := c.slots.set ((off - 0x10000) / 8) (BitVec.ofNat 64 (f 16 12 * 2 ^ 16 + f 0 13)) })) ∧
      (0x10080 ≤ off → exec (.planStoreWrite cl off v) s = .next s)) ∧
    (exec (.hostAccess cl false off v) s = .next s) ∧
    (s.boot.phase ≠ 2 → (off % 8 = 0 → off < 2 ^ 24 → exec (.hostAccess 0 true off v) s = exec (.registerWrite off v) s) ∧
      (off + 8 ≤ 2 ^ 36 → Config.barBase + off + 8 ≤ 2 ^ 40 → s.reachable (s.module * 2 ^ 48 + Config.barBase + off) = true →
        exec (.hostAccess 2 true off v) s = .next (s.writeNat (s.module * 2 ^ 48 + Config.barBase + off) 8 v))) ∧
    (s.boot.phase = 2 → exec (.hostAccess cl true off v) s = .next s ∧ exec (.frameTransmit cl) s = .next s) ∧
    (∀ bytes : List Byte,
      let img : FlashSlot := ⟨bytes.take 1952, bytes.drop 5261, (bytes.drop 1952).take 3309, [], [], BootConfig.empty, [], [], []⟩
      (8 ≤ cl → exec (.frameReceive cl bytes) s = .next s ∧ exec (.frameTransmit cl) s = .next s) ∧
      (s.boot.phase = 2 → cl < 8 → (cl = 0 → img.passes = true →
          exec (.frameReceive cl bytes) s = .next { s with boot := { s.boot with flash := s.boot.flash.set 1 img } }) ∧
        (cl ≠ 0 ∨ img.passes = false → exec (.frameReceive cl bytes) s = .next s)) ∧
      (s.boot.phase ≠ 2 → cl < 8 →
        let p := s.ports.get ⟨[], []⟩ cl
        (∃ t a, exec (.frameReceive cl bytes) s = .next t ∧ t.ports.get ⟨[], []⟩ cl = { p with rx := p.rx ++ [(s.now, bytes)] } ∧
          t.strands = s.strands ∧ t.mem = (s.writeBytes a (bytes.take (2 ^ 14))).mem) ∧
        (∃ t bs, exec (.frameTransmit cl) s = .next t ∧ t.ports.get ⟨[], []⟩ cl = { p with sent := p.sent ++ [(s.now, bs)] } ∧
          bs.length < 2 ^ 14 ∧ t.strands = s.strands ∧ t.mem = s.mem)))

/-- R20, R21, R192, R193, R325 to R328, R332, R333, R335 to R338, Tables 13-2 and 13-4: boot from the first flash slot that passes, or
recovery; attestation; power control, telemetry and heartbeats; links, channels, cores and modules that fail, are replaced or are
removed. The numbering of measurements, the layouts of flash and the size of the power controller's reaction are the model's choice (log
entries 12 and 47). -/
def Obligations.BootPowerAndService : Prop :=
  ∀ (s : State) (n die core : Nat),
    let ok := fun (f : FlashSlot) => Config.shake256 32 f.rootKey = Config.romDigest ∧ Config.mldsaVerify f.rootKey f.image f.sig = true
    let slots := fun (i : Nat) => s.boot.flash.get? i
    let before := fun (i : Nat) (k : List Byte) => ∃ g, slots (1 - i) = some g ∧ ok g ∧ k ∈ g.owners
    let sound := fun (i : Nat) (f : FlashSlot) =>
      (f.owners = [] ∨ ∃ k, (k = f.rootKey ∨ before i k) ∧ Config.mldsaVerify k (f.owners.foldr (fun x acc => x ++ acc) []) f.ownSig = true) ∧
      (f.config = BootConfig.empty ∨ (f.confKey ∈ f.owners ∧ Config.mldsaVerify f.confKey f.config.bytes f.confSig = true)) ∧
      ∀ x ∈ f.stages, x.1 ∈ f.owners ∧ Config.mldsaVerify x.1 x.2.1 x.2.2 = true
    let key := Config.mldsaKey (Config.shake256 32 (Config.bootSecret s.module s.boot.helper ++ [0x48, 0x47, 0x56, 0x2D, 0x49, 0x44]))
    let digests := fun (f : FlashSlot) => (f.image :: f.stages.map (fun x => x.2.1)).map (Config.shake256 64)
    let field := fun (t : State) (lo k : Nat) => t.devReg 0 / 2 ^ lo % 2 ^ k
    (∃ t, exec .powerOn s = .next t ∧ t.strands = [] ∧ t.tasks = [] ∧ t.mem = State.reset.mem ∧
      (∀ o, o ≠ 0 → t.devReg o = State.reset.devReg o) ∧ t.boot.flash = s.boot.flash ∧ t.module = s.module ∧
      t.boot.helper = s.boot.helper ∧ t.boot.cert = s.boot.cert ∧
      (∀ i f, (i = 0 ∨ i = 1) → slots i = some f → ok f → (i = 1 → ∀ g, slots 0 = some g → ¬ok g) →
        (sound i f → t.boot.phase = 1 ∧ t.boot.held = false ∧ t.boot.slot = 3 * i ∧ t.boot.key = key ∧
          t.boot.measured.map (·.2) = digests f ∧ t.service.repair = f.config.repair ∧ t.service.spares = f.config.spares ∧
          t.service.retired = f.config.retired ∧ t.service.lanes = f.config.lanes ∧
          field t 30 10 = f.config.retired.length % 2 ^ 10 ∧
          field t 24 6 = (32 - (f.config.spares.map (·.2)).sum) % 2 ^ 6) ∧
        (¬sound i f → t.boot.phase = 2 ∧ t.boot.held = true ∧ t.dev = State.reset.dev)) ∧
      ((∀ i f, i < 2 → slots i = some f → ¬ok f) → t.boot.phase = 2 ∧ t.boot.held = true ∧ t.dev = State.reset.dev)) ∧
    (∀ nonce : List Byte,
      let list := s.boot.measured.foldr (fun m acc => leBytes 8 m.1 ++ m.2 ++ acc) []
      (s.boot.phase = 1 → nonce.length = 32 → exec (.attestationReport nonce) s = .next { s with boot := { s.boot with
        report := nonce ++ list ++ Config.mldsaSign s.boot.key (nonce ++ list) } }) ∧
      (s.boot.phase ≠ 1 ∨ nonce.length ≠ 32 → exec (.attestationReport nonce) s = .next s)) ∧
    (let b := s.boot.slot / 2 ^ die % 2
     (s.boot.phase ≠ 1 ∨ 2 ≤ die ∨ slots (1 - b) = none ∨ (∃ f, slots (1 - b) = some f ∧ ¬(ok f ∧ sound (1 - b) f)) →
       exec (.flashSlotSwitch die) s = .next s) ∧
     (s.boot.phase = 1 → die < 2 → ∀ f, slots (1 - b) = some f → ok f → sound (1 - b) f → ∃ t, exec (.flashSlotSwitch die) s = .next t ∧
       t.boot.slot / 2 ^ die % 2 = 1 - b ∧ (∀ i, i ≠ die → t.boot.slot / 2 ^ i % 2 = s.boot.slot / 2 ^ i % 2) ∧
       t.boot.measured.map (·.2) = s.boot.measured.map (·.2) ++ digests f ∧ t.strands = s.strands ∧ t.mem = s.mem) ∧
     (∀ ps, s.boot.phase = 1 → die < 2 →
       (s.boot.slot / 2 ^ (1 - die) % 2 = b → s.flashWrite die ps = { s with boot := { s.boot with
         flash := s.boot.flash.set (1 - b) (State.flashSlotOf ps) } }) ∧
       (s.boot.slot / 2 ^ (1 - die) % 2 ≠ b → s.flashWrite die ps = s)) ∧
     (∀ turn, s.boot.phase = 2 → State.inRecovery turn = false → s.act turn = .next s)) ∧
    (s.boot.phase = 2 → exec (.powerControlTick n) s = .next s ∧ exec .telemetryRecord s = .next s ∧ exec .heartbeat s = .next s) ∧
    (let up := s.devReg 0x600
     let dn := s.devReg 0x608
     let capped : Prop := s.devReg 0x610 < n
     let rises : Prop := up ≠ 0 ∧ s.power.prev + up < n
     let falls : Prop := dn ≠ 0 ∧ n + dn < s.power.prev ∧ ¬capped ∧ bitAt (s.devReg 0x200) 35 = true
     s.boot.phase ≠ 2 → ∃ t, exec (.powerControlTick n) s = .next t ∧ (t.power.hold = true ↔ capped ∨ rises) ∧ t.power.prev = s.power.prev ∧
       t.power.sum = s.power.sum + n ∧ t.power.ticks = s.power.ticks + 1 ∧ t.power.peak = Nat.max s.power.peak n ∧
       t.strands = s.strands ∧ t.mem = s.mem ∧ t.tasks = s.tasks ∧
       ∀ k, k < 80 → (falls → (t.cluster k).demand = Nat.min 8 ((s.cluster k).demand + 1)) ∧
         (¬falls → (t.cluster k).demand = (s.cluster k).demand - 1)) ∧
    (let mean := if s.power.ticks = 0 then 0 else s.power.sum / s.power.ticks
     let cap := s.devReg 0x610
     let top := if s.devReg 0x600 = 0 then cap else Nat.min cap (s.power.prev + s.devReg 0x600)
     let low := if s.devReg 0x608 = 0 ∨ cap < s.power.prev - s.devReg 0x608 ∨ s.ballastFails = true then 0
       else s.power.prev - s.devReg 0x608
     let p := if s.power.age < 2 then mean else Nat.min top (Nat.max low mean)
     let share := fun (x : Nat) => Nat.min 65535 (x * 65536 / Nat.max 1 (field s 40 10 * (s.now - s.telem.from_)))
     let dn := s.devReg 0x608
     let log := s.devReg 0x618 % 32
     let size := 2 ^ (if log < 10 ∨ 20 < log then 10 else log)
     let ramp := s.telem.rampev + (if dn ≠ 0 ∧ p + dn < s.power.prev then 1 else 0)
     s.boot.phase ≠ 2 → ∃ t, exec .telemetryRecord s = .next t ∧
       t.telem = { s.telem with seq := s.telem.seq + 1, rampev := ramp, act := 0, mact := 0, from_ := s.now } ∧
       t.power = ⟨p, 0, 0, 0, s.power.hold, s.power.age + 1⟩ ∧ t.strands = s.strands ∧ (Memory.wf s.mem = true →
         let w := t.natAt (s.devReg 0x618 / 2 ^ 12 % 2 ^ 45 * 4096 + 64 * (s.telem.seq % size)) 64
         w / 2 ^ 448 = s.telem.seq % 2 ^ 64 ∧ w / 2 ^ 369 % 2 = (!s.service.ptpLock).toNat ∧ w / 2 ^ 352 % 2 ^ 16 = p % 2 ^ 16 ∧
         w / 2 ^ 336 % 2 ^ 16 = s.power.peak % 2 ^ 16 ∧ w / 2 ^ 224 % 2 ^ 16 = share s.telem.mact ∧
         w / 2 ^ 240 % 2 ^ 16 = share s.telem.act)) ∧
    (∀ b, exec (.ptpLockChange b) s = .next { s with service := { s.service with ptpLock := b } }) ∧
    (bitAt (s.devReg 0) 17 = false →
      (s.boot.phase ≠ 2 → exec .heartbeat s = .next { s with boot := { s.boot with beats := s.now } }) ∧
      (s.now < s.boot.beats + 12000000 ∨ s.boot.held = true → exec .failover s = .next s) ∧
      (s.boot.beats + 12000000 ≤ s.now → s.boot.held = false → ∃ t, exec .failover s = .next t ∧ bitAt (t.devReg 0) 17 = true ∧
        (∀ i, i ≠ 17 → bitAt (t.devReg 0) i = bitAt (s.devReg 0) i) ∧ (∀ o, o ≠ 0 → t.devReg o = s.devReg o) ∧
        (s.boot.phase = 1 → t.boot.key = key) ∧ t.strands = s.strands ∧ t.mem = s.mem)) ∧
    (bitAt (s.devReg 0) 17 = true → exec .heartbeat s = .next s ∧ exec .failover s = .next s) ∧
    (36 ≤ n → exec (.laneReplace n) s = .next s ∧ exec (.hawserLinkDown n) s = .next s) ∧
    (n < 36 → exec (.laneReplace n) s = .next { s with service := { s.service with
      lanes := s.service.lanes.set n (s.service.lanes.get 0 n + 1) } }) ∧
    (n < 36 → n ∉ s.service.down → ∃ t, exec (.hawserLinkDown n) s = .next t ∧ n ∈ t.service.down ∧
      (∀ x, x ≠ n → (x ∈ t.service.down ↔ x ∈ s.service.down)) ∧ field t 18 6 = (36 - (s.service.down.length + 1)) % 64 ∧
      t.strands = s.strands ∧ t.mem = s.mem) ∧
    (∃ t, exec (.hawserLinkUp n) s = .next t ∧ t.service.down = s.service.down.filter (fun x => x != n) ∧
      field t 18 6 = (36 - t.service.down.length) % 64 ∧ t.strands = s.strands ∧ t.mem = s.mem) ∧
    (512 ≤ n ∨ n ∈ s.service.retired → exec (.channelRetire n) s = .next s) ∧
    (n < 512 → n ∉ s.service.retired → ∃ t, exec (.channelRetire n) s = .next t ∧ n ∈ t.service.retired ∧
      (∀ x, x ≠ n → (x ∈ t.service.retired ↔ x ∈ s.service.retired)) ∧ field t 30 10 = (field s 30 10 + 1) % 2 ^ 10 ∧
      t.strands = s.strands ∧ t.mem = s.mem) ∧
    (let g := 80 * die + core
     let used := s.service.spares.get 0 die
     (8 ≤ die ∨ 80 ≤ core ∨ (s.core g).removed = true → exec (.coreRetire die core) s = .next s) ∧
     (die < 8 → core < 80 → (s.core g).removed = false →
       (used < 4 → ∃ t, exec (.coreRetire die core) s = .next t ∧ t.service.spares.get 0 die = used + 1 ∧ t.strands = s.strands ∧
         field t 24 6 = field s 24 6 - 1 ∧ field t 40 10 = field s 40 10 ∧ t.cores = s.cores) ∧
       (4 ≤ used → (∀ i, i < 8 → (s.strand (8 * g + i)).task = 0) → ∃ t, exec (.coreRetire die core) s = .next t ∧
         (t.core g).removed = true ∧ field t 40 10 = field s 40 10 - 1 ∧ (∀ k, k ≠ g → t.core k = s.core k) ∧ t.strands = s.strands ∧
         ∀ x rows, s.coreFits g rows = some x → t.coreFits g rows = none))) ∧
    (∃ t, exec (.scrubPass n) s = .next t ∧ t.mem = s.mem ∧ t.strands = s.strands ∧ t.free = s.free + 1 ∧
      ((t.poison = s.poison ∧ t.telem.uecc = s.telem.uecc) ∨ (t.poison.contains n = true ∧ t.telem.uecc = s.telem.uecc + 1 ∧
        ∀ w, w ≠ n → t.poison.contains w = s.poison.contains w))) ∧
    (let quiet : Prop := (∀ e ∈ s.ctxs, e.2.state = 0) ∧ s.swRed = [] ∧ ∀ e ∈ s.cores, e.2.nq = []
     (n = s.module → (quiet → ∃ t, exec (.moduleRemoval n) s = .next t ∧ t.service.removed = true ∧ step t = .fault .moduleRemoved) ∧
       (¬quiet → exec (.moduleRemoval n) s = .next s)) ∧
     (n ≠ s.module → (288 ≤ n ∨ n ∈ s.service.absent → exec (.moduleRemoval n) s = .next s) ∧
       (n < 288 → n ∉ s.service.absent → exec (.moduleRemoval n) s =
         .next { s with service := { s.service with absent := n :: s.service.absent } } ∧
         ∀ pa, pa / 2 ^ 48 = n → ({ s with service := { s.service with absent := n :: s.service.absent } } : State).reachable pa =
           false)))

/-- R201, R203, R207, R211, R285, R298, R299, R301, R302, R457: the forms of the copy channels, of the lanyard and of the KV cache
complete, each under conditions on the state and its operands alone: CPY, CPYGO, CPYG, DRAIN, MCW, KVCP, PFXL and PFXI are queued in
their channel with what they capture; CPYN sets a level of its channel's nest; BCAST puts its bytes on its braid's lanyard, and
does nothing on a slack strand; KVAD lands the record's address and its predicate at v + 4, or is held with its address until no entry
of it is PENDING; BFQ lands its status at v + 4, and where the job's entry is already PENDING queues the job. -/
def Obligations.ChannelAndCacheFormsComplete : Prop :=
  (∀ (o : XFields) (s : State),
    let g1 := (s.me.val o.g1.toNat).toNat
    let g2 := (s.me.val o.g2.toNat).toNat
    let g3 := (s.me.val o.g3.toNat).toNat
    let ch := o.ch.toNat
    let room := o.prod.toNat = 0 ∨ (s.me.tok o.prod.toNat).outst < 255
    let queued := fun (i : Instr) (kind : XKind) (plan : XPlan) (total : Nat) => ∃ op, CapturedCopy s o op ∧ op.kind = kind ∧
      op.plan = plan ∧ op.total = total ∧ exec i s = .next (queuedCopy s ch op)
    (room → queued (.drain o) (.drain o.g1.toNat) .none 0) ∧
    (s.me.pois o.g1.toNat = false → s.me.pois o.g2.toNat = false → s.me.pois o.g3.toNat = false →
      (g1 < 2 ^ 32 → exec (.cpyn o) s = .next (s.setStrand s.cur { s.me with
        cnest := s.me.cnest.set (6 * ch + o.prod.toNat) ⟨g1, s.me.val o.g2.toNat, s.me.val o.g3.toNat⟩ })) ∧
      (room →
        (g3 < 2 ^ 32 → queued (.cpy o) .copy (.linear g1 g2 g3) (ceilDiv g3 4096)) ∧
        (let levels := (List.range 6).map (fun l => s.me.cnest.get ⟨1, 0, 0⟩ (6 * ch + l))
         0 < g3 → g3 ≤ 4096 → queued (.cpygo o) .copy (.nest g1 g2 g3 levels) (levels.foldl (fun p l => p * l.count) 1)) ∧
        (let list := g3 % 2 ^ 32
         let count := g3 / 2 ^ 32 % 4096
         let esz := g3 / 2 ^ 44 % 16
         g3 < 2 ^ 49 → esz ≤ 12 → list % 4 = 0 → (∀ i, i < count → s.inScratch s.cur (list + 4 * i) 4 = true) →
           queued (.cpyg o) .copy (.list g1 g2 esz list count (bitAt g3 48)) count) ∧
        (let index := g2 % 65536
         let cl := g2 / 65536 % 128
         g2 < 2 ^ 23 → cl ≤ 79 → 0 < g3 → g3 ≤ 4096 → index + g3 ≤ 65536 → g1 % 64 = 0 → isCtrl s.cur = true ∨ 0x800 ≤ index →
           queued (.mcw o) .mcw (.store g1 cl index g3) g3) ∧
        (g3 / 2 ^ 32 % 2 ^ 31 = 0 → g3 < 2 ^ 63 ∨ g2 = 0 → queued (.kvcp o) .kvcp .none 0) ∧
        (g3 < 2 ^ 48 → queued (.pfxl o) .pfxl .none 0) ∧
        (g3 < 2 ^ 48 → queued (.pfxi o) .pfxi .none 0)))) ∧
  (∀ (o : XFields) (s : State),
    let a := (s.me.val o.g1.toNat).toNat
    let n := 64 * 2 ^ o.ch.toNat
    s.me.pois o.g1.toNat = false → a % 64 = 0 → a + n ≤ 0x400000 →
      (s.me.braid = none → exec (.bcast o) s = .next s) ∧
      (∀ b x, s.me.braid = some b → s.braids.get? b = some x →
        x.bcasts.any (fun y => y.vcc == s.me.vcc && decide (y.member ≤ s.me.member)) = false →
        ∃ bs, exec (.bcast o) s = .next { s with braids := s.braids.set b { x with bcasts := bs } } ∧
          bs.find? (fun y => y.vcc == s.me.vcc) = some ⟨s.me.vcc, s.me.member,
            (seen s).bytesAt (spadBase (gidOf s.cur) + a) n, (seen s).poisonAt (spadBase (gidOf s.cur) + a) n⟩)) ∧
  (∀ (o : LMFields) (s : State) (d : SeqDesc) (slot : Nat), (Instr.kvad o).wf = true → s.me.guard o.G = true →
    s.me.pois o.base.toNat = false →
    let pos := (s.me.val o.base.toNat).toNat
    let l := o.off.toNat % 2048
    let kv := if bitAt o.off.toNat 11 then 1 else 0
    let pd := o.off.toNat / 4096
    let root := (s.space s.cur).2
    let desc := (s.me.cw 0x009).toNat
    let entries := if o.size = 1 then (List.range 16).map (fun i => pos / 16 * 16 + i) else [pos]
    let state := fun q => s.kvStateOr root d q l
    let addr := LandVal.g o.d.toNat (BitVec.ofNat 64 (slot + (2 * l + kv) * 64 * d.rb)) false
    let waits := !d.mask && !s.isBackfill s.cur && entries.any (fun q => state q == 2)
    let held := (earlier s).heldRead desc 320
    desc ≠ 0 → pos < 2 ^ 32 → s.seqUse root desc = .ok d → l < d.layers → d.slot pos = some slot →
    (∀ q ∈ entries, ∃ v, s.kvState root d q l = .ok v) →
      (waits = false → held = false → exec (.kvad o) s = .next (s.landEntry 4 [addr, .p pd
        (if o.size = 1 then entries.all (fun q => state q != 2 && state q != 3) else state pos == 1)] true .data)) ∧
      (waits = true ∨ held = true → exec (.kvad o) s = .next
        ((s.landEntry 4 [addr] false (.kvad desc pos l (o.size == 1) pd)).enqueue (.order .acqLoad 0 0 0)))) ∧
  (∀ (s : State) (a b : BitVec 6),
    let va := (s.me.val a.toNat).toNat
    let w := (seen s).natAt (windowCell (gidOf s.cur) va) 32
    let root := (s.space s.cur).2
    let desc := w / 2 ^ 192 % 2 ^ 64
    let pos := w / 2 ^ 96 % 2 ^ 32
    let layer := w / 2 ^ 84 % 2 ^ 12
    let entry := w / 2 ^ 72 % 2 ^ 12
    let k := s.taskOf s.cur
    s.me.pois a.toNat = false → va % 32 = 0 → s.inScratch s.cur va 32 = true →
      (∃ n t, n ≤ 3 ∧ (n ≠ 0 → t = s) ∧
        exec (.bfq a b) s = .next (t.landEntry 4 [.g b.toNat (BitVec.ofNat 64 n) false] true .data)) ∧
      (∀ d, s.deadAt (clusterOf s.cur) s.me.scopeId = false → w % 2 ^ 68 = 0 → (s.entryAt (clusterOf s.cur) entry).width = 0 →
        desc ≠ 0 → desc % 64 = 0 → s.seqUse root desc = .ok d → layer < d.layers → s.kvStateOr root d pos layer = 2 →
        (s.backfill.get [] (s.jobDie root d pos layer)).length < 4096 →
        exec (.bfq a b) s = .next (((s.nameSeqOf k.ctx desc).addJob (s.jobDie root d pos layer) k.ctx (State.microOf k).recIdx
          (State.microOf k).spans (State.microOf k).dims s.me.scopeId desc (w / 2 ^ 128 % 2 ^ 64) pos layer entry
          (w / 2 ^ 68 % 16)).landEntry 4 [.g b.toNat 0#64 false] true .data)))
end

