-- ==== Sys2Proof/Laws/Memory.lean ====
section
/-! SUPPORT. Memory: reading after writing, every memory operation keeps the canonical form, and equal reads make equal memories. -/

namespace Sys2Proof.Machine

open Sys2Proof

/-! One cell. -/

theorem cellGet_cellSet_other (m : List Host.Cell) (a b : Nat) (v : Byte) (h : b ≠ a) :
    cellGet (cellSet m a v) b = cellGet m b := by
  induction m with
  | nil =>
    simp only [cellSet]
    split
    · rfl
    · simp only [cellGet, if_neg (Ne.symm h)]
  | cons c m ih =>
    obtain ⟨k, w⟩ := c
    simp only [cellSet]
    split
    · split
      · rfl
      · simp only [cellGet, if_neg (Ne.symm h)]
    · split
      · rename_i e
        subst e
        split
        · simp only [cellGet, if_neg (Ne.symm h)]
        · simp only [cellGet, if_neg (Ne.symm h)]
      · simp only [cellGet, ih]

theorem cellGet_below (m : List Host.Cell) (lo a : Nat) (h : Memory.wfFrom lo m = true) (l : a < lo) : cellGet m a = 0 := by
  induction m generalizing lo with
  | nil => rfl
  | cons c m ih =>
    obtain ⟨k, w⟩ := c
    simp only [Memory.wfFrom, Bool.and_eq_true, decide_eq_true_eq] at h
    simp only [cellGet]
    rw [if_neg (by omega)]
    exact ih (k + 1) h.2 (by omega)

theorem cellGet_cellSet_same (m : List Host.Cell) (lo a : Nat) (v : Byte) (h : Memory.wfFrom lo m = true) :
    cellGet (cellSet m a v) a = v := by
  induction m generalizing lo with
  | nil =>
    simp only [cellSet]
    split
    · rename_i e
      subst e
      rfl
    · simp only [cellGet, ↓reduceIte]
  | cons c m ih =>
    obtain ⟨k, w⟩ := c
    simp only [Memory.wfFrom, Bool.and_eq_true, decide_eq_true_eq] at h
    simp only [cellSet]
    split
    · rename_i lt
      split
      · rename_i e
        subst e
        simp only [cellGet]
        rw [if_neg (by omega)]
        exact cellGet_below m (k + 1) a h.2 (by omega)
      · simp only [cellGet, ↓reduceIte]
    · split
      · rename_i e
        subst e
        split
        · rename_i e
          subst e
          exact cellGet_below m (a + 1) a h.2 (by omega)
        · simp only [cellGet, ↓reduceIte]
      · rename_i ne
        simp only [cellGet]
        rw [if_neg (by omega)]
        exact ih (k + 1) h.2

/-! The canonical form. -/

theorem wfFrom_mono (m : List Host.Cell) (lo hi : Nat) (h : Memory.wfFrom hi m = true) (l : lo ≤ hi) : Memory.wfFrom lo m = true := by
  cases m with
  | nil => rfl
  | cons c m =>
    obtain ⟨k, w⟩ := c
    simp only [Memory.wfFrom, Bool.and_eq_true, decide_eq_true_eq] at h ⊢
    exact ⟨⟨by omega, h.1.2⟩, h.2⟩

theorem wfFrom_cellSet (m : List Host.Cell) (lo a : Nat) (v : Byte) (h : Memory.wfFrom lo m = true) (l : lo ≤ a) :
    Memory.wfFrom lo (cellSet m a v) = true := by
  induction m generalizing lo with
  | nil =>
    simp only [cellSet]
    split
    · rfl
    · rename_i e
      simp only [Memory.wfFrom, Bool.and_true, Bool.and_eq_true, decide_eq_true_eq, bne_iff_ne]
      exact ⟨l, e⟩
  | cons c m ih =>
    obtain ⟨k, w⟩ := c
    have h0 := h
    simp only [Memory.wfFrom, Bool.and_eq_true, decide_eq_true_eq, bne_iff_ne] at h
    simp only [cellSet]
    split
    · rename_i lt
      split
      · exact h0
      · rename_i e
        simp only [Memory.wfFrom, Bool.and_eq_true, decide_eq_true_eq, bne_iff_ne]
        exact ⟨⟨l, e⟩, ⟨by omega, h.1.2⟩, h.2⟩
    · split
      · rename_i e
        subst e
        split
        · exact wfFrom_mono m lo (a + 1) h.2 (by omega)
        · rename_i e
          simp only [Memory.wfFrom, Bool.and_eq_true, decide_eq_true_eq, bne_iff_ne]
          exact ⟨⟨l, e⟩, h.2⟩
      · simp only [Memory.wfFrom, Bool.and_eq_true, decide_eq_true_eq, bne_iff_ne]
        exact ⟨h.1, ih (k + 1) h.2 (by omega)⟩

theorem wf_cellSet (m : List Host.Cell) (a : Nat) (v : Byte) (h : Memory.wf m = true) : Memory.wf (cellSet m a v) = true :=
  wfFrom_cellSet m 0 a v h (Nat.zero_le a)

theorem wf_cellsSet (m : List Host.Cell) (a : Nat) (bs : List Byte) (h : Memory.wf m = true) : Memory.wf (cellsSet m a bs) = true := by
  induction bs generalizing m a with
  | nil => exact h
  | cons b bs ih => exact ih (cellSet m a b) (a + 1) (wf_cellSet m a b h)

theorem wfFrom_filter (p : Host.Cell → Bool) (m : List Host.Cell) (lo : Nat) (h : Memory.wfFrom lo m = true) :
    Memory.wfFrom lo (m.filter p) = true := by
  induction m generalizing lo with
  | nil => rfl
  | cons c m ih =>
    obtain ⟨k, w⟩ := c
    simp only [Memory.wfFrom, Bool.and_eq_true, decide_eq_true_eq] at h
    simp only [List.filter_cons]
    split
    · simp only [Memory.wfFrom, Bool.and_eq_true, decide_eq_true_eq]
      exact ⟨h.1, ih (k + 1) h.2⟩
    · exact wfFrom_mono _ lo (k + 1) (ih (k + 1) h.2) (by omega)

theorem wf_cellsClear (m : List Host.Cell) (lo hi : Nat) (h : Memory.wf m = true) : Memory.wf (cellsClear m lo hi) = true :=
  wfFrom_filter _ m 0 h

/-- Two memories in canonical form that read alike are the same list. -/
theorem wfFrom_ext (m n : List Host.Cell) (lo : Nat) (hm : Memory.wfFrom lo m = true) (hn : Memory.wfFrom lo n = true)
    (h : ∀ a, cellGet m a = cellGet n a) : m = n := by
  induction m generalizing n lo with
  | nil =>
    cases n with
    | nil => rfl
    | cons d n =>
      obtain ⟨k, w⟩ := d
      simp only [Memory.wfFrom, Bool.and_eq_true, bne_iff_ne] at hn
      have := h k
      simp only [cellGet, if_pos] at this
      exact absurd this.symm hn.1.2
  | cons c m ih =>
    obtain ⟨k, w⟩ := c
    have hm0 := hm
    simp only [Memory.wfFrom, Bool.and_eq_true, decide_eq_true_eq, bne_iff_ne] at hm
    cases n with
    | nil =>
      have := h k
      simp only [cellGet, if_pos] at this
      exact absurd this hm.1.2
    | cons d n =>
      obtain ⟨j, v⟩ := d
      have hn0 := hn
      simp only [Memory.wfFrom, Bool.and_eq_true, decide_eq_true_eq, bne_iff_ne] at hn
      have key : k = j := by
        rcases Nat.lt_trichotomy k j with l | e | l
        · have := h k
          simp only [cellGet, if_pos] at this
          rw [if_neg (by omega), cellGet_below n (j + 1) k hn.2 (by omega)] at this
          exact absurd this hm.1.2
        · exact e
        · have := h j
          simp only [cellGet, if_pos] at this
          rw [if_neg (by omega), cellGet_below m (k + 1) j hm.2 (by omega)] at this
          exact absurd this.symm hn.1.2
      subst key
      have val : w = v := by
        have := h k
        simpa only [cellGet, if_pos] using this
      subst val
      rw [ih n (k + 1) hm.2 hn.2]
      intro a
      rcases Nat.lt_or_ge a (k + 1) with l | l
      · rw [cellGet_below m (k + 1) a hm.2 l, cellGet_below n (k + 1) a hn.2 l]
      · have := h a
        simpa only [cellGet, if_neg (show ¬k = a by omega)] using this

/-! Runs of cells. -/

theorem cellGet_cellsSet_out (m : List Host.Cell) (a b : Nat) (bs : List Byte) (h : b < a ∨ a + bs.length ≤ b) :
    cellGet (cellsSet m a bs) b = cellGet m b := by
  induction bs generalizing m a with
  | nil => rfl
  | cons x bs ih =>
    simp only [List.length_cons] at h
    simp only [cellsSet]
    rw [ih _ _ (by omega), cellGet_cellSet_other _ _ _ _ (by omega)]

theorem cellGet_cellsSet_in (m : List Host.Cell) (a i : Nat) (bs : List Byte) (hm : Memory.wf m = true) (h : i < bs.length) :
    cellGet (cellsSet m a bs) (a + i) = bs[i] := by
  induction bs generalizing m a i with
  | nil => simp only [List.length_nil, Nat.not_lt_zero] at h
  | cons x bs ih =>
    cases i with
    | zero =>
      simp only [cellsSet, Nat.add_zero, List.getElem_cons_zero]
      rw [cellGet_cellsSet_out _ _ _ _ (by omega), cellGet_cellSet_same m 0 a x hm]
    | succ i =>
      simp only [cellsSet, List.getElem_cons_succ]
      rw [show a + (i + 1) = (a + 1) + i by omega]
      exact ih (cellSet m a x) (a + 1) i (wf_cellSet m a x hm) (by simpa only [List.length_cons, Nat.add_lt_add_iff_right] using h)

theorem cellsGet_length (m : List Host.Cell) (a n : Nat) : (cellsGet m a n).length = n := by
  induction n generalizing a with
  | zero => rfl
  | succ n ih => simp only [cellsGet, List.length_cons, ih]

theorem cellsGet_congr (m m' : List Host.Cell) (a n : Nat) (h : ∀ i, i < n → cellGet m (a + i) = cellGet m' (a + i)) :
    cellsGet m a n = cellsGet m' a n := by
  induction n generalizing a with
  | zero => rfl
  | succ n ih =>
    simp only [cellsGet]
    rw [show cellGet m a = cellGet m' a from h 0 (by omega), ih (a + 1)]
    intro i hi
    have := h (i + 1) (by omega)
    rwa [show a + 1 + i = a + (i + 1) by omega]

theorem cellsGet_cellsSet (m : List Host.Cell) (a : Nat) (bs : List Byte) (hm : Memory.wf m = true) :
    cellsGet (cellsSet m a bs) a bs.length = bs := by
  induction bs generalizing m a with
  | nil => rfl
  | cons x bs ih =>
    simp only [List.length_cons, cellsGet, cellsSet]
    rw [cellGet_cellsSet_out _ _ _ _ (by omega), cellGet_cellSet_same m 0 a x hm, ih (cellSet m a x) (a + 1) (wf_cellSet m a x hm)]

theorem cellGet_cellsClear_in (m : List Host.Cell) (lo hi a : Nat) (h : lo ≤ a ∧ a < hi) : cellGet (cellsClear m lo hi) a = 0 := by
  induction m with
  | nil => rfl
  | cons c m ih =>
    obtain ⟨k, w⟩ := c
    simp only [cellsClear, List.filter_cons]
    split
    · rename_i hk
      simp only [Bool.or_eq_true, decide_eq_true_eq] at hk
      simp only [cellGet]
      rw [if_neg (by omega)]
      exact ih
    · exact ih

theorem cellGet_cellsClear_out (m : List Host.Cell) (lo hi a : Nat) (h : a < lo ∨ hi ≤ a) :
    cellGet (cellsClear m lo hi) a = cellGet m a := by
  induction m with
  | nil => rfl
  | cons c m ih =>
    obtain ⟨k, w⟩ := c
    simp only [cellsClear, List.filter_cons]
    split
    · simp only [cellGet]
      split
      · rfl
      · exact ih
    · rename_i hk
      simp only [Bool.or_eq_true, decide_eq_true_eq, not_or] at hk
      simp only [cellGet]
      rw [if_neg (by omega)]
      exact ih

/-! Byte order (R4). -/

theorem leBytes_length (n v : Nat) : (leBytes n v).length = n := by
  induction n generalizing v with
  | zero => rfl
  | succ n ih => simp only [leBytes, List.length_cons, ih]

theorem leNat_leBytes (n v : Nat) : leNat (leBytes n v) = v % 256 ^ n := by
  induction n generalizing v with
  | zero => simp only [leBytes, leNat, Nat.pow_zero, Nat.mod_one]
  | succ n ih =>
    simp only [leBytes, leNat, ih, BitVec.toNat_ofNat]
    rw [show 256 ^ (n + 1) = 256 * 256 ^ n from by rw [Nat.pow_succ, Nat.mul_comm], Nat.mod_mul]

theorem leNat_lt (bs : List Byte) : leNat bs < 256 ^ bs.length := by
  induction bs with
  | nil => decide
  | cons b bs ih =>
    simp only [leNat, List.length_cons, Nat.pow_succ]
    have := b.isLt
    omega

/-! The operations of a state on its memory. -/

namespace State

theorem peek_write_out (s : State) (a b : Nat) (bs : List Byte) (po : List Bool) (h : b < a ∨ a + bs.length ≤ b) :
    (s.write a bs po).peek b = s.peek b :=
  cellGet_cellsSet_out s.mem a b bs h

theorem peek_write_in (s : State) (a i : Nat) (bs : List Byte) (po : List Bool) (hm : Memory.wf s.mem = true) (h : i < bs.length) :
    (s.write a bs po).peek (a + i) = bs[i] :=
  cellGet_cellsSet_in s.mem a i bs hm h

theorem bytesAt_write_same (s : State) (a : Nat) (bs : List Byte) (po : List Bool) (hm : Memory.wf s.mem = true) :
    (s.write a bs po).bytesAt a bs.length = bs :=
  cellsGet_cellsSet s.mem a bs hm

theorem natAt_writeNat_same (s : State) (a n v : Nat) (hm : Memory.wf s.mem = true) : (s.writeNat a n v).natAt a n = v % 256 ^ n := by
  have h := cellsGet_cellsSet s.mem a (leBytes n v) hm
  rw [leBytes_length] at h
  show leNat (cellsGet (cellsSet s.mem a (leBytes n v)) a n) = _
  rw [h, leNat_leBytes]

theorem wf_write (s : State) (a : Nat) (bs : List Byte) (po : List Bool) (hm : Memory.wf s.mem = true) :
    Memory.wf (s.write a bs po).mem = true :=
  wf_cellsSet s.mem a bs hm

theorem wf_writeBytes (s : State) (a : Nat) (bs : List Byte) (hm : Memory.wf s.mem = true) : Memory.wf (s.writeBytes a bs).mem = true :=
  wf_cellsSet s.mem a bs hm

theorem wf_writeNat (s : State) (a n v : Nat) (hm : Memory.wf s.mem = true) : Memory.wf (s.writeNat a n v).mem = true :=
  wf_cellsSet s.mem a _ hm

theorem wf_zeroFill (s : State) (lo hi : Nat) (hm : Memory.wf s.mem = true) : Memory.wf (s.zeroFill lo hi).mem = true :=
  wf_cellsClear s.mem lo hi hm

theorem wf_markPoison (s : State) (w : Nat) (hm : Memory.wf s.mem = true) : Memory.wf (s.markPoison w).mem = true := hm

end State

end Sys2Proof.Machine
end

