-- ==== Sys2Proof/Laws/State.lean ====
section
/-! SUPPORT. What each named update of a state or a strand leaves alone and what it sets: one lemma per field per update. -/

namespace Sys2Proof.Machine

open Sys2Proof

namespace State

@[simp] theorem setStrand_agenda (s : State) (sid : Nat) (t : Strand) : (s.setStrand sid t).agenda = s.agenda := rfl
@[simp] theorem setStrand_now (s : State) (sid : Nat) (t : Strand) : (s.setStrand sid t).now = s.now := rfl
@[simp] theorem setStrand_free (s : State) (sid : Nat) (t : Strand) : (s.setStrand sid t).free = s.free := rfl
@[simp] theorem setStrand_nextId (s : State) (sid : Nat) (t : Strand) : (s.setStrand sid t).nextId = s.nextId := rfl
@[simp] theorem setStrand_cur (s : State) (sid : Nat) (t : Strand) : (s.setStrand sid t).cur = s.cur := rfl
@[simp] theorem setStrand_slot (s : State) (sid : Nat) (t : Strand) : (s.setStrand sid t).slot = s.slot := rfl
@[simp] theorem setStrand_curCtx (s : State) (sid : Nat) (t : Strand) : (s.setStrand sid t).curCtx = s.curCtx := rfl
@[simp] theorem setStrand_module (s : State) (sid : Nat) (t : Strand) : (s.setStrand sid t).module = s.module := rfl
@[simp] theorem setStrand_mem (s : State) (sid : Nat) (t : Strand) : (s.setStrand sid t).mem = s.mem := rfl
@[simp] theorem setStrand_poison (s : State) (sid : Nat) (t : Strand) : (s.setStrand sid t).poison = s.poison := rfl
@[simp] theorem setStrand_strands (s : State) (sid : Nat) (t : Strand) : (s.setStrand sid t).strands = s.strands.set sid t := rfl
@[simp] theorem setStrand_cores (s : State) (sid : Nat) (t : Strand) : (s.setStrand sid t).cores = s.cores := rfl
@[simp] theorem setStrand_parts (s : State) (sid : Nat) (t : Strand) : (s.setStrand sid t).parts = s.parts := rfl
@[simp] theorem setStrand_clusters (s : State) (sid : Nat) (t : Strand) : (s.setStrand sid t).clusters = s.clusters := rfl
@[simp] theorem setStrand_braids (s : State) (sid : Nat) (t : Strand) : (s.setStrand sid t).braids = s.braids := rfl
@[simp] theorem setStrand_tasks (s : State) (sid : Nat) (t : Strand) : (s.setStrand sid t).tasks = s.tasks := rfl
@[simp] theorem setStrand_records (s : State) (sid : Nat) (t : Strand) : (s.setStrand sid t).records = s.records := rfl
@[simp] theorem setStrand_ctxs (s : State) (sid : Nat) (t : Strand) : (s.setStrand sid t).ctxs = s.ctxs := rfl
@[simp] theorem setStrand_ctrl (s : State) (sid : Nat) (t : Strand) : (s.setStrand sid t).ctrl = s.ctrl := rfl
@[simp] theorem setStrand_tlb (s : State) (sid : Nat) (t : Strand) : (s.setStrand sid t).tlb = s.tlb := rfl
@[simp] theorem setStrand_scopes (s : State) (sid : Nat) (t : Strand) : (s.setStrand sid t).scopes = s.scopes := rfl
@[simp] theorem setStrand_cancels (s : State) (sid : Nat) (t : Strand) : (s.setStrand sid t).cancels = s.cancels := rfl
@[simp] theorem setStrand_locks (s : State) (sid : Nat) (t : Strand) : (s.setStrand sid t).locks = s.locks := rfl
@[simp] theorem setStrand_kv (s : State) (sid : Nat) (t : Strand) : (s.setStrand sid t).kv = s.kv := rfl
@[simp] theorem setStrand_pfx (s : State) (sid : Nat) (t : Strand) : (s.setStrand sid t).pfx = s.pfx := rfl
@[simp] theorem setStrand_backfill (s : State) (sid : Nat) (t : Strand) : (s.setStrand sid t).backfill = s.backfill := rfl
@[simp] theorem setStrand_frqHeld (s : State) (sid : Nat) (t : Strand) : (s.setStrand sid t).frqHeld = s.frqHeld := rfl
@[simp] theorem setStrand_doomed (s : State) (sid : Nat) (t : Strand) : (s.setStrand sid t).doomed = s.doomed := rfl
@[simp] theorem setStrand_dev (s : State) (sid : Nat) (t : Strand) : (s.setStrand sid t).dev = s.dev := rfl
@[simp] theorem setStrand_tinvCount (s : State) (sid : Nat) (t : Strand) : (s.setStrand sid t).tinvCount = s.tinvCount := rfl
@[simp] theorem setStrand_tinvWait (s : State) (sid : Nat) (t : Strand) : (s.setStrand sid t).tinvWait = s.tinvWait := rfl
@[simp] theorem setStrand_kvWait (s : State) (sid : Nat) (t : Strand) : (s.setStrand sid t).kvWait = s.kvWait := rfl
@[simp] theorem setStrand_lowered (s : State) (sid : Nat) (t : Strand) : (s.setStrand sid t).lowered = s.lowered := rfl
@[simp] theorem setStrand_stageq (s : State) (sid : Nat) (t : Strand) : (s.setStrand sid t).stageq = s.stageq := rfl
@[simp] theorem setStrand_posts (s : State) (sid : Nat) (t : Strand) : (s.setStrand sid t).posts = s.posts := rfl
@[simp] theorem setStrand_swRed (s : State) (sid : Nat) (t : Strand) : (s.setStrand sid t).swRed = s.swRed := rfl
@[simp] theorem setStrand_steal (s : State) (sid : Nat) (t : Strand) : (s.setStrand sid t).steal = s.steal := rfl
@[simp] theorem setStrand_boot (s : State) (sid : Nat) (t : Strand) : (s.setStrand sid t).boot = s.boot := rfl
@[simp] theorem setStrand_power (s : State) (sid : Nat) (t : Strand) : (s.setStrand sid t).power = s.power := rfl
@[simp] theorem setStrand_telem (s : State) (sid : Nat) (t : Strand) : (s.setStrand sid t).telem = s.telem := rfl
@[simp] theorem setStrand_ports (s : State) (sid : Nat) (t : Strand) : (s.setStrand sid t).ports = s.ports := rfl
@[simp] theorem setStrand_service (s : State) (sid : Nat) (t : Strand) : (s.setStrand sid t).service = s.service := rfl

@[simp] theorem updStrand_agenda (s : State) (sid : Nat) (f : Strand → Strand) : (s.updStrand sid f).agenda = s.agenda := rfl
@[simp] theorem updStrand_now (s : State) (sid : Nat) (f : Strand → Strand) : (s.updStrand sid f).now = s.now := rfl
@[simp] theorem updStrand_free (s : State) (sid : Nat) (f : Strand → Strand) : (s.updStrand sid f).free = s.free := rfl
@[simp] theorem updStrand_nextId (s : State) (sid : Nat) (f : Strand → Strand) : (s.updStrand sid f).nextId = s.nextId := rfl
@[simp] theorem updStrand_cur (s : State) (sid : Nat) (f : Strand → Strand) : (s.updStrand sid f).cur = s.cur := rfl
@[simp] theorem updStrand_slot (s : State) (sid : Nat) (f : Strand → Strand) : (s.updStrand sid f).slot = s.slot := rfl
@[simp] theorem updStrand_curCtx (s : State) (sid : Nat) (f : Strand → Strand) : (s.updStrand sid f).curCtx = s.curCtx := rfl
@[simp] theorem updStrand_module (s : State) (sid : Nat) (f : Strand → Strand) : (s.updStrand sid f).module = s.module := rfl
@[simp] theorem updStrand_mem (s : State) (sid : Nat) (f : Strand → Strand) : (s.updStrand sid f).mem = s.mem := rfl
@[simp] theorem updStrand_poison (s : State) (sid : Nat) (f : Strand → Strand) : (s.updStrand sid f).poison = s.poison := rfl
@[simp] theorem updStrand_strands (s : State) (sid : Nat) (f : Strand → Strand) : (s.updStrand sid f).strands = s.strands.set sid (f (s.strand sid)) := rfl
@[simp] theorem updStrand_cores (s : State) (sid : Nat) (f : Strand → Strand) : (s.updStrand sid f).cores = s.cores := rfl
@[simp] theorem updStrand_parts (s : State) (sid : Nat) (f : Strand → Strand) : (s.updStrand sid f).parts = s.parts := rfl
@[simp] theorem updStrand_clusters (s : State) (sid : Nat) (f : Strand → Strand) : (s.updStrand sid f).clusters = s.clusters := rfl
@[simp] theorem updStrand_braids (s : State) (sid : Nat) (f : Strand → Strand) : (s.updStrand sid f).braids = s.braids := rfl
@[simp] theorem updStrand_tasks (s : State) (sid : Nat) (f : Strand → Strand) : (s.updStrand sid f).tasks = s.tasks := rfl
@[simp] theorem updStrand_records (s : State) (sid : Nat) (f : Strand → Strand) : (s.updStrand sid f).records = s.records := rfl
@[simp] theorem updStrand_ctxs (s : State) (sid : Nat) (f : Strand → Strand) : (s.updStrand sid f).ctxs = s.ctxs := rfl
@[simp] theorem updStrand_ctrl (s : State) (sid : Nat) (f : Strand → Strand) : (s.updStrand sid f).ctrl = s.ctrl := rfl
@[simp] theorem updStrand_tlb (s : State) (sid : Nat) (f : Strand → Strand) : (s.updStrand sid f).tlb = s.tlb := rfl
@[simp] theorem updStrand_scopes (s : State) (sid : Nat) (f : Strand → Strand) : (s.updStrand sid f).scopes = s.scopes := rfl
@[simp] theorem updStrand_cancels (s : State) (sid : Nat) (f : Strand → Strand) : (s.updStrand sid f).cancels = s.cancels := rfl
@[simp] theorem updStrand_locks (s : State) (sid : Nat) (f : Strand → Strand) : (s.updStrand sid f).locks = s.locks := rfl
@[simp] theorem updStrand_kv (s : State) (sid : Nat) (f : Strand → Strand) : (s.updStrand sid f).kv = s.kv := rfl
@[simp] theorem updStrand_pfx (s : State) (sid : Nat) (f : Strand → Strand) : (s.updStrand sid f).pfx = s.pfx := rfl
@[simp] theorem updStrand_backfill (s : State) (sid : Nat) (f : Strand → Strand) : (s.updStrand sid f).backfill = s.backfill := rfl
@[simp] theorem updStrand_frqHeld (s : State) (sid : Nat) (f : Strand → Strand) : (s.updStrand sid f).frqHeld = s.frqHeld := rfl
@[simp] theorem updStrand_doomed (s : State) (sid : Nat) (f : Strand → Strand) : (s.updStrand sid f).doomed = s.doomed := rfl
@[simp] theorem updStrand_dev (s : State) (sid : Nat) (f : Strand → Strand) : (s.updStrand sid f).dev = s.dev := rfl
@[simp] theorem updStrand_tinvCount (s : State) (sid : Nat) (f : Strand → Strand) : (s.updStrand sid f).tinvCount = s.tinvCount := rfl
@[simp] theorem updStrand_tinvWait (s : State) (sid : Nat) (f : Strand → Strand) : (s.updStrand sid f).tinvWait = s.tinvWait := rfl
@[simp] theorem updStrand_kvWait (s : State) (sid : Nat) (f : Strand → Strand) : (s.updStrand sid f).kvWait = s.kvWait := rfl
@[simp] theorem updStrand_lowered (s : State) (sid : Nat) (f : Strand → Strand) : (s.updStrand sid f).lowered = s.lowered := rfl
@[simp] theorem updStrand_stageq (s : State) (sid : Nat) (f : Strand → Strand) : (s.updStrand sid f).stageq = s.stageq := rfl
@[simp] theorem updStrand_posts (s : State) (sid : Nat) (f : Strand → Strand) : (s.updStrand sid f).posts = s.posts := rfl
@[simp] theorem updStrand_swRed (s : State) (sid : Nat) (f : Strand → Strand) : (s.updStrand sid f).swRed = s.swRed := rfl
@[simp] theorem updStrand_steal (s : State) (sid : Nat) (f : Strand → Strand) : (s.updStrand sid f).steal = s.steal := rfl
@[simp] theorem updStrand_boot (s : State) (sid : Nat) (f : Strand → Strand) : (s.updStrand sid f).boot = s.boot := rfl
@[simp] theorem updStrand_power (s : State) (sid : Nat) (f : Strand → Strand) : (s.updStrand sid f).power = s.power := rfl
@[simp] theorem updStrand_telem (s : State) (sid : Nat) (f : Strand → Strand) : (s.updStrand sid f).telem = s.telem := rfl
@[simp] theorem updStrand_ports (s : State) (sid : Nat) (f : Strand → Strand) : (s.updStrand sid f).ports = s.ports := rfl
@[simp] theorem updStrand_service (s : State) (sid : Nat) (f : Strand → Strand) : (s.updStrand sid f).service = s.service := rfl

@[simp] theorem updMe_agenda (s : State) (f : Strand → Strand) : (s.updMe f).agenda = s.agenda := rfl
@[simp] theorem updMe_now (s : State) (f : Strand → Strand) : (s.updMe f).now = s.now := rfl
@[simp] theorem updMe_free (s : State) (f : Strand → Strand) : (s.updMe f).free = s.free := rfl
@[simp] theorem updMe_nextId (s : State) (f : Strand → Strand) : (s.updMe f).nextId = s.nextId := rfl
@[simp] theorem updMe_cur (s : State) (f : Strand → Strand) : (s.updMe f).cur = s.cur := rfl
@[simp] theorem updMe_slot (s : State) (f : Strand → Strand) : (s.updMe f).slot = s.slot := rfl
@[simp] theorem updMe_curCtx (s : State) (f : Strand → Strand) : (s.updMe f).curCtx = s.curCtx := rfl
@[simp] theorem updMe_module (s : State) (f : Strand → Strand) : (s.updMe f).module = s.module := rfl
@[simp] theorem updMe_mem (s : State) (f : Strand → Strand) : (s.updMe f).mem = s.mem := rfl
@[simp] theorem updMe_poison (s : State) (f : Strand → Strand) : (s.updMe f).poison = s.poison := rfl
@[simp] theorem updMe_strands (s : State) (f : Strand → Strand) : (s.updMe f).strands = s.strands.set s.cur (f s.me) := rfl
@[simp] theorem updMe_cores (s : State) (f : Strand → Strand) : (s.updMe f).cores = s.cores := rfl
@[simp] theorem updMe_parts (s : State) (f : Strand → Strand) : (s.updMe f).parts = s.parts := rfl
@[simp] theorem updMe_clusters (s : State) (f : Strand → Strand) : (s.updMe f).clusters = s.clusters := rfl
@[simp] theorem updMe_braids (s : State) (f : Strand → Strand) : (s.updMe f).braids = s.braids := rfl
@[simp] theorem updMe_tasks (s : State) (f : Strand → Strand) : (s.updMe f).tasks = s.tasks := rfl
@[simp] theorem updMe_records (s : State) (f : Strand → Strand) : (s.updMe f).records = s.records := rfl
@[simp] theorem updMe_ctxs (s : State) (f : Strand → Strand) : (s.updMe f).ctxs = s.ctxs := rfl
@[simp] theorem updMe_ctrl (s : State) (f : Strand → Strand) : (s.updMe f).ctrl = s.ctrl := rfl
@[simp] theorem updMe_tlb (s : State) (f : Strand → Strand) : (s.updMe f).tlb = s.tlb := rfl
@[simp] theorem updMe_scopes (s : State) (f : Strand → Strand) : (s.updMe f).scopes = s.scopes := rfl
@[simp] theorem updMe_cancels (s : State) (f : Strand → Strand) : (s.updMe f).cancels = s.cancels := rfl
@[simp] theorem updMe_locks (s : State) (f : Strand → Strand) : (s.updMe f).locks = s.locks := rfl
@[simp] theorem updMe_kv (s : State) (f : Strand → Strand) : (s.updMe f).kv = s.kv := rfl
@[simp] theorem updMe_pfx (s : State) (f : Strand → Strand) : (s.updMe f).pfx = s.pfx := rfl
@[simp] theorem updMe_backfill (s : State) (f : Strand → Strand) : (s.updMe f).backfill = s.backfill := rfl
@[simp] theorem updMe_frqHeld (s : State) (f : Strand → Strand) : (s.updMe f).frqHeld = s.frqHeld := rfl
@[simp] theorem updMe_doomed (s : State) (f : Strand → Strand) : (s.updMe f).doomed = s.doomed := rfl
@[simp] theorem updMe_dev (s : State) (f : Strand → Strand) : (s.updMe f).dev = s.dev := rfl
@[simp] theorem updMe_tinvCount (s : State) (f : Strand → Strand) : (s.updMe f).tinvCount = s.tinvCount := rfl
@[simp] theorem updMe_tinvWait (s : State) (f : Strand → Strand) : (s.updMe f).tinvWait = s.tinvWait := rfl
@[simp] theorem updMe_kvWait (s : State) (f : Strand → Strand) : (s.updMe f).kvWait = s.kvWait := rfl
@[simp] theorem updMe_lowered (s : State) (f : Strand → Strand) : (s.updMe f).lowered = s.lowered := rfl
@[simp] theorem updMe_stageq (s : State) (f : Strand → Strand) : (s.updMe f).stageq = s.stageq := rfl
@[simp] theorem updMe_posts (s : State) (f : Strand → Strand) : (s.updMe f).posts = s.posts := rfl
@[simp] theorem updMe_swRed (s : State) (f : Strand → Strand) : (s.updMe f).swRed = s.swRed := rfl
@[simp] theorem updMe_steal (s : State) (f : Strand → Strand) : (s.updMe f).steal = s.steal := rfl
@[simp] theorem updMe_boot (s : State) (f : Strand → Strand) : (s.updMe f).boot = s.boot := rfl
@[simp] theorem updMe_power (s : State) (f : Strand → Strand) : (s.updMe f).power = s.power := rfl
@[simp] theorem updMe_telem (s : State) (f : Strand → Strand) : (s.updMe f).telem = s.telem := rfl
@[simp] theorem updMe_ports (s : State) (f : Strand → Strand) : (s.updMe f).ports = s.ports := rfl
@[simp] theorem updMe_service (s : State) (f : Strand → Strand) : (s.updMe f).service = s.service := rfl

@[simp] theorem updCore_agenda (s : State) (gid : Nat) (f : Core → Core) : (s.updCore gid f).agenda = s.agenda := rfl
@[simp] theorem updCore_now (s : State) (gid : Nat) (f : Core → Core) : (s.updCore gid f).now = s.now := rfl
@[simp] theorem updCore_free (s : State) (gid : Nat) (f : Core → Core) : (s.updCore gid f).free = s.free := rfl
@[simp] theorem updCore_nextId (s : State) (gid : Nat) (f : Core → Core) : (s.updCore gid f).nextId = s.nextId := rfl
@[simp] theorem updCore_cur (s : State) (gid : Nat) (f : Core → Core) : (s.updCore gid f).cur = s.cur := rfl
@[simp] theorem updCore_slot (s : State) (gid : Nat) (f : Core → Core) : (s.updCore gid f).slot = s.slot := rfl
@[simp] theorem updCore_curCtx (s : State) (gid : Nat) (f : Core → Core) : (s.updCore gid f).curCtx = s.curCtx := rfl
@[simp] theorem updCore_module (s : State) (gid : Nat) (f : Core → Core) : (s.updCore gid f).module = s.module := rfl
@[simp] theorem updCore_mem (s : State) (gid : Nat) (f : Core → Core) : (s.updCore gid f).mem = s.mem := rfl
@[simp] theorem updCore_poison (s : State) (gid : Nat) (f : Core → Core) : (s.updCore gid f).poison = s.poison := rfl
@[simp] theorem updCore_strands (s : State) (gid : Nat) (f : Core → Core) : (s.updCore gid f).strands = s.strands := rfl
@[simp] theorem updCore_cores (s : State) (gid : Nat) (f : Core → Core) : (s.updCore gid f).cores = s.cores.set gid (f (s.core gid)) := rfl
@[simp] theorem updCore_parts (s : State) (gid : Nat) (f : Core → Core) : (s.updCore gid f).parts = s.parts := rfl
@[simp] theorem updCore_clusters (s : State) (gid : Nat) (f : Core → Core) : (s.updCore gid f).clusters = s.clusters := rfl
@[simp] theorem updCore_braids (s : State) (gid : Nat) (f : Core → Core) : (s.updCore gid f).braids = s.braids := rfl
@[simp] theorem updCore_tasks (s : State) (gid : Nat) (f : Core → Core) : (s.updCore gid f).tasks = s.tasks := rfl
@[simp] theorem updCore_records (s : State) (gid : Nat) (f : Core → Core) : (s.updCore gid f).records = s.records := rfl
@[simp] theorem updCore_ctxs (s : State) (gid : Nat) (f : Core → Core) : (s.updCore gid f).ctxs = s.ctxs := rfl
@[simp] theorem updCore_ctrl (s : State) (gid : Nat) (f : Core → Core) : (s.updCore gid f).ctrl = s.ctrl := rfl
@[simp] theorem updCore_tlb (s : State) (gid : Nat) (f : Core → Core) : (s.updCore gid f).tlb = s.tlb := rfl
@[simp] theorem updCore_scopes (s : State) (gid : Nat) (f : Core → Core) : (s.updCore gid f).scopes = s.scopes := rfl
@[simp] theorem updCore_cancels (s : State) (gid : Nat) (f : Core → Core) : (s.updCore gid f).cancels = s.cancels := rfl
@[simp] theorem updCore_locks (s : State) (gid : Nat) (f : Core → Core) : (s.updCore gid f).locks = s.locks := rfl
@[simp] theorem updCore_kv (s : State) (gid : Nat) (f : Core → Core) : (s.updCore gid f).kv = s.kv := rfl
@[simp] theorem updCore_pfx (s : State) (gid : Nat) (f : Core → Core) : (s.updCore gid f).pfx = s.pfx := rfl
@[simp] theorem updCore_backfill (s : State) (gid : Nat) (f : Core → Core) : (s.updCore gid f).backfill = s.backfill := rfl
@[simp] theorem updCore_frqHeld (s : State) (gid : Nat) (f : Core → Core) : (s.updCore gid f).frqHeld = s.frqHeld := rfl
@[simp] theorem updCore_doomed (s : State) (gid : Nat) (f : Core → Core) : (s.updCore gid f).doomed = s.doomed := rfl
@[simp] theorem updCore_dev (s : State) (gid : Nat) (f : Core → Core) : (s.updCore gid f).dev = s.dev := rfl
@[simp] theorem updCore_tinvCount (s : State) (gid : Nat) (f : Core → Core) : (s.updCore gid f).tinvCount = s.tinvCount := rfl
@[simp] theorem updCore_tinvWait (s : State) (gid : Nat) (f : Core → Core) : (s.updCore gid f).tinvWait = s.tinvWait := rfl
@[simp] theorem updCore_kvWait (s : State) (gid : Nat) (f : Core → Core) : (s.updCore gid f).kvWait = s.kvWait := rfl
@[simp] theorem updCore_lowered (s : State) (gid : Nat) (f : Core → Core) : (s.updCore gid f).lowered = s.lowered := rfl
@[simp] theorem updCore_stageq (s : State) (gid : Nat) (f : Core → Core) : (s.updCore gid f).stageq = s.stageq := rfl
@[simp] theorem updCore_posts (s : State) (gid : Nat) (f : Core → Core) : (s.updCore gid f).posts = s.posts := rfl
@[simp] theorem updCore_swRed (s : State) (gid : Nat) (f : Core → Core) : (s.updCore gid f).swRed = s.swRed := rfl
@[simp] theorem updCore_steal (s : State) (gid : Nat) (f : Core → Core) : (s.updCore gid f).steal = s.steal := rfl
@[simp] theorem updCore_boot (s : State) (gid : Nat) (f : Core → Core) : (s.updCore gid f).boot = s.boot := rfl
@[simp] theorem updCore_power (s : State) (gid : Nat) (f : Core → Core) : (s.updCore gid f).power = s.power := rfl
@[simp] theorem updCore_telem (s : State) (gid : Nat) (f : Core → Core) : (s.updCore gid f).telem = s.telem := rfl
@[simp] theorem updCore_ports (s : State) (gid : Nat) (f : Core → Core) : (s.updCore gid f).ports = s.ports := rfl
@[simp] theorem updCore_service (s : State) (gid : Nat) (f : Core → Core) : (s.updCore gid f).service = s.service := rfl

@[simp] theorem updCluster_agenda (s : State) (k : Nat) (f : Cluster → Cluster) : (s.updCluster k f).agenda = s.agenda := rfl
@[simp] theorem updCluster_now (s : State) (k : Nat) (f : Cluster → Cluster) : (s.updCluster k f).now = s.now := rfl
@[simp] theorem updCluster_free (s : State) (k : Nat) (f : Cluster → Cluster) : (s.updCluster k f).free = s.free := rfl
@[simp] theorem updCluster_nextId (s : State) (k : Nat) (f : Cluster → Cluster) : (s.updCluster k f).nextId = s.nextId := rfl
@[simp] theorem updCluster_cur (s : State) (k : Nat) (f : Cluster → Cluster) : (s.updCluster k f).cur = s.cur := rfl
@[simp] theorem updCluster_slot (s : State) (k : Nat) (f : Cluster → Cluster) : (s.updCluster k f).slot = s.slot := rfl
@[simp] theorem updCluster_curCtx (s : State) (k : Nat) (f : Cluster → Cluster) : (s.updCluster k f).curCtx = s.curCtx := rfl
@[simp] theorem updCluster_module (s : State) (k : Nat) (f : Cluster → Cluster) : (s.updCluster k f).module = s.module := rfl
@[simp] theorem updCluster_mem (s : State) (k : Nat) (f : Cluster → Cluster) : (s.updCluster k f).mem = s.mem := rfl
@[simp] theorem updCluster_poison (s : State) (k : Nat) (f : Cluster → Cluster) : (s.updCluster k f).poison = s.poison := rfl
@[simp] theorem updCluster_strands (s : State) (k : Nat) (f : Cluster → Cluster) : (s.updCluster k f).strands = s.strands := rfl
@[simp] theorem updCluster_cores (s : State) (k : Nat) (f : Cluster → Cluster) : (s.updCluster k f).cores = s.cores := rfl
@[simp] theorem updCluster_parts (s : State) (k : Nat) (f : Cluster → Cluster) : (s.updCluster k f).parts = s.parts := rfl
@[simp] theorem updCluster_clusters (s : State) (k : Nat) (f : Cluster → Cluster) : (s.updCluster k f).clusters = s.clusters.set k (f (s.cluster k)) := rfl
@[simp] theorem updCluster_braids (s : State) (k : Nat) (f : Cluster → Cluster) : (s.updCluster k f).braids = s.braids := rfl
@[simp] theorem updCluster_tasks (s : State) (k : Nat) (f : Cluster → Cluster) : (s.updCluster k f).tasks = s.tasks := rfl
@[simp] theorem updCluster_records (s : State) (k : Nat) (f : Cluster → Cluster) : (s.updCluster k f).records = s.records := rfl
@[simp] theorem updCluster_ctxs (s : State) (k : Nat) (f : Cluster → Cluster) : (s.updCluster k f).ctxs = s.ctxs := rfl
@[simp] theorem updCluster_ctrl (s : State) (k : Nat) (f : Cluster → Cluster) : (s.updCluster k f).ctrl = s.ctrl := rfl
@[simp] theorem updCluster_tlb (s : State) (k : Nat) (f : Cluster → Cluster) : (s.updCluster k f).tlb = s.tlb := rfl
@[simp] theorem updCluster_scopes (s : State) (k : Nat) (f : Cluster → Cluster) : (s.updCluster k f).scopes = s.scopes := rfl
@[simp] theorem updCluster_cancels (s : State) (k : Nat) (f : Cluster → Cluster) : (s.updCluster k f).cancels = s.cancels := rfl
@[simp] theorem updCluster_locks (s : State) (k : Nat) (f : Cluster → Cluster) : (s.updCluster k f).locks = s.locks := rfl
@[simp] theorem updCluster_kv (s : State) (k : Nat) (f : Cluster → Cluster) : (s.updCluster k f).kv = s.kv := rfl
@[simp] theorem updCluster_pfx (s : State) (k : Nat) (f : Cluster → Cluster) : (s.updCluster k f).pfx = s.pfx := rfl
@[simp] theorem updCluster_backfill (s : State) (k : Nat) (f : Cluster → Cluster) : (s.updCluster k f).backfill = s.backfill := rfl
@[simp] theorem updCluster_frqHeld (s : State) (k : Nat) (f : Cluster → Cluster) : (s.updCluster k f).frqHeld = s.frqHeld := rfl
@[simp] theorem updCluster_doomed (s : State) (k : Nat) (f : Cluster → Cluster) : (s.updCluster k f).doomed = s.doomed := rfl
@[simp] theorem updCluster_dev (s : State) (k : Nat) (f : Cluster → Cluster) : (s.updCluster k f).dev = s.dev := rfl
@[simp] theorem updCluster_tinvCount (s : State) (k : Nat) (f : Cluster → Cluster) : (s.updCluster k f).tinvCount = s.tinvCount := rfl
@[simp] theorem updCluster_tinvWait (s : State) (k : Nat) (f : Cluster → Cluster) : (s.updCluster k f).tinvWait = s.tinvWait := rfl
@[simp] theorem updCluster_kvWait (s : State) (k : Nat) (f : Cluster → Cluster) : (s.updCluster k f).kvWait = s.kvWait := rfl
@[simp] theorem updCluster_lowered (s : State) (k : Nat) (f : Cluster → Cluster) : (s.updCluster k f).lowered = s.lowered := rfl
@[simp] theorem updCluster_stageq (s : State) (k : Nat) (f : Cluster → Cluster) : (s.updCluster k f).stageq = s.stageq := rfl
@[simp] theorem updCluster_posts (s : State) (k : Nat) (f : Cluster → Cluster) : (s.updCluster k f).posts = s.posts := rfl
@[simp] theorem updCluster_swRed (s : State) (k : Nat) (f : Cluster → Cluster) : (s.updCluster k f).swRed = s.swRed := rfl
@[simp] theorem updCluster_steal (s : State) (k : Nat) (f : Cluster → Cluster) : (s.updCluster k f).steal = s.steal := rfl
@[simp] theorem updCluster_boot (s : State) (k : Nat) (f : Cluster → Cluster) : (s.updCluster k f).boot = s.boot := rfl
@[simp] theorem updCluster_power (s : State) (k : Nat) (f : Cluster → Cluster) : (s.updCluster k f).power = s.power := rfl
@[simp] theorem updCluster_telem (s : State) (k : Nat) (f : Cluster → Cluster) : (s.updCluster k f).telem = s.telem := rfl
@[simp] theorem updCluster_ports (s : State) (k : Nat) (f : Cluster → Cluster) : (s.updCluster k f).ports = s.ports := rfl
@[simp] theorem updCluster_service (s : State) (k : Nat) (f : Cluster → Cluster) : (s.updCluster k f).service = s.service := rfl

@[simp] theorem updCtx_agenda (s : State) (c : Nat) (f : Ctx → Ctx) : (s.updCtx c f).agenda = s.agenda := rfl
@[simp] theorem updCtx_now (s : State) (c : Nat) (f : Ctx → Ctx) : (s.updCtx c f).now = s.now := rfl
@[simp] theorem updCtx_free (s : State) (c : Nat) (f : Ctx → Ctx) : (s.updCtx c f).free = s.free := rfl
@[simp] theorem updCtx_nextId (s : State) (c : Nat) (f : Ctx → Ctx) : (s.updCtx c f).nextId = s.nextId := rfl
@[simp] theorem updCtx_cur (s : State) (c : Nat) (f : Ctx → Ctx) : (s.updCtx c f).cur = s.cur := rfl
@[simp] theorem updCtx_slot (s : State) (c : Nat) (f : Ctx → Ctx) : (s.updCtx c f).slot = s.slot := rfl
@[simp] theorem updCtx_curCtx (s : State) (c : Nat) (f : Ctx → Ctx) : (s.updCtx c f).curCtx = s.curCtx := rfl
@[simp] theorem updCtx_module (s : State) (c : Nat) (f : Ctx → Ctx) : (s.updCtx c f).module = s.module := rfl
@[simp] theorem updCtx_mem (s : State) (c : Nat) (f : Ctx → Ctx) : (s.updCtx c f).mem = s.mem := rfl
@[simp] theorem updCtx_poison (s : State) (c : Nat) (f : Ctx → Ctx) : (s.updCtx c f).poison = s.poison := rfl
@[simp] theorem updCtx_strands (s : State) (c : Nat) (f : Ctx → Ctx) : (s.updCtx c f).strands = s.strands := rfl
@[simp] theorem updCtx_cores (s : State) (c : Nat) (f : Ctx → Ctx) : (s.updCtx c f).cores = s.cores := rfl
@[simp] theorem updCtx_parts (s : State) (c : Nat) (f : Ctx → Ctx) : (s.updCtx c f).parts = s.parts := rfl
@[simp] theorem updCtx_clusters (s : State) (c : Nat) (f : Ctx → Ctx) : (s.updCtx c f).clusters = s.clusters := rfl
@[simp] theorem updCtx_braids (s : State) (c : Nat) (f : Ctx → Ctx) : (s.updCtx c f).braids = s.braids := rfl
@[simp] theorem updCtx_tasks (s : State) (c : Nat) (f : Ctx → Ctx) : (s.updCtx c f).tasks = s.tasks := rfl
@[simp] theorem updCtx_records (s : State) (c : Nat) (f : Ctx → Ctx) : (s.updCtx c f).records = s.records := rfl
@[simp] theorem updCtx_ctxs (s : State) (c : Nat) (f : Ctx → Ctx) : (s.updCtx c f).ctxs = s.ctxs.set c (f (s.ctx c)) := rfl
@[simp] theorem updCtx_ctrl (s : State) (c : Nat) (f : Ctx → Ctx) : (s.updCtx c f).ctrl = s.ctrl := rfl
@[simp] theorem updCtx_tlb (s : State) (c : Nat) (f : Ctx → Ctx) : (s.updCtx c f).tlb = s.tlb := rfl
@[simp] theorem updCtx_scopes (s : State) (c : Nat) (f : Ctx → Ctx) : (s.updCtx c f).scopes = s.scopes := rfl
@[simp] theorem updCtx_cancels (s : State) (c : Nat) (f : Ctx → Ctx) : (s.updCtx c f).cancels = s.cancels := rfl
@[simp] theorem updCtx_locks (s : State) (c : Nat) (f : Ctx → Ctx) : (s.updCtx c f).locks = s.locks := rfl
@[simp] theorem updCtx_kv (s : State) (c : Nat) (f : Ctx → Ctx) : (s.updCtx c f).kv = s.kv := rfl
@[simp] theorem updCtx_pfx (s : State) (c : Nat) (f : Ctx → Ctx) : (s.updCtx c f).pfx = s.pfx := rfl
@[simp] theorem updCtx_backfill (s : State) (c : Nat) (f : Ctx → Ctx) : (s.updCtx c f).backfill = s.backfill := rfl
@[simp] theorem updCtx_frqHeld (s : State) (c : Nat) (f : Ctx → Ctx) : (s.updCtx c f).frqHeld = s.frqHeld := rfl
@[simp] theorem updCtx_doomed (s : State) (c : Nat) (f : Ctx → Ctx) : (s.updCtx c f).doomed = s.doomed := rfl
@[simp] theorem updCtx_dev (s : State) (c : Nat) (f : Ctx → Ctx) : (s.updCtx c f).dev = s.dev := rfl
@[simp] theorem updCtx_tinvCount (s : State) (c : Nat) (f : Ctx → Ctx) : (s.updCtx c f).tinvCount = s.tinvCount := rfl
@[simp] theorem updCtx_tinvWait (s : State) (c : Nat) (f : Ctx → Ctx) : (s.updCtx c f).tinvWait = s.tinvWait := rfl
@[simp] theorem updCtx_kvWait (s : State) (c : Nat) (f : Ctx → Ctx) : (s.updCtx c f).kvWait = s.kvWait := rfl
@[simp] theorem updCtx_lowered (s : State) (c : Nat) (f : Ctx → Ctx) : (s.updCtx c f).lowered = s.lowered := rfl
@[simp] theorem updCtx_stageq (s : State) (c : Nat) (f : Ctx → Ctx) : (s.updCtx c f).stageq = s.stageq := rfl
@[simp] theorem updCtx_posts (s : State) (c : Nat) (f : Ctx → Ctx) : (s.updCtx c f).posts = s.posts := rfl
@[simp] theorem updCtx_swRed (s : State) (c : Nat) (f : Ctx → Ctx) : (s.updCtx c f).swRed = s.swRed := rfl
@[simp] theorem updCtx_steal (s : State) (c : Nat) (f : Ctx → Ctx) : (s.updCtx c f).steal = s.steal := rfl
@[simp] theorem updCtx_boot (s : State) (c : Nat) (f : Ctx → Ctx) : (s.updCtx c f).boot = s.boot := rfl
@[simp] theorem updCtx_power (s : State) (c : Nat) (f : Ctx → Ctx) : (s.updCtx c f).power = s.power := rfl
@[simp] theorem updCtx_telem (s : State) (c : Nat) (f : Ctx → Ctx) : (s.updCtx c f).telem = s.telem := rfl
@[simp] theorem updCtx_ports (s : State) (c : Nat) (f : Ctx → Ctx) : (s.updCtx c f).ports = s.ports := rfl
@[simp] theorem updCtx_service (s : State) (c : Nat) (f : Ctx → Ctx) : (s.updCtx c f).service = s.service := rfl

@[simp] theorem setDev_agenda (s : State) (off v : Nat) : (s.setDev off v).agenda = s.agenda := rfl
@[simp] theorem setDev_now (s : State) (off v : Nat) : (s.setDev off v).now = s.now := rfl
@[simp] theorem setDev_free (s : State) (off v : Nat) : (s.setDev off v).free = s.free := rfl
@[simp] theorem setDev_nextId (s : State) (off v : Nat) : (s.setDev off v).nextId = s.nextId := rfl
@[simp] theorem setDev_cur (s : State) (off v : Nat) : (s.setDev off v).cur = s.cur := rfl
@[simp] theorem setDev_slot (s : State) (off v : Nat) : (s.setDev off v).slot = s.slot := rfl
@[simp] theorem setDev_curCtx (s : State) (off v : Nat) : (s.setDev off v).curCtx = s.curCtx := rfl
@[simp] theorem setDev_module (s : State) (off v : Nat) : (s.setDev off v).module = s.module := rfl
@[simp] theorem setDev_mem (s : State) (off v : Nat) : (s.setDev off v).mem = s.mem := rfl
@[simp] theorem setDev_poison (s : State) (off v : Nat) : (s.setDev off v).poison = s.poison := rfl
@[simp] theorem setDev_strands (s : State) (off v : Nat) : (s.setDev off v).strands = s.strands := rfl
@[simp] theorem setDev_cores (s : State) (off v : Nat) : (s.setDev off v).cores = s.cores := rfl
@[simp] theorem setDev_parts (s : State) (off v : Nat) : (s.setDev off v).parts = s.parts := rfl
@[simp] theorem setDev_clusters (s : State) (off v : Nat) : (s.setDev off v).clusters = s.clusters := rfl
@[simp] theorem setDev_braids (s : State) (off v : Nat) : (s.setDev off v).braids = s.braids := rfl
@[simp] theorem setDev_tasks (s : State) (off v : Nat) : (s.setDev off v).tasks = s.tasks := rfl
@[simp] theorem setDev_records (s : State) (off v : Nat) : (s.setDev off v).records = s.records := rfl
@[simp] theorem setDev_ctxs (s : State) (off v : Nat) : (s.setDev off v).ctxs = s.ctxs := rfl
@[simp] theorem setDev_ctrl (s : State) (off v : Nat) : (s.setDev off v).ctrl = s.ctrl := rfl
@[simp] theorem setDev_tlb (s : State) (off v : Nat) : (s.setDev off v).tlb = s.tlb := rfl
@[simp] theorem setDev_scopes (s : State) (off v : Nat) : (s.setDev off v).scopes = s.scopes := rfl
@[simp] theorem setDev_cancels (s : State) (off v : Nat) : (s.setDev off v).cancels = s.cancels := rfl
@[simp] theorem setDev_locks (s : State) (off v : Nat) : (s.setDev off v).locks = s.locks := rfl
@[simp] theorem setDev_kv (s : State) (off v : Nat) : (s.setDev off v).kv = s.kv := rfl
@[simp] theorem setDev_pfx (s : State) (off v : Nat) : (s.setDev off v).pfx = s.pfx := rfl
@[simp] theorem setDev_backfill (s : State) (off v : Nat) : (s.setDev off v).backfill = s.backfill := rfl
@[simp] theorem setDev_frqHeld (s : State) (off v : Nat) : (s.setDev off v).frqHeld = s.frqHeld := rfl
@[simp] theorem setDev_doomed (s : State) (off v : Nat) : (s.setDev off v).doomed = s.doomed := rfl
@[simp] theorem setDev_dev (s : State) (off v : Nat) : (s.setDev off v).dev = s.dev.set off (BitVec.ofNat 64 v) := rfl
@[simp] theorem setDev_tinvCount (s : State) (off v : Nat) : (s.setDev off v).tinvCount = s.tinvCount := rfl
@[simp] theorem setDev_tinvWait (s : State) (off v : Nat) : (s.setDev off v).tinvWait = s.tinvWait := rfl
@[simp] theorem setDev_kvWait (s : State) (off v : Nat) : (s.setDev off v).kvWait = s.kvWait := rfl
@[simp] theorem setDev_lowered (s : State) (off v : Nat) : (s.setDev off v).lowered = s.lowered := rfl
@[simp] theorem setDev_stageq (s : State) (off v : Nat) : (s.setDev off v).stageq = s.stageq := rfl
@[simp] theorem setDev_posts (s : State) (off v : Nat) : (s.setDev off v).posts = s.posts := rfl
@[simp] theorem setDev_swRed (s : State) (off v : Nat) : (s.setDev off v).swRed = s.swRed := rfl
@[simp] theorem setDev_steal (s : State) (off v : Nat) : (s.setDev off v).steal = s.steal := rfl
@[simp] theorem setDev_boot (s : State) (off v : Nat) : (s.setDev off v).boot = s.boot := rfl
@[simp] theorem setDev_power (s : State) (off v : Nat) : (s.setDev off v).power = s.power := rfl
@[simp] theorem setDev_telem (s : State) (off v : Nat) : (s.setDev off v).telem = s.telem := rfl
@[simp] theorem setDev_ports (s : State) (off v : Nat) : (s.setDev off v).ports = s.ports := rfl
@[simp] theorem setDev_service (s : State) (off v : Nat) : (s.setDev off v).service = s.service := rfl

@[simp] theorem land_agenda (s : State) (k : Nat) (v : LandVal) : (s.land k v).agenda = s.agenda := rfl
@[simp] theorem land_now (s : State) (k : Nat) (v : LandVal) : (s.land k v).now = s.now := rfl
@[simp] theorem land_free (s : State) (k : Nat) (v : LandVal) : (s.land k v).free = s.free := rfl
@[simp] theorem land_nextId (s : State) (k : Nat) (v : LandVal) : (s.land k v).nextId = s.nextId := rfl
@[simp] theorem land_cur (s : State) (k : Nat) (v : LandVal) : (s.land k v).cur = s.cur := rfl
@[simp] theorem land_slot (s : State) (k : Nat) (v : LandVal) : (s.land k v).slot = s.slot := rfl
@[simp] theorem land_curCtx (s : State) (k : Nat) (v : LandVal) : (s.land k v).curCtx = s.curCtx := rfl
@[simp] theorem land_module (s : State) (k : Nat) (v : LandVal) : (s.land k v).module = s.module := rfl
@[simp] theorem land_mem (s : State) (k : Nat) (v : LandVal) : (s.land k v).mem = s.mem := rfl
@[simp] theorem land_poison (s : State) (k : Nat) (v : LandVal) : (s.land k v).poison = s.poison := rfl
@[simp] theorem land_strands (s : State) (k : Nat) (v : LandVal) : (s.land k v).strands = s.strands.set s.cur { s.me with latches := s.me.latches ++ [⟨s.posId, s.slot, s.me.vcc + k, false, v⟩] } := rfl
@[simp] theorem land_cores (s : State) (k : Nat) (v : LandVal) : (s.land k v).cores = s.cores := rfl
@[simp] theorem land_parts (s : State) (k : Nat) (v : LandVal) : (s.land k v).parts = s.parts := rfl
@[simp] theorem land_clusters (s : State) (k : Nat) (v : LandVal) : (s.land k v).clusters = s.clusters := rfl
@[simp] theorem land_braids (s : State) (k : Nat) (v : LandVal) : (s.land k v).braids = s.braids := rfl
@[simp] theorem land_tasks (s : State) (k : Nat) (v : LandVal) : (s.land k v).tasks = s.tasks := rfl
@[simp] theorem land_records (s : State) (k : Nat) (v : LandVal) : (s.land k v).records = s.records := rfl
@[simp] theorem land_ctxs (s : State) (k : Nat) (v : LandVal) : (s.land k v).ctxs = s.ctxs := rfl
@[simp] theorem land_ctrl (s : State) (k : Nat) (v : LandVal) : (s.land k v).ctrl = s.ctrl := rfl
@[simp] theorem land_tlb (s : State) (k : Nat) (v : LandVal) : (s.land k v).tlb = s.tlb := rfl
@[simp] theorem land_scopes (s : State) (k : Nat) (v : LandVal) : (s.land k v).scopes = s.scopes := rfl
@[simp] theorem land_cancels (s : State) (k : Nat) (v : LandVal) : (s.land k v).cancels = s.cancels := rfl
@[simp] theorem land_locks (s : State) (k : Nat) (v : LandVal) : (s.land k v).locks = s.locks := rfl
@[simp] theorem land_kv (s : State) (k : Nat) (v : LandVal) : (s.land k v).kv = s.kv := rfl
@[simp] theorem land_pfx (s : State) (k : Nat) (v : LandVal) : (s.land k v).pfx = s.pfx := rfl
@[simp] theorem land_backfill (s : State) (k : Nat) (v : LandVal) : (s.land k v).backfill = s.backfill := rfl
@[simp] theorem land_frqHeld (s : State) (k : Nat) (v : LandVal) : (s.land k v).frqHeld = s.frqHeld := rfl
@[simp] theorem land_doomed (s : State) (k : Nat) (v : LandVal) : (s.land k v).doomed = s.doomed := rfl
@[simp] theorem land_dev (s : State) (k : Nat) (v : LandVal) : (s.land k v).dev = s.dev := rfl
@[simp] theorem land_tinvCount (s : State) (k : Nat) (v : LandVal) : (s.land k v).tinvCount = s.tinvCount := rfl
@[simp] theorem land_tinvWait (s : State) (k : Nat) (v : LandVal) : (s.land k v).tinvWait = s.tinvWait := rfl
@[simp] theorem land_kvWait (s : State) (k : Nat) (v : LandVal) : (s.land k v).kvWait = s.kvWait := rfl
@[simp] theorem land_lowered (s : State) (k : Nat) (v : LandVal) : (s.land k v).lowered = s.lowered := rfl
@[simp] theorem land_stageq (s : State) (k : Nat) (v : LandVal) : (s.land k v).stageq = s.stageq := rfl
@[simp] theorem land_posts (s : State) (k : Nat) (v : LandVal) : (s.land k v).posts = s.posts := rfl
@[simp] theorem land_swRed (s : State) (k : Nat) (v : LandVal) : (s.land k v).swRed = s.swRed := rfl
@[simp] theorem land_steal (s : State) (k : Nat) (v : LandVal) : (s.land k v).steal = s.steal := rfl
@[simp] theorem land_boot (s : State) (k : Nat) (v : LandVal) : (s.land k v).boot = s.boot := rfl
@[simp] theorem land_power (s : State) (k : Nat) (v : LandVal) : (s.land k v).power = s.power := rfl
@[simp] theorem land_telem (s : State) (k : Nat) (v : LandVal) : (s.land k v).telem = s.telem := rfl
@[simp] theorem land_ports (s : State) (k : Nat) (v : LandVal) : (s.land k v).ports = s.ports := rfl
@[simp] theorem land_service (s : State) (k : Nat) (v : LandVal) : (s.land k v).service = s.service := rfl

@[simp] theorem landEntry_agenda (s : State) (k : Nat) (vals : List LandVal) (arrived : Bool) (req : LbReq) : (s.landEntry k vals arrived req).agenda = s.agenda := rfl
@[simp] theorem landEntry_now (s : State) (k : Nat) (vals : List LandVal) (arrived : Bool) (req : LbReq) : (s.landEntry k vals arrived req).now = s.now := rfl
@[simp] theorem landEntry_free (s : State) (k : Nat) (vals : List LandVal) (arrived : Bool) (req : LbReq) : (s.landEntry k vals arrived req).free = s.free := rfl
@[simp] theorem landEntry_nextId (s : State) (k : Nat) (vals : List LandVal) (arrived : Bool) (req : LbReq) : (s.landEntry k vals arrived req).nextId = s.nextId := rfl
@[simp] theorem landEntry_cur (s : State) (k : Nat) (vals : List LandVal) (arrived : Bool) (req : LbReq) : (s.landEntry k vals arrived req).cur = s.cur := rfl
@[simp] theorem landEntry_slot (s : State) (k : Nat) (vals : List LandVal) (arrived : Bool) (req : LbReq) : (s.landEntry k vals arrived req).slot = s.slot := rfl
@[simp] theorem landEntry_curCtx (s : State) (k : Nat) (vals : List LandVal) (arrived : Bool) (req : LbReq) : (s.landEntry k vals arrived req).curCtx = s.curCtx := rfl
@[simp] theorem landEntry_module (s : State) (k : Nat) (vals : List LandVal) (arrived : Bool) (req : LbReq) : (s.landEntry k vals arrived req).module = s.module := rfl
@[simp] theorem landEntry_mem (s : State) (k : Nat) (vals : List LandVal) (arrived : Bool) (req : LbReq) : (s.landEntry k vals arrived req).mem = s.mem := rfl
@[simp] theorem landEntry_poison (s : State) (k : Nat) (vals : List LandVal) (arrived : Bool) (req : LbReq) : (s.landEntry k vals arrived req).poison = s.poison := rfl
@[simp] theorem landEntry_strands (s : State) (k : Nat) (vals : List LandVal) (arrived : Bool) (req : LbReq) : (s.landEntry k vals arrived req).strands = s.strands.set s.cur { s.me with lb := s.me.lb ++ [⟨s.posId, s.me.vcc + k, vals, arrived, false, req, []⟩] } := rfl
@[simp] theorem landEntry_cores (s : State) (k : Nat) (vals : List LandVal) (arrived : Bool) (req : LbReq) : (s.landEntry k vals arrived req).cores = s.cores := rfl
@[simp] theorem landEntry_parts (s : State) (k : Nat) (vals : List LandVal) (arrived : Bool) (req : LbReq) : (s.landEntry k vals arrived req).parts = s.parts := rfl
@[simp] theorem landEntry_clusters (s : State) (k : Nat) (vals : List LandVal) (arrived : Bool) (req : LbReq) : (s.landEntry k vals arrived req).clusters = s.clusters := rfl
@[simp] theorem landEntry_braids (s : State) (k : Nat) (vals : List LandVal) (arrived : Bool) (req : LbReq) : (s.landEntry k vals arrived req).braids = s.braids := rfl
@[simp] theorem landEntry_tasks (s : State) (k : Nat) (vals : List LandVal) (arrived : Bool) (req : LbReq) : (s.landEntry k vals arrived req).tasks = s.tasks := rfl
@[simp] theorem landEntry_records (s : State) (k : Nat) (vals : List LandVal) (arrived : Bool) (req : LbReq) : (s.landEntry k vals arrived req).records = s.records := rfl
@[simp] theorem landEntry_ctxs (s : State) (k : Nat) (vals : List LandVal) (arrived : Bool) (req : LbReq) : (s.landEntry k vals arrived req).ctxs = s.ctxs := rfl
@[simp] theorem landEntry_ctrl (s : State) (k : Nat) (vals : List LandVal) (arrived : Bool) (req : LbReq) : (s.landEntry k vals arrived req).ctrl = s.ctrl := rfl
@[simp] theorem landEntry_tlb (s : State) (k : Nat) (vals : List LandVal) (arrived : Bool) (req : LbReq) : (s.landEntry k vals arrived req).tlb = s.tlb := rfl
@[simp] theorem landEntry_scopes (s : State) (k : Nat) (vals : List LandVal) (arrived : Bool) (req : LbReq) : (s.landEntry k vals arrived req).scopes = s.scopes := rfl
@[simp] theorem landEntry_cancels (s : State) (k : Nat) (vals : List LandVal) (arrived : Bool) (req : LbReq) : (s.landEntry k vals arrived req).cancels = s.cancels := rfl
@[simp] theorem landEntry_locks (s : State) (k : Nat) (vals : List LandVal) (arrived : Bool) (req : LbReq) : (s.landEntry k vals arrived req).locks = s.locks := rfl
@[simp] theorem landEntry_kv (s : State) (k : Nat) (vals : List LandVal) (arrived : Bool) (req : LbReq) : (s.landEntry k vals arrived req).kv = s.kv := rfl
@[simp] theorem landEntry_pfx (s : State) (k : Nat) (vals : List LandVal) (arrived : Bool) (req : LbReq) : (s.landEntry k vals arrived req).pfx = s.pfx := rfl
@[simp] theorem landEntry_backfill (s : State) (k : Nat) (vals : List LandVal) (arrived : Bool) (req : LbReq) : (s.landEntry k vals arrived req).backfill = s.backfill := rfl
@[simp] theorem landEntry_frqHeld (s : State) (k : Nat) (vals : List LandVal) (arrived : Bool) (req : LbReq) : (s.landEntry k vals arrived req).frqHeld = s.frqHeld := rfl
@[simp] theorem landEntry_doomed (s : State) (k : Nat) (vals : List LandVal) (arrived : Bool) (req : LbReq) : (s.landEntry k vals arrived req).doomed = s.doomed := rfl
@[simp] theorem landEntry_dev (s : State) (k : Nat) (vals : List LandVal) (arrived : Bool) (req : LbReq) : (s.landEntry k vals arrived req).dev = s.dev := rfl
@[simp] theorem landEntry_tinvCount (s : State) (k : Nat) (vals : List LandVal) (arrived : Bool) (req : LbReq) : (s.landEntry k vals arrived req).tinvCount = s.tinvCount := rfl
@[simp] theorem landEntry_tinvWait (s : State) (k : Nat) (vals : List LandVal) (arrived : Bool) (req : LbReq) : (s.landEntry k vals arrived req).tinvWait = s.tinvWait := rfl
@[simp] theorem landEntry_kvWait (s : State) (k : Nat) (vals : List LandVal) (arrived : Bool) (req : LbReq) : (s.landEntry k vals arrived req).kvWait = s.kvWait := rfl
@[simp] theorem landEntry_lowered (s : State) (k : Nat) (vals : List LandVal) (arrived : Bool) (req : LbReq) : (s.landEntry k vals arrived req).lowered = s.lowered := rfl
@[simp] theorem landEntry_stageq (s : State) (k : Nat) (vals : List LandVal) (arrived : Bool) (req : LbReq) : (s.landEntry k vals arrived req).stageq = s.stageq := rfl
@[simp] theorem landEntry_posts (s : State) (k : Nat) (vals : List LandVal) (arrived : Bool) (req : LbReq) : (s.landEntry k vals arrived req).posts = s.posts := rfl
@[simp] theorem landEntry_swRed (s : State) (k : Nat) (vals : List LandVal) (arrived : Bool) (req : LbReq) : (s.landEntry k vals arrived req).swRed = s.swRed := rfl
@[simp] theorem landEntry_steal (s : State) (k : Nat) (vals : List LandVal) (arrived : Bool) (req : LbReq) : (s.landEntry k vals arrived req).steal = s.steal := rfl
@[simp] theorem landEntry_boot (s : State) (k : Nat) (vals : List LandVal) (arrived : Bool) (req : LbReq) : (s.landEntry k vals arrived req).boot = s.boot := rfl
@[simp] theorem landEntry_power (s : State) (k : Nat) (vals : List LandVal) (arrived : Bool) (req : LbReq) : (s.landEntry k vals arrived req).power = s.power := rfl
@[simp] theorem landEntry_telem (s : State) (k : Nat) (vals : List LandVal) (arrived : Bool) (req : LbReq) : (s.landEntry k vals arrived req).telem = s.telem := rfl
@[simp] theorem landEntry_ports (s : State) (k : Nat) (vals : List LandVal) (arrived : Bool) (req : LbReq) : (s.landEntry k vals arrived req).ports = s.ports := rfl
@[simp] theorem landEntry_service (s : State) (k : Nat) (vals : List LandVal) (arrived : Bool) (req : LbReq) : (s.landEntry k vals arrived req).service = s.service := rfl

@[simp] theorem write_agenda (s : State) (a : Nat) (bs : List Byte) (po : List Bool) : (s.write a bs po).agenda = s.agenda := rfl
@[simp] theorem write_now (s : State) (a : Nat) (bs : List Byte) (po : List Bool) : (s.write a bs po).now = s.now := rfl
@[simp] theorem write_free (s : State) (a : Nat) (bs : List Byte) (po : List Bool) : (s.write a bs po).free = s.free := rfl
@[simp] theorem write_nextId (s : State) (a : Nat) (bs : List Byte) (po : List Bool) : (s.write a bs po).nextId = s.nextId := rfl
@[simp] theorem write_cur (s : State) (a : Nat) (bs : List Byte) (po : List Bool) : (s.write a bs po).cur = s.cur := rfl
@[simp] theorem write_slot (s : State) (a : Nat) (bs : List Byte) (po : List Bool) : (s.write a bs po).slot = s.slot := rfl
@[simp] theorem write_curCtx (s : State) (a : Nat) (bs : List Byte) (po : List Bool) : (s.write a bs po).curCtx = s.curCtx := rfl
@[simp] theorem write_module (s : State) (a : Nat) (bs : List Byte) (po : List Bool) : (s.write a bs po).module = s.module := rfl
@[simp] theorem write_mem (s : State) (a : Nat) (bs : List Byte) (po : List Bool) : (s.write a bs po).mem = cellsSet s.mem a bs := rfl
@[simp] theorem write_poison (s : State) (a : Nat) (bs : List Byte) (po : List Bool) : (s.write a bs po).poison = (wordsOf a bs.length).foldl (fun p w => markWord p a bs.length po w) s.poison := rfl
@[simp] theorem write_strands (s : State) (a : Nat) (bs : List Byte) (po : List Bool) : (s.write a bs po).strands = s.strands := rfl
@[simp] theorem write_cores (s : State) (a : Nat) (bs : List Byte) (po : List Bool) : (s.write a bs po).cores = s.cores := rfl
@[simp] theorem write_parts (s : State) (a : Nat) (bs : List Byte) (po : List Bool) : (s.write a bs po).parts = s.parts := rfl
@[simp] theorem write_clusters (s : State) (a : Nat) (bs : List Byte) (po : List Bool) : (s.write a bs po).clusters = s.clusters := rfl
@[simp] theorem write_braids (s : State) (a : Nat) (bs : List Byte) (po : List Bool) : (s.write a bs po).braids = s.braids := rfl
@[simp] theorem write_tasks (s : State) (a : Nat) (bs : List Byte) (po : List Bool) : (s.write a bs po).tasks = s.tasks := rfl
@[simp] theorem write_records (s : State) (a : Nat) (bs : List Byte) (po : List Bool) : (s.write a bs po).records = s.records := rfl
@[simp] theorem write_ctxs (s : State) (a : Nat) (bs : List Byte) (po : List Bool) : (s.write a bs po).ctxs = s.ctxs := rfl
@[simp] theorem write_ctrl (s : State) (a : Nat) (bs : List Byte) (po : List Bool) : (s.write a bs po).ctrl = s.ctrl := rfl
@[simp] theorem write_tlb (s : State) (a : Nat) (bs : List Byte) (po : List Bool) : (s.write a bs po).tlb = s.tlb := rfl
@[simp] theorem write_scopes (s : State) (a : Nat) (bs : List Byte) (po : List Bool) : (s.write a bs po).scopes = s.scopes := rfl
@[simp] theorem write_cancels (s : State) (a : Nat) (bs : List Byte) (po : List Bool) : (s.write a bs po).cancels = s.cancels := rfl
@[simp] theorem write_locks (s : State) (a : Nat) (bs : List Byte) (po : List Bool) : (s.write a bs po).locks = s.locks := rfl
@[simp] theorem write_kv (s : State) (a : Nat) (bs : List Byte) (po : List Bool) : (s.write a bs po).kv = s.kv := rfl
@[simp] theorem write_pfx (s : State) (a : Nat) (bs : List Byte) (po : List Bool) : (s.write a bs po).pfx = s.pfx := rfl
@[simp] theorem write_backfill (s : State) (a : Nat) (bs : List Byte) (po : List Bool) : (s.write a bs po).backfill = s.backfill := rfl
@[simp] theorem write_frqHeld (s : State) (a : Nat) (bs : List Byte) (po : List Bool) : (s.write a bs po).frqHeld = s.frqHeld := rfl
@[simp] theorem write_doomed (s : State) (a : Nat) (bs : List Byte) (po : List Bool) : (s.write a bs po).doomed = s.doomed := rfl
@[simp] theorem write_dev (s : State) (a : Nat) (bs : List Byte) (po : List Bool) : (s.write a bs po).dev = s.dev := rfl
@[simp] theorem write_tinvCount (s : State) (a : Nat) (bs : List Byte) (po : List Bool) : (s.write a bs po).tinvCount = s.tinvCount := rfl
@[simp] theorem write_tinvWait (s : State) (a : Nat) (bs : List Byte) (po : List Bool) : (s.write a bs po).tinvWait = s.tinvWait := rfl
@[simp] theorem write_kvWait (s : State) (a : Nat) (bs : List Byte) (po : List Bool) : (s.write a bs po).kvWait = s.kvWait := rfl
@[simp] theorem write_lowered (s : State) (a : Nat) (bs : List Byte) (po : List Bool) : (s.write a bs po).lowered = s.lowered := rfl
@[simp] theorem write_stageq (s : State) (a : Nat) (bs : List Byte) (po : List Bool) : (s.write a bs po).stageq = s.stageq := rfl
@[simp] theorem write_posts (s : State) (a : Nat) (bs : List Byte) (po : List Bool) : (s.write a bs po).posts = s.posts := rfl
@[simp] theorem write_swRed (s : State) (a : Nat) (bs : List Byte) (po : List Bool) : (s.write a bs po).swRed = s.swRed := rfl
@[simp] theorem write_steal (s : State) (a : Nat) (bs : List Byte) (po : List Bool) : (s.write a bs po).steal = s.steal := rfl
@[simp] theorem write_boot (s : State) (a : Nat) (bs : List Byte) (po : List Bool) : (s.write a bs po).boot = s.boot := rfl
@[simp] theorem write_power (s : State) (a : Nat) (bs : List Byte) (po : List Bool) : (s.write a bs po).power = s.power := rfl
@[simp] theorem write_telem (s : State) (a : Nat) (bs : List Byte) (po : List Bool) : (s.write a bs po).telem = s.telem := rfl
@[simp] theorem write_ports (s : State) (a : Nat) (bs : List Byte) (po : List Bool) : (s.write a bs po).ports = s.ports := rfl
@[simp] theorem write_service (s : State) (a : Nat) (bs : List Byte) (po : List Bool) : (s.write a bs po).service = s.service := rfl

@[simp] theorem writeBytes_agenda (s : State) (a : Nat) (bs : List Byte) : (s.writeBytes a bs).agenda = s.agenda := rfl
@[simp] theorem writeBytes_now (s : State) (a : Nat) (bs : List Byte) : (s.writeBytes a bs).now = s.now := rfl
@[simp] theorem writeBytes_free (s : State) (a : Nat) (bs : List Byte) : (s.writeBytes a bs).free = s.free := rfl
@[simp] theorem writeBytes_nextId (s : State) (a : Nat) (bs : List Byte) : (s.writeBytes a bs).nextId = s.nextId := rfl
@[simp] theorem writeBytes_cur (s : State) (a : Nat) (bs : List Byte) : (s.writeBytes a bs).cur = s.cur := rfl
@[simp] theorem writeBytes_slot (s : State) (a : Nat) (bs : List Byte) : (s.writeBytes a bs).slot = s.slot := rfl
@[simp] theorem writeBytes_curCtx (s : State) (a : Nat) (bs : List Byte) : (s.writeBytes a bs).curCtx = s.curCtx := rfl
@[simp] theorem writeBytes_module (s : State) (a : Nat) (bs : List Byte) : (s.writeBytes a bs).module = s.module := rfl
@[simp] theorem writeBytes_mem (s : State) (a : Nat) (bs : List Byte) : (s.writeBytes a bs).mem = cellsSet s.mem a bs := rfl
@[simp] theorem writeBytes_poison (s : State) (a : Nat) (bs : List Byte) : (s.writeBytes a bs).poison = (wordsOf a bs.length).foldl (fun p w => markWord p a bs.length [] w) s.poison := rfl
@[simp] theorem writeBytes_strands (s : State) (a : Nat) (bs : List Byte) : (s.writeBytes a bs).strands = s.strands := rfl
@[simp] theorem writeBytes_cores (s : State) (a : Nat) (bs : List Byte) : (s.writeBytes a bs).cores = s.cores := rfl
@[simp] theorem writeBytes_parts (s : State) (a : Nat) (bs : List Byte) : (s.writeBytes a bs).parts = s.parts := rfl
@[simp] theorem writeBytes_clusters (s : State) (a : Nat) (bs : List Byte) : (s.writeBytes a bs).clusters = s.clusters := rfl
@[simp] theorem writeBytes_braids (s : State) (a : Nat) (bs : List Byte) : (s.writeBytes a bs).braids = s.braids := rfl
@[simp] theorem writeBytes_tasks (s : State) (a : Nat) (bs : List Byte) : (s.writeBytes a bs).tasks = s.tasks := rfl
@[simp] theorem writeBytes_records (s : State) (a : Nat) (bs : List Byte) : (s.writeBytes a bs).records = s.records := rfl
@[simp] theorem writeBytes_ctxs (s : State) (a : Nat) (bs : List Byte) : (s.writeBytes a bs).ctxs = s.ctxs := rfl
@[simp] theorem writeBytes_ctrl (s : State) (a : Nat) (bs : List Byte) : (s.writeBytes a bs).ctrl = s.ctrl := rfl
@[simp] theorem writeBytes_tlb (s : State) (a : Nat) (bs : List Byte) : (s.writeBytes a bs).tlb = s.tlb := rfl
@[simp] theorem writeBytes_scopes (s : State) (a : Nat) (bs : List Byte) : (s.writeBytes a bs).scopes = s.scopes := rfl
@[simp] theorem writeBytes_cancels (s : State) (a : Nat) (bs : List Byte) : (s.writeBytes a bs).cancels = s.cancels := rfl
@[simp] theorem writeBytes_locks (s : State) (a : Nat) (bs : List Byte) : (s.writeBytes a bs).locks = s.locks := rfl
@[simp] theorem writeBytes_kv (s : State) (a : Nat) (bs : List Byte) : (s.writeBytes a bs).kv = s.kv := rfl
@[simp] theorem writeBytes_pfx (s : State) (a : Nat) (bs : List Byte) : (s.writeBytes a bs).pfx = s.pfx := rfl
@[simp] theorem writeBytes_backfill (s : State) (a : Nat) (bs : List Byte) : (s.writeBytes a bs).backfill = s.backfill := rfl
@[simp] theorem writeBytes_frqHeld (s : State) (a : Nat) (bs : List Byte) : (s.writeBytes a bs).frqHeld = s.frqHeld := rfl
@[simp] theorem writeBytes_doomed (s : State) (a : Nat) (bs : List Byte) : (s.writeBytes a bs).doomed = s.doomed := rfl
@[simp] theorem writeBytes_dev (s : State) (a : Nat) (bs : List Byte) : (s.writeBytes a bs).dev = s.dev := rfl
@[simp] theorem writeBytes_tinvCount (s : State) (a : Nat) (bs : List Byte) : (s.writeBytes a bs).tinvCount = s.tinvCount := rfl
@[simp] theorem writeBytes_tinvWait (s : State) (a : Nat) (bs : List Byte) : (s.writeBytes a bs).tinvWait = s.tinvWait := rfl
@[simp] theorem writeBytes_kvWait (s : State) (a : Nat) (bs : List Byte) : (s.writeBytes a bs).kvWait = s.kvWait := rfl
@[simp] theorem writeBytes_lowered (s : State) (a : Nat) (bs : List Byte) : (s.writeBytes a bs).lowered = s.lowered := rfl
@[simp] theorem writeBytes_stageq (s : State) (a : Nat) (bs : List Byte) : (s.writeBytes a bs).stageq = s.stageq := rfl
@[simp] theorem writeBytes_posts (s : State) (a : Nat) (bs : List Byte) : (s.writeBytes a bs).posts = s.posts := rfl
@[simp] theorem writeBytes_swRed (s : State) (a : Nat) (bs : List Byte) : (s.writeBytes a bs).swRed = s.swRed := rfl
@[simp] theorem writeBytes_steal (s : State) (a : Nat) (bs : List Byte) : (s.writeBytes a bs).steal = s.steal := rfl
@[simp] theorem writeBytes_boot (s : State) (a : Nat) (bs : List Byte) : (s.writeBytes a bs).boot = s.boot := rfl
@[simp] theorem writeBytes_power (s : State) (a : Nat) (bs : List Byte) : (s.writeBytes a bs).power = s.power := rfl
@[simp] theorem writeBytes_telem (s : State) (a : Nat) (bs : List Byte) : (s.writeBytes a bs).telem = s.telem := rfl
@[simp] theorem writeBytes_ports (s : State) (a : Nat) (bs : List Byte) : (s.writeBytes a bs).ports = s.ports := rfl
@[simp] theorem writeBytes_service (s : State) (a : Nat) (bs : List Byte) : (s.writeBytes a bs).service = s.service := rfl

@[simp] theorem writeNat_agenda (s : State) (a n v : Nat) : (s.writeNat a n v).agenda = s.agenda := rfl
@[simp] theorem writeNat_now (s : State) (a n v : Nat) : (s.writeNat a n v).now = s.now := rfl
@[simp] theorem writeNat_free (s : State) (a n v : Nat) : (s.writeNat a n v).free = s.free := rfl
@[simp] theorem writeNat_nextId (s : State) (a n v : Nat) : (s.writeNat a n v).nextId = s.nextId := rfl
@[simp] theorem writeNat_cur (s : State) (a n v : Nat) : (s.writeNat a n v).cur = s.cur := rfl
@[simp] theorem writeNat_slot (s : State) (a n v : Nat) : (s.writeNat a n v).slot = s.slot := rfl
@[simp] theorem writeNat_curCtx (s : State) (a n v : Nat) : (s.writeNat a n v).curCtx = s.curCtx := rfl
@[simp] theorem writeNat_module (s : State) (a n v : Nat) : (s.writeNat a n v).module = s.module := rfl
@[simp] theorem writeNat_mem (s : State) (a n v : Nat) : (s.writeNat a n v).mem = cellsSet s.mem a (leBytes n v) := rfl
@[simp] theorem writeNat_poison (s : State) (a n v : Nat) : (s.writeNat a n v).poison = (wordsOf a (leBytes n v).length).foldl (fun p w => markWord p a (leBytes n v).length [] w) s.poison := rfl
@[simp] theorem writeNat_strands (s : State) (a n v : Nat) : (s.writeNat a n v).strands = s.strands := rfl
@[simp] theorem writeNat_cores (s : State) (a n v : Nat) : (s.writeNat a n v).cores = s.cores := rfl
@[simp] theorem writeNat_parts (s : State) (a n v : Nat) : (s.writeNat a n v).parts = s.parts := rfl
@[simp] theorem writeNat_clusters (s : State) (a n v : Nat) : (s.writeNat a n v).clusters = s.clusters := rfl
@[simp] theorem writeNat_braids (s : State) (a n v : Nat) : (s.writeNat a n v).braids = s.braids := rfl
@[simp] theorem writeNat_tasks (s : State) (a n v : Nat) : (s.writeNat a n v).tasks = s.tasks := rfl
@[simp] theorem writeNat_records (s : State) (a n v : Nat) : (s.writeNat a n v).records = s.records := rfl
@[simp] theorem writeNat_ctxs (s : State) (a n v : Nat) : (s.writeNat a n v).ctxs = s.ctxs := rfl
@[simp] theorem writeNat_ctrl (s : State) (a n v : Nat) : (s.writeNat a n v).ctrl = s.ctrl := rfl
@[simp] theorem writeNat_tlb (s : State) (a n v : Nat) : (s.writeNat a n v).tlb = s.tlb := rfl
@[simp] theorem writeNat_scopes (s : State) (a n v : Nat) : (s.writeNat a n v).scopes = s.scopes := rfl
@[simp] theorem writeNat_cancels (s : State) (a n v : Nat) : (s.writeNat a n v).cancels = s.cancels := rfl
@[simp] theorem writeNat_locks (s : State) (a n v : Nat) : (s.writeNat a n v).locks = s.locks := rfl
@[simp] theorem writeNat_kv (s : State) (a n v : Nat) : (s.writeNat a n v).kv = s.kv := rfl
@[simp] theorem writeNat_pfx (s : State) (a n v : Nat) : (s.writeNat a n v).pfx = s.pfx := rfl
@[simp] theorem writeNat_backfill (s : State) (a n v : Nat) : (s.writeNat a n v).backfill = s.backfill := rfl
@[simp] theorem writeNat_frqHeld (s : State) (a n v : Nat) : (s.writeNat a n v).frqHeld = s.frqHeld := rfl
@[simp] theorem writeNat_doomed (s : State) (a n v : Nat) : (s.writeNat a n v).doomed = s.doomed := rfl
@[simp] theorem writeNat_dev (s : State) (a n v : Nat) : (s.writeNat a n v).dev = s.dev := rfl
@[simp] theorem writeNat_tinvCount (s : State) (a n v : Nat) : (s.writeNat a n v).tinvCount = s.tinvCount := rfl
@[simp] theorem writeNat_tinvWait (s : State) (a n v : Nat) : (s.writeNat a n v).tinvWait = s.tinvWait := rfl
@[simp] theorem writeNat_kvWait (s : State) (a n v : Nat) : (s.writeNat a n v).kvWait = s.kvWait := rfl
@[simp] theorem writeNat_lowered (s : State) (a n v : Nat) : (s.writeNat a n v).lowered = s.lowered := rfl
@[simp] theorem writeNat_stageq (s : State) (a n v : Nat) : (s.writeNat a n v).stageq = s.stageq := rfl
@[simp] theorem writeNat_posts (s : State) (a n v : Nat) : (s.writeNat a n v).posts = s.posts := rfl
@[simp] theorem writeNat_swRed (s : State) (a n v : Nat) : (s.writeNat a n v).swRed = s.swRed := rfl
@[simp] theorem writeNat_steal (s : State) (a n v : Nat) : (s.writeNat a n v).steal = s.steal := rfl
@[simp] theorem writeNat_boot (s : State) (a n v : Nat) : (s.writeNat a n v).boot = s.boot := rfl
@[simp] theorem writeNat_power (s : State) (a n v : Nat) : (s.writeNat a n v).power = s.power := rfl
@[simp] theorem writeNat_telem (s : State) (a n v : Nat) : (s.writeNat a n v).telem = s.telem := rfl
@[simp] theorem writeNat_ports (s : State) (a n v : Nat) : (s.writeNat a n v).ports = s.ports := rfl
@[simp] theorem writeNat_service (s : State) (a n v : Nat) : (s.writeNat a n v).service = s.service := rfl

@[simp] theorem zeroFill_agenda (s : State) (lo hi : Nat) : (s.zeroFill lo hi).agenda = s.agenda := rfl
@[simp] theorem zeroFill_now (s : State) (lo hi : Nat) : (s.zeroFill lo hi).now = s.now := rfl
@[simp] theorem zeroFill_free (s : State) (lo hi : Nat) : (s.zeroFill lo hi).free = s.free := rfl
@[simp] theorem zeroFill_nextId (s : State) (lo hi : Nat) : (s.zeroFill lo hi).nextId = s.nextId := rfl
@[simp] theorem zeroFill_cur (s : State) (lo hi : Nat) : (s.zeroFill lo hi).cur = s.cur := rfl
@[simp] theorem zeroFill_slot (s : State) (lo hi : Nat) : (s.zeroFill lo hi).slot = s.slot := rfl
@[simp] theorem zeroFill_curCtx (s : State) (lo hi : Nat) : (s.zeroFill lo hi).curCtx = s.curCtx := rfl
@[simp] theorem zeroFill_module (s : State) (lo hi : Nat) : (s.zeroFill lo hi).module = s.module := rfl
@[simp] theorem zeroFill_mem (s : State) (lo hi : Nat) : (s.zeroFill lo hi).mem = cellsClear s.mem lo hi := rfl
@[simp] theorem zeroFill_poison (s : State) (lo hi : Nat) : (s.zeroFill lo hi).poison = s.poison.filter (fun w => decide (8 * w < lo) || decide (hi ≤ 8 * w)) := rfl
@[simp] theorem zeroFill_strands (s : State) (lo hi : Nat) : (s.zeroFill lo hi).strands = s.strands := rfl
@[simp] theorem zeroFill_cores (s : State) (lo hi : Nat) : (s.zeroFill lo hi).cores = s.cores := rfl
@[simp] theorem zeroFill_parts (s : State) (lo hi : Nat) : (s.zeroFill lo hi).parts = s.parts := rfl
@[simp] theorem zeroFill_clusters (s : State) (lo hi : Nat) : (s.zeroFill lo hi).clusters = s.clusters := rfl
@[simp] theorem zeroFill_braids (s : State) (lo hi : Nat) : (s.zeroFill lo hi).braids = s.braids := rfl
@[simp] theorem zeroFill_tasks (s : State) (lo hi : Nat) : (s.zeroFill lo hi).tasks = s.tasks := rfl
@[simp] theorem zeroFill_records (s : State) (lo hi : Nat) : (s.zeroFill lo hi).records = s.records := rfl
@[simp] theorem zeroFill_ctxs (s : State) (lo hi : Nat) : (s.zeroFill lo hi).ctxs = s.ctxs := rfl
@[simp] theorem zeroFill_ctrl (s : State) (lo hi : Nat) : (s.zeroFill lo hi).ctrl = s.ctrl := rfl
@[simp] theorem zeroFill_tlb (s : State) (lo hi : Nat) : (s.zeroFill lo hi).tlb = s.tlb := rfl
@[simp] theorem zeroFill_scopes (s : State) (lo hi : Nat) : (s.zeroFill lo hi).scopes = s.scopes := rfl
@[simp] theorem zeroFill_cancels (s : State) (lo hi : Nat) : (s.zeroFill lo hi).cancels = s.cancels := rfl
@[simp] theorem zeroFill_locks (s : State) (lo hi : Nat) : (s.zeroFill lo hi).locks = s.locks := rfl
@[simp] theorem zeroFill_kv (s : State) (lo hi : Nat) : (s.zeroFill lo hi).kv = s.kv := rfl
@[simp] theorem zeroFill_pfx (s : State) (lo hi : Nat) : (s.zeroFill lo hi).pfx = s.pfx := rfl
@[simp] theorem zeroFill_backfill (s : State) (lo hi : Nat) : (s.zeroFill lo hi).backfill = s.backfill := rfl
@[simp] theorem zeroFill_frqHeld (s : State) (lo hi : Nat) : (s.zeroFill lo hi).frqHeld = s.frqHeld := rfl
@[simp] theorem zeroFill_doomed (s : State) (lo hi : Nat) : (s.zeroFill lo hi).doomed = s.doomed := rfl
@[simp] theorem zeroFill_dev (s : State) (lo hi : Nat) : (s.zeroFill lo hi).dev = s.dev := rfl
@[simp] theorem zeroFill_tinvCount (s : State) (lo hi : Nat) : (s.zeroFill lo hi).tinvCount = s.tinvCount := rfl
@[simp] theorem zeroFill_tinvWait (s : State) (lo hi : Nat) : (s.zeroFill lo hi).tinvWait = s.tinvWait := rfl
@[simp] theorem zeroFill_kvWait (s : State) (lo hi : Nat) : (s.zeroFill lo hi).kvWait = s.kvWait := rfl
@[simp] theorem zeroFill_lowered (s : State) (lo hi : Nat) : (s.zeroFill lo hi).lowered = s.lowered := rfl
@[simp] theorem zeroFill_stageq (s : State) (lo hi : Nat) : (s.zeroFill lo hi).stageq = s.stageq := rfl
@[simp] theorem zeroFill_posts (s : State) (lo hi : Nat) : (s.zeroFill lo hi).posts = s.posts := rfl
@[simp] theorem zeroFill_swRed (s : State) (lo hi : Nat) : (s.zeroFill lo hi).swRed = s.swRed := rfl
@[simp] theorem zeroFill_steal (s : State) (lo hi : Nat) : (s.zeroFill lo hi).steal = s.steal := rfl
@[simp] theorem zeroFill_boot (s : State) (lo hi : Nat) : (s.zeroFill lo hi).boot = s.boot := rfl
@[simp] theorem zeroFill_power (s : State) (lo hi : Nat) : (s.zeroFill lo hi).power = s.power := rfl
@[simp] theorem zeroFill_telem (s : State) (lo hi : Nat) : (s.zeroFill lo hi).telem = s.telem := rfl
@[simp] theorem zeroFill_ports (s : State) (lo hi : Nat) : (s.zeroFill lo hi).ports = s.ports := rfl
@[simp] theorem zeroFill_service (s : State) (lo hi : Nat) : (s.zeroFill lo hi).service = s.service := rfl

@[simp] theorem markPoison_agenda (s : State) (w : Nat) : (s.markPoison w).agenda = s.agenda := rfl
@[simp] theorem markPoison_now (s : State) (w : Nat) : (s.markPoison w).now = s.now := rfl
@[simp] theorem markPoison_free (s : State) (w : Nat) : (s.markPoison w).free = s.free := rfl
@[simp] theorem markPoison_nextId (s : State) (w : Nat) : (s.markPoison w).nextId = s.nextId := rfl
@[simp] theorem markPoison_cur (s : State) (w : Nat) : (s.markPoison w).cur = s.cur := rfl
@[simp] theorem markPoison_slot (s : State) (w : Nat) : (s.markPoison w).slot = s.slot := rfl
@[simp] theorem markPoison_curCtx (s : State) (w : Nat) : (s.markPoison w).curCtx = s.curCtx := rfl
@[simp] theorem markPoison_module (s : State) (w : Nat) : (s.markPoison w).module = s.module := rfl
@[simp] theorem markPoison_mem (s : State) (w : Nat) : (s.markPoison w).mem = s.mem := rfl
@[simp] theorem markPoison_poison (s : State) (w : Nat) : (s.markPoison w).poison = insertOnce w s.poison := rfl
@[simp] theorem markPoison_strands (s : State) (w : Nat) : (s.markPoison w).strands = s.strands := rfl
@[simp] theorem markPoison_cores (s : State) (w : Nat) : (s.markPoison w).cores = s.cores := rfl
@[simp] theorem markPoison_parts (s : State) (w : Nat) : (s.markPoison w).parts = s.parts := rfl
@[simp] theorem markPoison_clusters (s : State) (w : Nat) : (s.markPoison w).clusters = s.clusters := rfl
@[simp] theorem markPoison_braids (s : State) (w : Nat) : (s.markPoison w).braids = s.braids := rfl
@[simp] theorem markPoison_tasks (s : State) (w : Nat) : (s.markPoison w).tasks = s.tasks := rfl
@[simp] theorem markPoison_records (s : State) (w : Nat) : (s.markPoison w).records = s.records := rfl
@[simp] theorem markPoison_ctxs (s : State) (w : Nat) : (s.markPoison w).ctxs = s.ctxs := rfl
@[simp] theorem markPoison_ctrl (s : State) (w : Nat) : (s.markPoison w).ctrl = s.ctrl := rfl
@[simp] theorem markPoison_tlb (s : State) (w : Nat) : (s.markPoison w).tlb = s.tlb := rfl
@[simp] theorem markPoison_scopes (s : State) (w : Nat) : (s.markPoison w).scopes = s.scopes := rfl
@[simp] theorem markPoison_cancels (s : State) (w : Nat) : (s.markPoison w).cancels = s.cancels := rfl
@[simp] theorem markPoison_locks (s : State) (w : Nat) : (s.markPoison w).locks = s.locks := rfl
@[simp] theorem markPoison_kv (s : State) (w : Nat) : (s.markPoison w).kv = s.kv := rfl
@[simp] theorem markPoison_pfx (s : State) (w : Nat) : (s.markPoison w).pfx = s.pfx := rfl
@[simp] theorem markPoison_backfill (s : State) (w : Nat) : (s.markPoison w).backfill = s.backfill := rfl
@[simp] theorem markPoison_frqHeld (s : State) (w : Nat) : (s.markPoison w).frqHeld = s.frqHeld := rfl
@[simp] theorem markPoison_doomed (s : State) (w : Nat) : (s.markPoison w).doomed = s.doomed := rfl
@[simp] theorem markPoison_dev (s : State) (w : Nat) : (s.markPoison w).dev = s.dev := rfl
@[simp] theorem markPoison_tinvCount (s : State) (w : Nat) : (s.markPoison w).tinvCount = s.tinvCount := rfl
@[simp] theorem markPoison_tinvWait (s : State) (w : Nat) : (s.markPoison w).tinvWait = s.tinvWait := rfl
@[simp] theorem markPoison_kvWait (s : State) (w : Nat) : (s.markPoison w).kvWait = s.kvWait := rfl
@[simp] theorem markPoison_lowered (s : State) (w : Nat) : (s.markPoison w).lowered = s.lowered := rfl
@[simp] theorem markPoison_stageq (s : State) (w : Nat) : (s.markPoison w).stageq = s.stageq := rfl
@[simp] theorem markPoison_posts (s : State) (w : Nat) : (s.markPoison w).posts = s.posts := rfl
@[simp] theorem markPoison_swRed (s : State) (w : Nat) : (s.markPoison w).swRed = s.swRed := rfl
@[simp] theorem markPoison_steal (s : State) (w : Nat) : (s.markPoison w).steal = s.steal := rfl
@[simp] theorem markPoison_boot (s : State) (w : Nat) : (s.markPoison w).boot = s.boot := rfl
@[simp] theorem markPoison_power (s : State) (w : Nat) : (s.markPoison w).power = s.power := rfl
@[simp] theorem markPoison_telem (s : State) (w : Nat) : (s.markPoison w).telem = s.telem := rfl
@[simp] theorem markPoison_ports (s : State) (w : Nat) : (s.markPoison w).ports = s.ports := rfl
@[simp] theorem markPoison_service (s : State) (w : Nat) : (s.markPoison w).service = s.service := rfl

@[simp] theorem takeFree_agenda (s : State) : s.takeFree.2.agenda = s.agenda := rfl
@[simp] theorem takeFree_now (s : State) : s.takeFree.2.now = s.now := rfl
@[simp] theorem takeFree_free (s : State) : s.takeFree.2.free = s.free + 1 := rfl
@[simp] theorem takeFree_nextId (s : State) : s.takeFree.2.nextId = s.nextId := rfl
@[simp] theorem takeFree_cur (s : State) : s.takeFree.2.cur = s.cur := rfl
@[simp] theorem takeFree_slot (s : State) : s.takeFree.2.slot = s.slot := rfl
@[simp] theorem takeFree_curCtx (s : State) : s.takeFree.2.curCtx = s.curCtx := rfl
@[simp] theorem takeFree_module (s : State) : s.takeFree.2.module = s.module := rfl
@[simp] theorem takeFree_mem (s : State) : s.takeFree.2.mem = s.mem := rfl
@[simp] theorem takeFree_poison (s : State) : s.takeFree.2.poison = s.poison := rfl
@[simp] theorem takeFree_strands (s : State) : s.takeFree.2.strands = s.strands := rfl
@[simp] theorem takeFree_cores (s : State) : s.takeFree.2.cores = s.cores := rfl
@[simp] theorem takeFree_parts (s : State) : s.takeFree.2.parts = s.parts := rfl
@[simp] theorem takeFree_clusters (s : State) : s.takeFree.2.clusters = s.clusters := rfl
@[simp] theorem takeFree_braids (s : State) : s.takeFree.2.braids = s.braids := rfl
@[simp] theorem takeFree_tasks (s : State) : s.takeFree.2.tasks = s.tasks := rfl
@[simp] theorem takeFree_records (s : State) : s.takeFree.2.records = s.records := rfl
@[simp] theorem takeFree_ctxs (s : State) : s.takeFree.2.ctxs = s.ctxs := rfl
@[simp] theorem takeFree_ctrl (s : State) : s.takeFree.2.ctrl = s.ctrl := rfl
@[simp] theorem takeFree_tlb (s : State) : s.takeFree.2.tlb = s.tlb := rfl
@[simp] theorem takeFree_scopes (s : State) : s.takeFree.2.scopes = s.scopes := rfl
@[simp] theorem takeFree_cancels (s : State) : s.takeFree.2.cancels = s.cancels := rfl
@[simp] theorem takeFree_locks (s : State) : s.takeFree.2.locks = s.locks := rfl
@[simp] theorem takeFree_kv (s : State) : s.takeFree.2.kv = s.kv := rfl
@[simp] theorem takeFree_pfx (s : State) : s.takeFree.2.pfx = s.pfx := rfl
@[simp] theorem takeFree_backfill (s : State) : s.takeFree.2.backfill = s.backfill := rfl
@[simp] theorem takeFree_frqHeld (s : State) : s.takeFree.2.frqHeld = s.frqHeld := rfl
@[simp] theorem takeFree_doomed (s : State) : s.takeFree.2.doomed = s.doomed := rfl
@[simp] theorem takeFree_dev (s : State) : s.takeFree.2.dev = s.dev := rfl
@[simp] theorem takeFree_tinvCount (s : State) : s.takeFree.2.tinvCount = s.tinvCount := rfl
@[simp] theorem takeFree_tinvWait (s : State) : s.takeFree.2.tinvWait = s.tinvWait := rfl
@[simp] theorem takeFree_kvWait (s : State) : s.takeFree.2.kvWait = s.kvWait := rfl
@[simp] theorem takeFree_lowered (s : State) : s.takeFree.2.lowered = s.lowered := rfl
@[simp] theorem takeFree_stageq (s : State) : s.takeFree.2.stageq = s.stageq := rfl
@[simp] theorem takeFree_posts (s : State) : s.takeFree.2.posts = s.posts := rfl
@[simp] theorem takeFree_swRed (s : State) : s.takeFree.2.swRed = s.swRed := rfl
@[simp] theorem takeFree_steal (s : State) : s.takeFree.2.steal = s.steal := rfl
@[simp] theorem takeFree_boot (s : State) : s.takeFree.2.boot = s.boot := rfl
@[simp] theorem takeFree_power (s : State) : s.takeFree.2.power = s.power := rfl
@[simp] theorem takeFree_telem (s : State) : s.takeFree.2.telem = s.telem := rfl
@[simp] theorem takeFree_ports (s : State) : s.takeFree.2.ports = s.ports := rfl
@[simp] theorem takeFree_service (s : State) : s.takeFree.2.service = s.service := rfl

@[simp] theorem newId_agenda (s : State) : s.newId.2.agenda = s.agenda := rfl
@[simp] theorem newId_now (s : State) : s.newId.2.now = s.now := rfl
@[simp] theorem newId_free (s : State) : s.newId.2.free = s.free := rfl
@[simp] theorem newId_nextId (s : State) : s.newId.2.nextId = s.nextId + 1 := rfl
@[simp] theorem newId_cur (s : State) : s.newId.2.cur = s.cur := rfl
@[simp] theorem newId_slot (s : State) : s.newId.2.slot = s.slot := rfl
@[simp] theorem newId_curCtx (s : State) : s.newId.2.curCtx = s.curCtx := rfl
@[simp] theorem newId_module (s : State) : s.newId.2.module = s.module := rfl
@[simp] theorem newId_mem (s : State) : s.newId.2.mem = s.mem := rfl
@[simp] theorem newId_poison (s : State) : s.newId.2.poison = s.poison := rfl
@[simp] theorem newId_strands (s : State) : s.newId.2.strands = s.strands := rfl
@[simp] theorem newId_cores (s : State) : s.newId.2.cores = s.cores := rfl
@[simp] theorem newId_parts (s : State) : s.newId.2.parts = s.parts := rfl
@[simp] theorem newId_clusters (s : State) : s.newId.2.clusters = s.clusters := rfl
@[simp] theorem newId_braids (s : State) : s.newId.2.braids = s.braids := rfl
@[simp] theorem newId_tasks (s : State) : s.newId.2.tasks = s.tasks := rfl
@[simp] theorem newId_records (s : State) : s.newId.2.records = s.records := rfl
@[simp] theorem newId_ctxs (s : State) : s.newId.2.ctxs = s.ctxs := rfl
@[simp] theorem newId_ctrl (s : State) : s.newId.2.ctrl = s.ctrl := rfl
@[simp] theorem newId_tlb (s : State) : s.newId.2.tlb = s.tlb := rfl
@[simp] theorem newId_scopes (s : State) : s.newId.2.scopes = s.scopes := rfl
@[simp] theorem newId_cancels (s : State) : s.newId.2.cancels = s.cancels := rfl
@[simp] theorem newId_locks (s : State) : s.newId.2.locks = s.locks := rfl
@[simp] theorem newId_kv (s : State) : s.newId.2.kv = s.kv := rfl
@[simp] theorem newId_pfx (s : State) : s.newId.2.pfx = s.pfx := rfl
@[simp] theorem newId_backfill (s : State) : s.newId.2.backfill = s.backfill := rfl
@[simp] theorem newId_frqHeld (s : State) : s.newId.2.frqHeld = s.frqHeld := rfl
@[simp] theorem newId_doomed (s : State) : s.newId.2.doomed = s.doomed := rfl
@[simp] theorem newId_dev (s : State) : s.newId.2.dev = s.dev := rfl
@[simp] theorem newId_tinvCount (s : State) : s.newId.2.tinvCount = s.tinvCount := rfl
@[simp] theorem newId_tinvWait (s : State) : s.newId.2.tinvWait = s.tinvWait := rfl
@[simp] theorem newId_kvWait (s : State) : s.newId.2.kvWait = s.kvWait := rfl
@[simp] theorem newId_lowered (s : State) : s.newId.2.lowered = s.lowered := rfl
@[simp] theorem newId_stageq (s : State) : s.newId.2.stageq = s.stageq := rfl
@[simp] theorem newId_posts (s : State) : s.newId.2.posts = s.posts := rfl
@[simp] theorem newId_swRed (s : State) : s.newId.2.swRed = s.swRed := rfl
@[simp] theorem newId_steal (s : State) : s.newId.2.steal = s.steal := rfl
@[simp] theorem newId_boot (s : State) : s.newId.2.boot = s.boot := rfl
@[simp] theorem newId_power (s : State) : s.newId.2.power = s.power := rfl
@[simp] theorem newId_telem (s : State) : s.newId.2.telem = s.telem := rfl
@[simp] theorem newId_ports (s : State) : s.newId.2.ports = s.ports := rfl
@[simp] theorem newId_service (s : State) : s.newId.2.service = s.service := rfl

@[simp] theorem updTask_agenda (s : State) (id : Nat) (f : Task → Task) : (s.updTask id f).agenda = s.agenda := by unfold updTask; split <;> rfl
@[simp] theorem updTask_now (s : State) (id : Nat) (f : Task → Task) : (s.updTask id f).now = s.now := by unfold updTask; split <;> rfl
@[simp] theorem updTask_free (s : State) (id : Nat) (f : Task → Task) : (s.updTask id f).free = s.free := by unfold updTask; split <;> rfl
@[simp] theorem updTask_nextId (s : State) (id : Nat) (f : Task → Task) : (s.updTask id f).nextId = s.nextId := by unfold updTask; split <;> rfl
@[simp] theorem updTask_cur (s : State) (id : Nat) (f : Task → Task) : (s.updTask id f).cur = s.cur := by unfold updTask; split <;> rfl
@[simp] theorem updTask_slot (s : State) (id : Nat) (f : Task → Task) : (s.updTask id f).slot = s.slot := by unfold updTask; split <;> rfl
@[simp] theorem updTask_curCtx (s : State) (id : Nat) (f : Task → Task) : (s.updTask id f).curCtx = s.curCtx := by unfold updTask; split <;> rfl
@[simp] theorem updTask_module (s : State) (id : Nat) (f : Task → Task) : (s.updTask id f).module = s.module := by unfold updTask; split <;> rfl
@[simp] theorem updTask_mem (s : State) (id : Nat) (f : Task → Task) : (s.updTask id f).mem = s.mem := by unfold updTask; split <;> rfl
@[simp] theorem updTask_poison (s : State) (id : Nat) (f : Task → Task) : (s.updTask id f).poison = s.poison := by unfold updTask; split <;> rfl
@[simp] theorem updTask_strands (s : State) (id : Nat) (f : Task → Task) : (s.updTask id f).strands = s.strands := by unfold updTask; split <;> rfl
@[simp] theorem updTask_cores (s : State) (id : Nat) (f : Task → Task) : (s.updTask id f).cores = s.cores := by unfold updTask; split <;> rfl
@[simp] theorem updTask_parts (s : State) (id : Nat) (f : Task → Task) : (s.updTask id f).parts = s.parts := by unfold updTask; split <;> rfl
@[simp] theorem updTask_clusters (s : State) (id : Nat) (f : Task → Task) : (s.updTask id f).clusters = s.clusters := by unfold updTask; split <;> rfl
@[simp] theorem updTask_braids (s : State) (id : Nat) (f : Task → Task) : (s.updTask id f).braids = s.braids := by unfold updTask; split <;> rfl
@[simp] theorem updTask_records (s : State) (id : Nat) (f : Task → Task) : (s.updTask id f).records = s.records := by unfold updTask; split <;> rfl
@[simp] theorem updTask_ctxs (s : State) (id : Nat) (f : Task → Task) : (s.updTask id f).ctxs = s.ctxs := by unfold updTask; split <;> rfl
@[simp] theorem updTask_ctrl (s : State) (id : Nat) (f : Task → Task) : (s.updTask id f).ctrl = s.ctrl := by unfold updTask; split <;> rfl
@[simp] theorem updTask_tlb (s : State) (id : Nat) (f : Task → Task) : (s.updTask id f).tlb = s.tlb := by unfold updTask; split <;> rfl
@[simp] theorem updTask_scopes (s : State) (id : Nat) (f : Task → Task) : (s.updTask id f).scopes = s.scopes := by unfold updTask; split <;> rfl
@[simp] theorem updTask_cancels (s : State) (id : Nat) (f : Task → Task) : (s.updTask id f).cancels = s.cancels := by unfold updTask; split <;> rfl
@[simp] theorem updTask_locks (s : State) (id : Nat) (f : Task → Task) : (s.updTask id f).locks = s.locks := by unfold updTask; split <;> rfl
@[simp] theorem updTask_kv (s : State) (id : Nat) (f : Task → Task) : (s.updTask id f).kv = s.kv := by unfold updTask; split <;> rfl
@[simp] theorem updTask_pfx (s : State) (id : Nat) (f : Task → Task) : (s.updTask id f).pfx = s.pfx := by unfold updTask; split <;> rfl
@[simp] theorem updTask_backfill (s : State) (id : Nat) (f : Task → Task) : (s.updTask id f).backfill = s.backfill := by unfold updTask; split <;> rfl
@[simp] theorem updTask_frqHeld (s : State) (id : Nat) (f : Task → Task) : (s.updTask id f).frqHeld = s.frqHeld := by unfold updTask; split <;> rfl
@[simp] theorem updTask_doomed (s : State) (id : Nat) (f : Task → Task) : (s.updTask id f).doomed = s.doomed := by unfold updTask; split <;> rfl
@[simp] theorem updTask_dev (s : State) (id : Nat) (f : Task → Task) : (s.updTask id f).dev = s.dev := by unfold updTask; split <;> rfl
@[simp] theorem updTask_tinvCount (s : State) (id : Nat) (f : Task → Task) : (s.updTask id f).tinvCount = s.tinvCount := by unfold updTask; split <;> rfl
@[simp] theorem updTask_tinvWait (s : State) (id : Nat) (f : Task → Task) : (s.updTask id f).tinvWait = s.tinvWait := by unfold updTask; split <;> rfl
@[simp] theorem updTask_kvWait (s : State) (id : Nat) (f : Task → Task) : (s.updTask id f).kvWait = s.kvWait := by unfold updTask; split <;> rfl
@[simp] theorem updTask_lowered (s : State) (id : Nat) (f : Task → Task) : (s.updTask id f).lowered = s.lowered := by unfold updTask; split <;> rfl
@[simp] theorem updTask_stageq (s : State) (id : Nat) (f : Task → Task) : (s.updTask id f).stageq = s.stageq := by unfold updTask; split <;> rfl
@[simp] theorem updTask_posts (s : State) (id : Nat) (f : Task → Task) : (s.updTask id f).posts = s.posts := by unfold updTask; split <;> rfl
@[simp] theorem updTask_swRed (s : State) (id : Nat) (f : Task → Task) : (s.updTask id f).swRed = s.swRed := by unfold updTask; split <;> rfl
@[simp] theorem updTask_steal (s : State) (id : Nat) (f : Task → Task) : (s.updTask id f).steal = s.steal := by unfold updTask; split <;> rfl
@[simp] theorem updTask_boot (s : State) (id : Nat) (f : Task → Task) : (s.updTask id f).boot = s.boot := by unfold updTask; split <;> rfl
@[simp] theorem updTask_power (s : State) (id : Nat) (f : Task → Task) : (s.updTask id f).power = s.power := by unfold updTask; split <;> rfl
@[simp] theorem updTask_telem (s : State) (id : Nat) (f : Task → Task) : (s.updTask id f).telem = s.telem := by unfold updTask; split <;> rfl
@[simp] theorem updTask_ports (s : State) (id : Nat) (f : Task → Task) : (s.updTask id f).ports = s.ports := by unfold updTask; split <;> rfl
@[simp] theorem updTask_service (s : State) (id : Nat) (f : Task → Task) : (s.updTask id f).service = s.service := by unfold updTask; split <;> rfl

end State

namespace Strand

@[simp] theorem setReg_task (t : Strand) (r : Nat) (v : Word) (p : Bool) : (t.setReg r v p).task = t.task := by unfold setReg; split <;> rfl
@[simp] theorem setReg_p (t : Strand) (r : Nat) (v : Word) (p : Bool) : (t.setReg r v p).p = t.p := by unfold setReg; split <;> rfl
@[simp] theorem setReg_q (t : Strand) (r : Nat) (v : Word) (p : Bool) : (t.setReg r v p).q = t.q := by unfold setReg; split <;> rfl
@[simp] theorem setReg_cr (t : Strand) (r : Nat) (v : Word) (p : Bool) : (t.setReg r v p).cr = t.cr := by unfold setReg; split <;> rfl
@[simp] theorem setReg_scopeId (t : Strand) (r : Nat) (v : Word) (p : Bool) : (t.setReg r v p).scopeId = t.scopeId := by unfold setReg; split <;> rfl
@[simp] theorem setReg_trapRec (t : Strand) (r : Nat) (v : Word) (p : Bool) : (t.setReg r v p).trapRec = t.trapRec := by unfold setReg; split <;> rfl
@[simp] theorem setReg_inherit (t : Strand) (r : Nat) (v : Word) (p : Bool) : (t.setReg r v p).inherit = t.inherit := by unfold setReg; split <;> rfl
@[simp] theorem setReg_fmtr (t : Strand) (r : Nat) (v : Word) (p : Bool) : (t.setReg r v p).fmtr = t.fmtr := by unfold setReg; split <;> rfl
@[simp] theorem setReg_vcc (t : Strand) (r : Nat) (v : Word) (p : Bool) : (t.setReg r v p).vcc = t.vcc := by unfold setReg; split <;> rfl
@[simp] theorem setReg_mpc (t : Strand) (r : Nat) (v : Word) (p : Bool) : (t.setReg r v p).mpc = t.mpc := by unfold setReg; split <;> rfl
@[simp] theorem setReg_depth (t : Strand) (r : Nat) (v : Word) (p : Bool) : (t.setReg r v p).depth = t.depth := by unfold setReg; split <;> rfl
@[simp] theorem setReg_rstack (t : Strand) (r : Nat) (v : Word) (p : Bool) : (t.setReg r v p).rstack = t.rstack := by unfold setReg; split <;> rfl
@[simp] theorem setReg_nest (t : Strand) (r : Nat) (v : Word) (p : Bool) : (t.setReg r v p).nest = t.nest := by unfold setReg; split <;> rfl
@[simp] theorem setReg_cnest (t : Strand) (r : Nat) (v : Word) (p : Bool) : (t.setReg r v p).cnest = t.cnest := by unfold setReg; split <;> rfl
@[simp] theorem setReg_latches (t : Strand) (r : Nat) (v : Word) (p : Bool) : (t.setReg r v p).latches = t.latches := by unfold setReg; split <;> rfl
@[simp] theorem setReg_lb (t : Strand) (r : Nat) (v : Word) (p : Bool) : (t.setReg r v p).lb = t.lb := by unfold setReg; split <;> rfl
@[simp] theorem setReg_redirect (t : Strand) (r : Nat) (v : Word) (p : Bool) : (t.setReg r v p).redirect = t.redirect := by unfold setReg; split <;> rfl
@[simp] theorem setReg_replay (t : Strand) (r : Nat) (v : Word) (p : Bool) : (t.setReg r v p).replay = t.replay := by unfold setReg; split <;> rfl
@[simp] theorem setReg_trap (t : Strand) (r : Nat) (v : Word) (p : Bool) : (t.setReg r v p).trap = t.trap := by unfold setReg; split <;> rfl
@[simp] theorem setReg_handler (t : Strand) (r : Nat) (v : Word) (p : Bool) : (t.setReg r v p).handler = t.handler := by unfold setReg; split <;> rfl
@[simp] theorem setReg_grp (t : Strand) (r : Nat) (v : Word) (p : Bool) : (t.setReg r v p).grp = t.grp := by unfold setReg; split <;> rfl
@[simp] theorem setReg_wait (t : Strand) (r : Nat) (v : Word) (p : Bool) : (t.setReg r v p).wait = t.wait := by unfold setReg; split <;> rfl
@[simp] theorem setReg_pass (t : Strand) (r : Nat) (v : Word) (p : Bool) : (t.setReg r v p).pass = t.pass := by unfold setReg; split <;> rfl
@[simp] theorem setReg_wq (t : Strand) (r : Nat) (v : Word) (p : Bool) : (t.setReg r v p).wq = t.wq := by unfold setReg; split <;> rfl
@[simp] theorem setReg_fails (t : Strand) (r : Nat) (v : Word) (p : Bool) : (t.setReg r v p).fails = t.fails := by unfold setReg; split <;> rfl
@[simp] theorem setReg_xlat (t : Strand) (r : Nat) (v : Word) (p : Bool) : (t.setReg r v p).xlat = t.xlat := by unfold setReg; split <;> rfl
@[simp] theorem setReg_draws (t : Strand) (r : Nat) (v : Word) (p : Bool) : (t.setReg r v p).draws = t.draws := by unfold setReg; split <;> rfl
@[simp] theorem setReg_opened (t : Strand) (r : Nat) (v : Word) (p : Bool) : (t.setReg r v p).opened = t.opened := by unfold setReg; split <;> rfl
@[simp] theorem setReg_opens (t : Strand) (r : Nat) (v : Word) (p : Bool) : (t.setReg r v p).opens = t.opens := by unfold setReg; split <;> rfl
@[simp] theorem setReg_bundle (t : Strand) (r : Nat) (v : Word) (p : Bool) : (t.setReg r v p).bundle = t.bundle := by unfold setReg; split <;> rfl
@[simp] theorem setReg_base (t : Strand) (r : Nat) (v : Word) (p : Bool) : (t.setReg r v p).base = t.base := by unfold setReg; split <;> rfl
@[simp] theorem setReg_timer (t : Strand) (r : Nat) (v : Word) (p : Bool) : (t.setReg r v p).timer = t.timer := by unfold setReg; split <;> rfl
@[simp] theorem setReg_ending (t : Strand) (r : Nat) (v : Word) (p : Bool) : (t.setReg r v p).ending = t.ending := by unfold setReg; split <;> rfl
@[simp] theorem setReg_returning (t : Strand) (r : Nat) (v : Word) (p : Bool) : (t.setReg r v p).returning = t.returning := by unfold setReg; split <;> rfl
@[simp] theorem setReg_nestUpd (t : Strand) (r : Nat) (v : Word) (p : Bool) : (t.setReg r v p).nestUpd = t.nestUpd := by unfold setReg; split <;> rfl
@[simp] theorem setReg_member (t : Strand) (r : Nat) (v : Word) (p : Bool) : (t.setReg r v p).member = t.member := by unfold setReg; split <;> rfl
@[simp] theorem setReg_braid (t : Strand) (r : Nat) (v : Word) (p : Bool) : (t.setReg r v p).braid = t.braid := by unfold setReg; split <;> rfl
@[simp] theorem setReg_amBase (t : Strand) (r : Nat) (v : Word) (p : Bool) : (t.setReg r v p).amBase = t.amBase := by unfold setReg; split <;> rfl
@[simp] theorem setReg_amRows (t : Strand) (r : Nat) (v : Word) (p : Bool) : (t.setReg r v p).amRows = t.amRows := by unfold setReg; split <;> rfl

@[simp] theorem setPred_task (t : Strand) (n : Nat) (v : Bool) : (t.setPred n v).task = t.task := by unfold setPred; split <;> rfl
@[simp] theorem setPred_g (t : Strand) (n : Nat) (v : Bool) : (t.setPred n v).g = t.g := by unfold setPred; split <;> rfl
@[simp] theorem setPred_q (t : Strand) (n : Nat) (v : Bool) : (t.setPred n v).q = t.q := by unfold setPred; split <;> rfl
@[simp] theorem setPred_cr (t : Strand) (n : Nat) (v : Bool) : (t.setPred n v).cr = t.cr := by unfold setPred; split <;> rfl
@[simp] theorem setPred_scopeId (t : Strand) (n : Nat) (v : Bool) : (t.setPred n v).scopeId = t.scopeId := by unfold setPred; split <;> rfl
@[simp] theorem setPred_trapRec (t : Strand) (n : Nat) (v : Bool) : (t.setPred n v).trapRec = t.trapRec := by unfold setPred; split <;> rfl
@[simp] theorem setPred_inherit (t : Strand) (n : Nat) (v : Bool) : (t.setPred n v).inherit = t.inherit := by unfold setPred; split <;> rfl
@[simp] theorem setPred_fmtr (t : Strand) (n : Nat) (v : Bool) : (t.setPred n v).fmtr = t.fmtr := by unfold setPred; split <;> rfl
@[simp] theorem setPred_vcc (t : Strand) (n : Nat) (v : Bool) : (t.setPred n v).vcc = t.vcc := by unfold setPred; split <;> rfl
@[simp] theorem setPred_mpc (t : Strand) (n : Nat) (v : Bool) : (t.setPred n v).mpc = t.mpc := by unfold setPred; split <;> rfl
@[simp] theorem setPred_depth (t : Strand) (n : Nat) (v : Bool) : (t.setPred n v).depth = t.depth := by unfold setPred; split <;> rfl
@[simp] theorem setPred_rstack (t : Strand) (n : Nat) (v : Bool) : (t.setPred n v).rstack = t.rstack := by unfold setPred; split <;> rfl
@[simp] theorem setPred_nest (t : Strand) (n : Nat) (v : Bool) : (t.setPred n v).nest = t.nest := by unfold setPred; split <;> rfl
@[simp] theorem setPred_cnest (t : Strand) (n : Nat) (v : Bool) : (t.setPred n v).cnest = t.cnest := by unfold setPred; split <;> rfl
@[simp] theorem setPred_latches (t : Strand) (n : Nat) (v : Bool) : (t.setPred n v).latches = t.latches := by unfold setPred; split <;> rfl
@[simp] theorem setPred_lb (t : Strand) (n : Nat) (v : Bool) : (t.setPred n v).lb = t.lb := by unfold setPred; split <;> rfl
@[simp] theorem setPred_redirect (t : Strand) (n : Nat) (v : Bool) : (t.setPred n v).redirect = t.redirect := by unfold setPred; split <;> rfl
@[simp] theorem setPred_replay (t : Strand) (n : Nat) (v : Bool) : (t.setPred n v).replay = t.replay := by unfold setPred; split <;> rfl
@[simp] theorem setPred_trap (t : Strand) (n : Nat) (v : Bool) : (t.setPred n v).trap = t.trap := by unfold setPred; split <;> rfl
@[simp] theorem setPred_handler (t : Strand) (n : Nat) (v : Bool) : (t.setPred n v).handler = t.handler := by unfold setPred; split <;> rfl
@[simp] theorem setPred_grp (t : Strand) (n : Nat) (v : Bool) : (t.setPred n v).grp = t.grp := by unfold setPred; split <;> rfl
@[simp] theorem setPred_wait (t : Strand) (n : Nat) (v : Bool) : (t.setPred n v).wait = t.wait := by unfold setPred; split <;> rfl
@[simp] theorem setPred_pass (t : Strand) (n : Nat) (v : Bool) : (t.setPred n v).pass = t.pass := by unfold setPred; split <;> rfl
@[simp] theorem setPred_wq (t : Strand) (n : Nat) (v : Bool) : (t.setPred n v).wq = t.wq := by unfold setPred; split <;> rfl
@[simp] theorem setPred_fails (t : Strand) (n : Nat) (v : Bool) : (t.setPred n v).fails = t.fails := by unfold setPred; split <;> rfl
@[simp] theorem setPred_xlat (t : Strand) (n : Nat) (v : Bool) : (t.setPred n v).xlat = t.xlat := by unfold setPred; split <;> rfl
@[simp] theorem setPred_draws (t : Strand) (n : Nat) (v : Bool) : (t.setPred n v).draws = t.draws := by unfold setPred; split <;> rfl
@[simp] theorem setPred_opened (t : Strand) (n : Nat) (v : Bool) : (t.setPred n v).opened = t.opened := by unfold setPred; split <;> rfl
@[simp] theorem setPred_opens (t : Strand) (n : Nat) (v : Bool) : (t.setPred n v).opens = t.opens := by unfold setPred; split <;> rfl
@[simp] theorem setPred_bundle (t : Strand) (n : Nat) (v : Bool) : (t.setPred n v).bundle = t.bundle := by unfold setPred; split <;> rfl
@[simp] theorem setPred_base (t : Strand) (n : Nat) (v : Bool) : (t.setPred n v).base = t.base := by unfold setPred; split <;> rfl
@[simp] theorem setPred_timer (t : Strand) (n : Nat) (v : Bool) : (t.setPred n v).timer = t.timer := by unfold setPred; split <;> rfl
@[simp] theorem setPred_ending (t : Strand) (n : Nat) (v : Bool) : (t.setPred n v).ending = t.ending := by unfold setPred; split <;> rfl
@[simp] theorem setPred_returning (t : Strand) (n : Nat) (v : Bool) : (t.setPred n v).returning = t.returning := by unfold setPred; split <;> rfl
@[simp] theorem setPred_nestUpd (t : Strand) (n : Nat) (v : Bool) : (t.setPred n v).nestUpd = t.nestUpd := by unfold setPred; split <;> rfl
@[simp] theorem setPred_member (t : Strand) (n : Nat) (v : Bool) : (t.setPred n v).member = t.member := by unfold setPred; split <;> rfl
@[simp] theorem setPred_braid (t : Strand) (n : Nat) (v : Bool) : (t.setPred n v).braid = t.braid := by unfold setPred; split <;> rfl
@[simp] theorem setPred_amBase (t : Strand) (n : Nat) (v : Bool) : (t.setPred n v).amBase = t.amBase := by unfold setPred; split <;> rfl
@[simp] theorem setPred_amRows (t : Strand) (n : Nat) (v : Bool) : (t.setPred n v).amRows = t.amRows := by unfold setPred; split <;> rfl

@[simp] theorem setTok_task (t : Strand) (n : Nat) (x : Tok) : (t.setTok n x).task = t.task := by unfold setTok; split <;> rfl
@[simp] theorem setTok_g (t : Strand) (n : Nat) (x : Tok) : (t.setTok n x).g = t.g := by unfold setTok; split <;> rfl
@[simp] theorem setTok_p (t : Strand) (n : Nat) (x : Tok) : (t.setTok n x).p = t.p := by unfold setTok; split <;> rfl
@[simp] theorem setTok_cr (t : Strand) (n : Nat) (x : Tok) : (t.setTok n x).cr = t.cr := by unfold setTok; split <;> rfl
@[simp] theorem setTok_scopeId (t : Strand) (n : Nat) (x : Tok) : (t.setTok n x).scopeId = t.scopeId := by unfold setTok; split <;> rfl
@[simp] theorem setTok_trapRec (t : Strand) (n : Nat) (x : Tok) : (t.setTok n x).trapRec = t.trapRec := by unfold setTok; split <;> rfl
@[simp] theorem setTok_inherit (t : Strand) (n : Nat) (x : Tok) : (t.setTok n x).inherit = t.inherit := by unfold setTok; split <;> rfl
@[simp] theorem setTok_fmtr (t : Strand) (n : Nat) (x : Tok) : (t.setTok n x).fmtr = t.fmtr := by unfold setTok; split <;> rfl
@[simp] theorem setTok_vcc (t : Strand) (n : Nat) (x : Tok) : (t.setTok n x).vcc = t.vcc := by unfold setTok; split <;> rfl
@[simp] theorem setTok_mpc (t : Strand) (n : Nat) (x : Tok) : (t.setTok n x).mpc = t.mpc := by unfold setTok; split <;> rfl
@[simp] theorem setTok_depth (t : Strand) (n : Nat) (x : Tok) : (t.setTok n x).depth = t.depth := by unfold setTok; split <;> rfl
@[simp] theorem setTok_rstack (t : Strand) (n : Nat) (x : Tok) : (t.setTok n x).rstack = t.rstack := by unfold setTok; split <;> rfl
@[simp] theorem setTok_nest (t : Strand) (n : Nat) (x : Tok) : (t.setTok n x).nest = t.nest := by unfold setTok; split <;> rfl
@[simp] theorem setTok_cnest (t : Strand) (n : Nat) (x : Tok) : (t.setTok n x).cnest = t.cnest := by unfold setTok; split <;> rfl
@[simp] theorem setTok_latches (t : Strand) (n : Nat) (x : Tok) : (t.setTok n x).latches = t.latches := by unfold setTok; split <;> rfl
@[simp] theorem setTok_lb (t : Strand) (n : Nat) (x : Tok) : (t.setTok n x).lb = t.lb := by unfold setTok; split <;> rfl
@[simp] theorem setTok_redirect (t : Strand) (n : Nat) (x : Tok) : (t.setTok n x).redirect = t.redirect := by unfold setTok; split <;> rfl
@[simp] theorem setTok_replay (t : Strand) (n : Nat) (x : Tok) : (t.setTok n x).replay = t.replay := by unfold setTok; split <;> rfl
@[simp] theorem setTok_trap (t : Strand) (n : Nat) (x : Tok) : (t.setTok n x).trap = t.trap := by unfold setTok; split <;> rfl
@[simp] theorem setTok_handler (t : Strand) (n : Nat) (x : Tok) : (t.setTok n x).handler = t.handler := by unfold setTok; split <;> rfl
@[simp] theorem setTok_grp (t : Strand) (n : Nat) (x : Tok) : (t.setTok n x).grp = t.grp := by unfold setTok; split <;> rfl
@[simp] theorem setTok_wait (t : Strand) (n : Nat) (x : Tok) : (t.setTok n x).wait = t.wait := by unfold setTok; split <;> rfl
@[simp] theorem setTok_pass (t : Strand) (n : Nat) (x : Tok) : (t.setTok n x).pass = t.pass := by unfold setTok; split <;> rfl
@[simp] theorem setTok_wq (t : Strand) (n : Nat) (x : Tok) : (t.setTok n x).wq = t.wq := by unfold setTok; split <;> rfl
@[simp] theorem setTok_fails (t : Strand) (n : Nat) (x : Tok) : (t.setTok n x).fails = t.fails := by unfold setTok; split <;> rfl
@[simp] theorem setTok_xlat (t : Strand) (n : Nat) (x : Tok) : (t.setTok n x).xlat = t.xlat := by unfold setTok; split <;> rfl
@[simp] theorem setTok_draws (t : Strand) (n : Nat) (x : Tok) : (t.setTok n x).draws = t.draws := by unfold setTok; split <;> rfl
@[simp] theorem setTok_opened (t : Strand) (n : Nat) (x : Tok) : (t.setTok n x).opened = t.opened := by unfold setTok; split <;> rfl
@[simp] theorem setTok_opens (t : Strand) (n : Nat) (x : Tok) : (t.setTok n x).opens = t.opens := by unfold setTok; split <;> rfl
@[simp] theorem setTok_bundle (t : Strand) (n : Nat) (x : Tok) : (t.setTok n x).bundle = t.bundle := by unfold setTok; split <;> rfl
@[simp] theorem setTok_base (t : Strand) (n : Nat) (x : Tok) : (t.setTok n x).base = t.base := by unfold setTok; split <;> rfl
@[simp] theorem setTok_timer (t : Strand) (n : Nat) (x : Tok) : (t.setTok n x).timer = t.timer := by unfold setTok; split <;> rfl
@[simp] theorem setTok_ending (t : Strand) (n : Nat) (x : Tok) : (t.setTok n x).ending = t.ending := by unfold setTok; split <;> rfl
@[simp] theorem setTok_returning (t : Strand) (n : Nat) (x : Tok) : (t.setTok n x).returning = t.returning := by unfold setTok; split <;> rfl
@[simp] theorem setTok_nestUpd (t : Strand) (n : Nat) (x : Tok) : (t.setTok n x).nestUpd = t.nestUpd := by unfold setTok; split <;> rfl
@[simp] theorem setTok_member (t : Strand) (n : Nat) (x : Tok) : (t.setTok n x).member = t.member := by unfold setTok; split <;> rfl
@[simp] theorem setTok_braid (t : Strand) (n : Nat) (x : Tok) : (t.setTok n x).braid = t.braid := by unfold setTok; split <;> rfl
@[simp] theorem setTok_amBase (t : Strand) (n : Nat) (x : Tok) : (t.setTok n x).amBase = t.amBase := by unfold setTok; split <;> rfl
@[simp] theorem setTok_amRows (t : Strand) (n : Nat) (x : Tok) : (t.setTok n x).amRows = t.amRows := by unfold setTok; split <;> rfl

@[simp] theorem produce_task (t : Strand) (n : Nat) : (t.produce n).task = t.task := setTok_task t n _
@[simp] theorem produce_g (t : Strand) (n : Nat) : (t.produce n).g = t.g := setTok_g t n _
@[simp] theorem produce_p (t : Strand) (n : Nat) : (t.produce n).p = t.p := setTok_p t n _
@[simp] theorem produce_cr (t : Strand) (n : Nat) : (t.produce n).cr = t.cr := setTok_cr t n _
@[simp] theorem produce_scopeId (t : Strand) (n : Nat) : (t.produce n).scopeId = t.scopeId := setTok_scopeId t n _
@[simp] theorem produce_trapRec (t : Strand) (n : Nat) : (t.produce n).trapRec = t.trapRec := setTok_trapRec t n _
@[simp] theorem produce_inherit (t : Strand) (n : Nat) : (t.produce n).inherit = t.inherit := setTok_inherit t n _
@[simp] theorem produce_fmtr (t : Strand) (n : Nat) : (t.produce n).fmtr = t.fmtr := setTok_fmtr t n _
@[simp] theorem produce_vcc (t : Strand) (n : Nat) : (t.produce n).vcc = t.vcc := setTok_vcc t n _
@[simp] theorem produce_mpc (t : Strand) (n : Nat) : (t.produce n).mpc = t.mpc := setTok_mpc t n _
@[simp] theorem produce_depth (t : Strand) (n : Nat) : (t.produce n).depth = t.depth := setTok_depth t n _
@[simp] theorem produce_rstack (t : Strand) (n : Nat) : (t.produce n).rstack = t.rstack := setTok_rstack t n _
@[simp] theorem produce_nest (t : Strand) (n : Nat) : (t.produce n).nest = t.nest := setTok_nest t n _
@[simp] theorem produce_cnest (t : Strand) (n : Nat) : (t.produce n).cnest = t.cnest := setTok_cnest t n _
@[simp] theorem produce_latches (t : Strand) (n : Nat) : (t.produce n).latches = t.latches := setTok_latches t n _
@[simp] theorem produce_lb (t : Strand) (n : Nat) : (t.produce n).lb = t.lb := setTok_lb t n _
@[simp] theorem produce_redirect (t : Strand) (n : Nat) : (t.produce n).redirect = t.redirect := setTok_redirect t n _
@[simp] theorem produce_replay (t : Strand) (n : Nat) : (t.produce n).replay = t.replay := setTok_replay t n _
@[simp] theorem produce_trap (t : Strand) (n : Nat) : (t.produce n).trap = t.trap := setTok_trap t n _
@[simp] theorem produce_handler (t : Strand) (n : Nat) : (t.produce n).handler = t.handler := setTok_handler t n _
@[simp] theorem produce_grp (t : Strand) (n : Nat) : (t.produce n).grp = t.grp := setTok_grp t n _
@[simp] theorem produce_wait (t : Strand) (n : Nat) : (t.produce n).wait = t.wait := setTok_wait t n _
@[simp] theorem produce_pass (t : Strand) (n : Nat) : (t.produce n).pass = t.pass := setTok_pass t n _
@[simp] theorem produce_wq (t : Strand) (n : Nat) : (t.produce n).wq = t.wq := setTok_wq t n _
@[simp] theorem produce_fails (t : Strand) (n : Nat) : (t.produce n).fails = t.fails := setTok_fails t n _
@[simp] theorem produce_xlat (t : Strand) (n : Nat) : (t.produce n).xlat = t.xlat := setTok_xlat t n _
@[simp] theorem produce_draws (t : Strand) (n : Nat) : (t.produce n).draws = t.draws := setTok_draws t n _
@[simp] theorem produce_opened (t : Strand) (n : Nat) : (t.produce n).opened = t.opened := setTok_opened t n _
@[simp] theorem produce_opens (t : Strand) (n : Nat) : (t.produce n).opens = t.opens := setTok_opens t n _
@[simp] theorem produce_bundle (t : Strand) (n : Nat) : (t.produce n).bundle = t.bundle := setTok_bundle t n _
@[simp] theorem produce_base (t : Strand) (n : Nat) : (t.produce n).base = t.base := setTok_base t n _
@[simp] theorem produce_timer (t : Strand) (n : Nat) : (t.produce n).timer = t.timer := setTok_timer t n _
@[simp] theorem produce_ending (t : Strand) (n : Nat) : (t.produce n).ending = t.ending := setTok_ending t n _
@[simp] theorem produce_returning (t : Strand) (n : Nat) : (t.produce n).returning = t.returning := setTok_returning t n _
@[simp] theorem produce_nestUpd (t : Strand) (n : Nat) : (t.produce n).nestUpd = t.nestUpd := setTok_nestUpd t n _
@[simp] theorem produce_member (t : Strand) (n : Nat) : (t.produce n).member = t.member := setTok_member t n _
@[simp] theorem produce_braid (t : Strand) (n : Nat) : (t.produce n).braid = t.braid := setTok_braid t n _
@[simp] theorem produce_amBase (t : Strand) (n : Nat) : (t.produce n).amBase = t.amBase := setTok_amBase t n _
@[simp] theorem produce_amRows (t : Strand) (n : Nat) : (t.produce n).amRows = t.amRows := setTok_amRows t n _

@[simp] theorem complete_task (t : Strand) (n : Nat) (c : Bool) : (t.complete n c).task = t.task := setTok_task t n _
@[simp] theorem complete_g (t : Strand) (n : Nat) (c : Bool) : (t.complete n c).g = t.g := setTok_g t n _
@[simp] theorem complete_p (t : Strand) (n : Nat) (c : Bool) : (t.complete n c).p = t.p := setTok_p t n _
@[simp] theorem complete_cr (t : Strand) (n : Nat) (c : Bool) : (t.complete n c).cr = t.cr := setTok_cr t n _
@[simp] theorem complete_scopeId (t : Strand) (n : Nat) (c : Bool) : (t.complete n c).scopeId = t.scopeId := setTok_scopeId t n _
@[simp] theorem complete_trapRec (t : Strand) (n : Nat) (c : Bool) : (t.complete n c).trapRec = t.trapRec := setTok_trapRec t n _
@[simp] theorem complete_inherit (t : Strand) (n : Nat) (c : Bool) : (t.complete n c).inherit = t.inherit := setTok_inherit t n _
@[simp] theorem complete_fmtr (t : Strand) (n : Nat) (c : Bool) : (t.complete n c).fmtr = t.fmtr := setTok_fmtr t n _
@[simp] theorem complete_vcc (t : Strand) (n : Nat) (c : Bool) : (t.complete n c).vcc = t.vcc := setTok_vcc t n _
@[simp] theorem complete_mpc (t : Strand) (n : Nat) (c : Bool) : (t.complete n c).mpc = t.mpc := setTok_mpc t n _
@[simp] theorem complete_depth (t : Strand) (n : Nat) (c : Bool) : (t.complete n c).depth = t.depth := setTok_depth t n _
@[simp] theorem complete_rstack (t : Strand) (n : Nat) (c : Bool) : (t.complete n c).rstack = t.rstack := setTok_rstack t n _
@[simp] theorem complete_nest (t : Strand) (n : Nat) (c : Bool) : (t.complete n c).nest = t.nest := setTok_nest t n _
@[simp] theorem complete_cnest (t : Strand) (n : Nat) (c : Bool) : (t.complete n c).cnest = t.cnest := setTok_cnest t n _
@[simp] theorem complete_latches (t : Strand) (n : Nat) (c : Bool) : (t.complete n c).latches = t.latches := setTok_latches t n _
@[simp] theorem complete_lb (t : Strand) (n : Nat) (c : Bool) : (t.complete n c).lb = t.lb := setTok_lb t n _
@[simp] theorem complete_redirect (t : Strand) (n : Nat) (c : Bool) : (t.complete n c).redirect = t.redirect := setTok_redirect t n _
@[simp] theorem complete_replay (t : Strand) (n : Nat) (c : Bool) : (t.complete n c).replay = t.replay := setTok_replay t n _
@[simp] theorem complete_trap (t : Strand) (n : Nat) (c : Bool) : (t.complete n c).trap = t.trap := setTok_trap t n _
@[simp] theorem complete_handler (t : Strand) (n : Nat) (c : Bool) : (t.complete n c).handler = t.handler := setTok_handler t n _
@[simp] theorem complete_grp (t : Strand) (n : Nat) (c : Bool) : (t.complete n c).grp = t.grp := setTok_grp t n _
@[simp] theorem complete_wait (t : Strand) (n : Nat) (c : Bool) : (t.complete n c).wait = t.wait := setTok_wait t n _
@[simp] theorem complete_pass (t : Strand) (n : Nat) (c : Bool) : (t.complete n c).pass = t.pass := setTok_pass t n _
@[simp] theorem complete_wq (t : Strand) (n : Nat) (c : Bool) : (t.complete n c).wq = t.wq := setTok_wq t n _
@[simp] theorem complete_fails (t : Strand) (n : Nat) (c : Bool) : (t.complete n c).fails = t.fails := setTok_fails t n _
@[simp] theorem complete_xlat (t : Strand) (n : Nat) (c : Bool) : (t.complete n c).xlat = t.xlat := setTok_xlat t n _
@[simp] theorem complete_draws (t : Strand) (n : Nat) (c : Bool) : (t.complete n c).draws = t.draws := setTok_draws t n _
@[simp] theorem complete_opened (t : Strand) (n : Nat) (c : Bool) : (t.complete n c).opened = t.opened := setTok_opened t n _
@[simp] theorem complete_opens (t : Strand) (n : Nat) (c : Bool) : (t.complete n c).opens = t.opens := setTok_opens t n _
@[simp] theorem complete_bundle (t : Strand) (n : Nat) (c : Bool) : (t.complete n c).bundle = t.bundle := setTok_bundle t n _
@[simp] theorem complete_base (t : Strand) (n : Nat) (c : Bool) : (t.complete n c).base = t.base := setTok_base t n _
@[simp] theorem complete_timer (t : Strand) (n : Nat) (c : Bool) : (t.complete n c).timer = t.timer := setTok_timer t n _
@[simp] theorem complete_ending (t : Strand) (n : Nat) (c : Bool) : (t.complete n c).ending = t.ending := setTok_ending t n _
@[simp] theorem complete_returning (t : Strand) (n : Nat) (c : Bool) : (t.complete n c).returning = t.returning := setTok_returning t n _
@[simp] theorem complete_nestUpd (t : Strand) (n : Nat) (c : Bool) : (t.complete n c).nestUpd = t.nestUpd := setTok_nestUpd t n _
@[simp] theorem complete_member (t : Strand) (n : Nat) (c : Bool) : (t.complete n c).member = t.member := setTok_member t n _
@[simp] theorem complete_braid (t : Strand) (n : Nat) (c : Bool) : (t.complete n c).braid = t.braid := setTok_braid t n _
@[simp] theorem complete_amBase (t : Strand) (n : Nat) (c : Bool) : (t.complete n c).amBase = t.amBase := setTok_amBase t n _
@[simp] theorem complete_amRows (t : Strand) (n : Nat) (c : Bool) : (t.complete n c).amRows = t.amRows := setTok_amRows t n _

@[simp] theorem supersede_task (t : Strand) (due id : Nat) (k : Nat × Nat) (n : Nat) : (t.supersede due id k n).task = t.task := rfl
@[simp] theorem supersede_g (t : Strand) (due id : Nat) (k : Nat × Nat) (n : Nat) : (t.supersede due id k n).g = t.g := rfl
@[simp] theorem supersede_p (t : Strand) (due id : Nat) (k : Nat × Nat) (n : Nat) : (t.supersede due id k n).p = t.p := rfl
@[simp] theorem supersede_q (t : Strand) (due id : Nat) (k : Nat × Nat) (n : Nat) : (t.supersede due id k n).q = t.q := rfl
@[simp] theorem supersede_cr (t : Strand) (due id : Nat) (k : Nat × Nat) (n : Nat) : (t.supersede due id k n).cr = t.cr := rfl
@[simp] theorem supersede_scopeId (t : Strand) (due id : Nat) (k : Nat × Nat) (n : Nat) : (t.supersede due id k n).scopeId = t.scopeId := rfl
@[simp] theorem supersede_trapRec (t : Strand) (due id : Nat) (k : Nat × Nat) (n : Nat) : (t.supersede due id k n).trapRec = t.trapRec := rfl
@[simp] theorem supersede_inherit (t : Strand) (due id : Nat) (k : Nat × Nat) (n : Nat) : (t.supersede due id k n).inherit = t.inherit := rfl
@[simp] theorem supersede_fmtr (t : Strand) (due id : Nat) (k : Nat × Nat) (n : Nat) : (t.supersede due id k n).fmtr = t.fmtr := rfl
@[simp] theorem supersede_vcc (t : Strand) (due id : Nat) (k : Nat × Nat) (n : Nat) : (t.supersede due id k n).vcc = t.vcc := rfl
@[simp] theorem supersede_mpc (t : Strand) (due id : Nat) (k : Nat × Nat) (n : Nat) : (t.supersede due id k n).mpc = t.mpc := rfl
@[simp] theorem supersede_depth (t : Strand) (due id : Nat) (k : Nat × Nat) (n : Nat) : (t.supersede due id k n).depth = t.depth := rfl
@[simp] theorem supersede_rstack (t : Strand) (due id : Nat) (k : Nat × Nat) (n : Nat) : (t.supersede due id k n).rstack = t.rstack := rfl
@[simp] theorem supersede_nest (t : Strand) (due id : Nat) (k : Nat × Nat) (n : Nat) : (t.supersede due id k n).nest = t.nest := rfl
@[simp] theorem supersede_cnest (t : Strand) (due id : Nat) (k : Nat × Nat) (n : Nat) : (t.supersede due id k n).cnest = t.cnest := rfl
@[simp] theorem supersede_latches (t : Strand) (due id : Nat) (k : Nat × Nat) (n : Nat) : (t.supersede due id k n).latches = t.latches := rfl
@[simp] theorem supersede_lb (t : Strand) (due id : Nat) (k : Nat × Nat) (n : Nat) : (t.supersede due id k n).lb = t.lb.map (fun e => if e.due < due || (e.due == due && decide (e.id < id)) then { e with newer := (k, n) :: e.newer } else e) := rfl
@[simp] theorem supersede_redirect (t : Strand) (due id : Nat) (k : Nat × Nat) (n : Nat) : (t.supersede due id k n).redirect = t.redirect := rfl
@[simp] theorem supersede_replay (t : Strand) (due id : Nat) (k : Nat × Nat) (n : Nat) : (t.supersede due id k n).replay = t.replay := rfl
@[simp] theorem supersede_trap (t : Strand) (due id : Nat) (k : Nat × Nat) (n : Nat) : (t.supersede due id k n).trap = t.trap := rfl
@[simp] theorem supersede_handler (t : Strand) (due id : Nat) (k : Nat × Nat) (n : Nat) : (t.supersede due id k n).handler = t.handler := rfl
@[simp] theorem supersede_grp (t : Strand) (due id : Nat) (k : Nat × Nat) (n : Nat) : (t.supersede due id k n).grp = t.grp := rfl
@[simp] theorem supersede_wait (t : Strand) (due id : Nat) (k : Nat × Nat) (n : Nat) : (t.supersede due id k n).wait = t.wait := rfl
@[simp] theorem supersede_pass (t : Strand) (due id : Nat) (k : Nat × Nat) (n : Nat) : (t.supersede due id k n).pass = t.pass := rfl
@[simp] theorem supersede_wq (t : Strand) (due id : Nat) (k : Nat × Nat) (n : Nat) : (t.supersede due id k n).wq = t.wq := rfl
@[simp] theorem supersede_fails (t : Strand) (due id : Nat) (k : Nat × Nat) (n : Nat) : (t.supersede due id k n).fails = t.fails := rfl
@[simp] theorem supersede_xlat (t : Strand) (due id : Nat) (k : Nat × Nat) (n : Nat) : (t.supersede due id k n).xlat = t.xlat := rfl
@[simp] theorem supersede_draws (t : Strand) (due id : Nat) (k : Nat × Nat) (n : Nat) : (t.supersede due id k n).draws = t.draws := rfl
@[simp] theorem supersede_opened (t : Strand) (due id : Nat) (k : Nat × Nat) (n : Nat) : (t.supersede due id k n).opened = t.opened := rfl
@[simp] theorem supersede_opens (t : Strand) (due id : Nat) (k : Nat × Nat) (n : Nat) : (t.supersede due id k n).opens = t.opens := rfl
@[simp] theorem supersede_bundle (t : Strand) (due id : Nat) (k : Nat × Nat) (n : Nat) : (t.supersede due id k n).bundle = t.bundle := rfl
@[simp] theorem supersede_base (t : Strand) (due id : Nat) (k : Nat × Nat) (n : Nat) : (t.supersede due id k n).base = t.base := rfl
@[simp] theorem supersede_timer (t : Strand) (due id : Nat) (k : Nat × Nat) (n : Nat) : (t.supersede due id k n).timer = t.timer := rfl
@[simp] theorem supersede_ending (t : Strand) (due id : Nat) (k : Nat × Nat) (n : Nat) : (t.supersede due id k n).ending = t.ending := rfl
@[simp] theorem supersede_returning (t : Strand) (due id : Nat) (k : Nat × Nat) (n : Nat) : (t.supersede due id k n).returning = t.returning := rfl
@[simp] theorem supersede_nestUpd (t : Strand) (due id : Nat) (k : Nat × Nat) (n : Nat) : (t.supersede due id k n).nestUpd = t.nestUpd := rfl
@[simp] theorem supersede_member (t : Strand) (due id : Nat) (k : Nat × Nat) (n : Nat) : (t.supersede due id k n).member = t.member := rfl
@[simp] theorem supersede_braid (t : Strand) (due id : Nat) (k : Nat × Nat) (n : Nat) : (t.supersede due id k n).braid = t.braid := rfl
@[simp] theorem supersede_amBase (t : Strand) (due id : Nat) (k : Nat × Nat) (n : Nat) : (t.supersede due id k n).amBase = t.amBase := rfl
@[simp] theorem supersede_amRows (t : Strand) (due id : Nat) (k : Nat × Nat) (n : Nat) : (t.supersede due id k n).amRows = t.amRows := rfl

end Strand

/-! Finite maps: an entry reads back what was set, and setting one leaves the others. -/

theorem get?_set {α : Type} (m : Map α) (k n : Nat) (v : α) :
    Map.get? (Map.set m k v) n = if n = k then some v else Map.get? m n := by
  induction m with
  | nil => simp only [Map.set, Map.get?]
  | cons c m ih =>
    obtain ⟨j, w⟩ := c
    simp only [Map.set]
    split
    · rename_i e
      subst e
      simp only [Map.get?]
      split
      · rfl
      · rfl
    · split
      · simp only [Map.get?]
      · rename_i ne _
        simp only [Map.get?, ih]
        split
        · rename_i e
          subst e
          rw [if_neg (Ne.symm ne)]
        · rfl

@[simp] theorem get?_set_same {α : Type} (m : Map α) (k : Nat) (v : α) : Map.get? (Map.set m k v) k = some v := by
  rw [get?_set, if_pos rfl]

theorem get?_set_other {α : Type} (m : Map α) (k n : Nat) (v : α) (h : n ≠ k) : Map.get? (Map.set m k v) n = Map.get? m n := by
  rw [get?_set, if_neg h]

@[simp] theorem get_set_same {α : Type} (m : Map α) (d : α) (k : Nat) (v : α) : Map.get (Map.set m k v) d k = v := by
  simp only [Map.get, get?_set_same, Option.getD_some]

theorem get_set_other {α : Type} (m : Map α) (d : α) (k n : Nat) (v : α) (h : n ≠ k) :
    Map.get (Map.set m k v) d n = Map.get m d n := by
  simp only [Map.get, get?_set_other m k n v h]

theorem get_set {α : Type} (m : Map α) (d : α) (k n : Nat) (v : α) :
    Map.get (Map.set m k v) d n = if n = k then v else Map.get m d n := by
  simp only [Map.get, get?_set]
  split <;> rfl

namespace State

@[simp] theorem strand_setStrand_same (s : State) (sid : Nat) (t : Strand) : (s.setStrand sid t).strand sid = t :=
  get_set_same s.strands Strand.idle sid t

theorem strand_setStrand_other (s : State) (sid n : Nat) (t : Strand) (h : n ≠ sid) : (s.setStrand sid t).strand n = s.strand n :=
  get_set_other s.strands Strand.idle sid n t h

@[simp] theorem strand_updStrand_same (s : State) (sid : Nat) (f : Strand → Strand) :
    (s.updStrand sid f).strand sid = f (s.strand sid) :=
  strand_setStrand_same s sid _

theorem strand_updStrand_other (s : State) (sid n : Nat) (f : Strand → Strand) (h : n ≠ sid) :
    (s.updStrand sid f).strand n = s.strand n :=
  strand_setStrand_other s sid n _ h

@[simp] theorem me_updMe (s : State) (f : Strand → Strand) : (s.updMe f).me = f s.me := strand_updStrand_same s s.cur f

theorem strand_updMe_other (s : State) (n : Nat) (f : Strand → Strand) (h : n ≠ s.cur) : (s.updMe f).strand n = s.strand n :=
  strand_updStrand_other s s.cur n f h

@[simp] theorem core_updCore_same (s : State) (gid : Nat) (f : Core → Core) : (s.updCore gid f).core gid = f (s.core gid) :=
  get_set_same s.cores Core.idle gid _

@[simp] theorem cluster_updCluster_same (s : State) (k : Nat) (f : Cluster → Cluster) :
    (s.updCluster k f).cluster k = f (s.cluster k) :=
  get_set_same s.clusters Cluster.idle k _

@[simp] theorem ctx_updCtx_same (s : State) (c : Nat) (f : Ctx → Ctx) : (s.updCtx c f).ctx c = f (s.ctx c) :=
  get_set_same s.ctxs Ctx.idle c _

@[simp] theorem devReg_setDev_same (s : State) (off v : Nat) : (s.setDev off v).devReg off = v % 2 ^ 64 := by
  show (Map.get (Map.set s.dev off (BitVec.ofNat 64 v)) 0 off).toNat = _
  rw [get_set_same, BitVec.toNat_ofNat]

theorem devReg_setDev_other (s : State) (off n v : Nat) (h : n ≠ off) : (s.setDev off v).devReg n = s.devReg n := by
  show (Map.get (Map.set s.dev off (BitVec.ofNat 64 v)) 0 n).toNat = _
  rw [get_set_other _ _ _ _ _ h]
  rfl

/-- The strand that acts, after a landing: one more latch. -/
@[simp] theorem me_land (s : State) (k : Nat) (v : LandVal) :
    (s.land k v).me = { s.me with latches := s.me.latches ++ [⟨s.posId, s.slot, s.me.vcc + k, false, v⟩] } :=
  get_set_same s.strands Strand.idle s.cur _

theorem strand_land_other (s : State) (k n : Nat) (v : LandVal) (h : n ≠ s.cur) : (s.land k v).strand n = s.strand n :=
  get_set_other s.strands Strand.idle s.cur n _ h

/-- The strand that acts, after a landing-buffer entry: one more entry. -/
@[simp] theorem me_landEntry (s : State) (k : Nat) (vals : List LandVal) (arrived : Bool) (req : LbReq) :
    (s.landEntry k vals arrived req).me =
      { s.me with lb := s.me.lb ++ [⟨s.posId, s.me.vcc + k, vals, arrived, false, req, []⟩] } :=
  get_set_same s.strands Strand.idle s.cur _

end State

namespace Strand

/-- g0 reads zero, and a write to it is discarded (R88). -/
@[simp] theorem reg_zero (t : Strand) : t.reg 0 = ⟨0, false⟩ := rfl

theorem reg_setReg (t : Strand) (r n : Nat) (v : Word) (p : Bool) :
    (t.setReg r v p).reg n = if n = r ∧ r ≠ 0 then ⟨v, p⟩ else t.reg n := by
  by_cases h : r = 0
  · simp only [setReg, h, ↓reduceIte, ne_eq, not_true_eq_false, and_false]
  · simp only [setReg, h, ↓reduceIte, ne_eq, not_false_eq_true, and_true, reg, get_set]
    by_cases hn : n = 0
    · have : n ≠ r := by omega
      simp only [hn, ↓reduceIte]
      rw [if_neg (by omega)]
    · simp only [hn, ↓reduceIte]

theorem pred_setPred (t : Strand) (p n : Nat) (v : Bool) :
    (t.setPred p v).pred n = if n = p ∧ p ≠ 0 then v else t.pred n := by
  by_cases h : p = 0
  · simp only [setPred, h, ↓reduceIte, ne_eq, not_true_eq_false, and_false]
  · simp only [setPred, h, ↓reduceIte, ne_eq, not_false_eq_true, and_true, pred, get_set]
    by_cases hn : n = p
    · have : (n == 0) = false := by simp only [beq_eq_false_iff_ne]; omega
      simp only [hn, ↓reduceIte]
      rw [← hn, this, Bool.false_or]
    · simp only [hn, ↓reduceIte]

theorem tok_setTok (t : Strand) (q n : Nat) (x : Tok) : (t.setTok q x).tok n = if n = q ∧ q ≠ 0 then x else t.tok n := by
  by_cases h : q = 0
  · simp only [setTok, h, ↓reduceIte, ne_eq, not_true_eq_false, and_false]
  · simp only [setTok, h, ↓reduceIte, ne_eq, not_false_eq_true, and_true, tok, get_set]
    by_cases hn : n = 0
    · simp only [hn, ↓reduceIte]
      rw [if_neg (by omega)]
    · simp only [hn, ↓reduceIte]

end Strand

end Sys2Proof.Machine
end

