-- ==== Sys2Proof/Laws/Ops.lean ====
section
/-! SUPPORT. One lemma for each shared operation, saying what it does and what it leaves alone: maps and lists of numbers, guards and
tests, system writes and reports, the taking of a trap. -/

namespace Sys2Proof.Machine

open Sys2Proof Sys2Proof.Spec

/-- A second write at a key stands. -/
theorem set_set_same {α : Type} (m : Map α) (k : Nat) (v w : α) : Map.set (Map.set m k v) k w = Map.set m k w := by
  induction m with
  | nil => simp [Map.set]
  | cons e m ih =>
    obtain ⟨a, b⟩ := e
    simp only [Map.set]
    split
    · simp [Map.set]
    · split
      · simp [Map.set]
      · simp [Map.set, *]

/-- A strand after one is set. -/
theorem strand_setStrand (s : State) (sid n : Nat) (t : Strand) : (s.setStrand sid t).strand n = if n = sid then t else s.strand n := by
  simp [State.strand, State.setStrand, Machine.get_set]

/-- A strand after one is changed. -/
theorem strand_updStrand (s : State) (sid n : Nat) (f) : (s.updStrand sid f).strand n = if n = sid then f (s.strand sid) else s.strand n := strand_setStrand _ _ _ _

/-- What a run of numbers holds. -/
theorem mem_span (lo n x : Nat) : x ∈ span lo n ↔ lo ≤ x ∧ x < lo + n := by
  induction n generalizing lo with
  | zero => simp [span]
  | succ n ih => simp [span, ih]; omega

/-- A run of numbers from 0. -/
theorem span_range (n : Nat) : span 0 n = List.range n := by
  have : ∀ n lo, span lo n = (List.range n).map (fun i => lo + i) := by
    intro n; induction n with
    | zero => intro lo; rfl
    | succ n ih =>
      intro lo
      rw [span, ih, List.range_succ_eq_map, List.map_cons, List.map_map]
      congr 1
      apply List.map_congr_left
      intro x _; simp; omega
  simpa using this n 0

/-- A row of fields fits the sum of its widths. -/
theorem pack_bound : ∀ l : List (Nat × Nat), pack l < 2 ^ (l.map (·.1)).sum := by
  intro l; induction l with
  | nil => simp [pack]
  | cons e l ih =>
    obtain ⟨n, v⟩ := e
    simp only [pack, List.map_cons, List.sum_cons, pow_add]
    have := Nat.mod_lt v (Nat.two_pow_pos n)
    have h2 : 2 ^ n * (pack l + 1) ≤ 2 ^ n * 2 ^ (l.map (·.1)).sum := Nat.mul_le_mul_left _ ih
    rw [mul_add] at h2; omega

/-- A POISON test of one register (R89). -/
theorem clean_one (s : State) (r : Nat) (f) : s.clean [r] f = if s.me.pois r then s.raise .poison else f s := by
  simp [State.clean]

/-- The POISON and ALIGN tests of an access with one base register. -/
theorem checked_one (s : State) (r a n : Nat) (k f) : s.checked [r] a n k f = if s.me.pois r then s.raise .poison else if a % n ≠ 0 then s.raiseVa .align a k 0 else f s := by
  simp [State.checked, clean_one]

/-- An operation whose guard holds runs (R50). -/
theorem guarded_of_guard (s : State) (G f) (h : s.me.guard G = true) : s.guarded G f = f s := by simp [State.guarded, h]

/-- The tests of an engine operation: the first that fails is its trap, and where none does it goes on. -/
theorem tests_testsThen (i : Instr) (s t : State) (ts) (f : State → State) (he : exec i s = .next (s.tests ts f)) (ht : t = f s) : TestsThen i s t ts := by
  subst ht
  constructor
  · intro x hx
    rw [he]; congr 1
    clear he
    induction ts with
    | nil => simp at hx
    | cons e es ih =>
      obtain ⟨b, c, q⟩ := e
      cases b
      · simp only [List.find?] at hx
        simp only [State.tests, Bool.false_eq_true, if_false]; exact ih hx
      · simp only [List.find?] at hx
        simp only [State.tests, if_true]
        cases hx; rfl
  · intro hx
    rw [he]; congr 1
    clear he
    induction ts with
    | nil => rfl
    | cons e es ih =>
      obtain ⟨b, c, q⟩ := e
      simp at hx
      simp only [State.tests, hx.1, Bool.false_eq_true, if_false]; apply ih; simpa using hx.2

/-- A strand of no braid is its own gang. -/
theorem gang_of_no_braid (s : State) (sid : Nat) (h : (s.strand sid).braid = none) : s.gang sid = [sid] := by simp [State.gang, h]

/-- A trap of a strand of no braid holds no other. -/
theorem holdGang_of_no_braid (s : State) (sid) (h : (s.strand sid).braid = none) : s.holdGang sid = s := by
  simp [State.holdGang, gang_of_no_braid s sid h]

/-- A number read depends on memory alone. -/
theorem natAt_congr (s t : State) (a n : Nat) (h : s.mem = t.mem) : s.natAt a n = t.natAt a n := by
  unfold State.natAt State.bytesAt; rw [h]

/-- Poison read depends on the poison alone. -/
theorem poisonIn_congr (s t : State) (a n : Nat) (h : s.poison = t.poison) : s.poisonIn a n = t.poisonIn a n := by
  unfold State.poisonIn; rw [h]

/-- A walk depends on memory, poison, the modules in service and this module alone (R174 to R176). -/
theorem walk_congr (s t : State) (root va : Nat) (k : Kind) (hm : s.mem = t.mem) (hp : s.poison = t.poison) (hr : s.service = t.service)
    (hd : s.module = t.module) : s.walk root va k = t.walk root va k := by
  have hre : ∀ ea, s.reachable ea = t.reachable ea := by intro ea; unfold State.reachable; rw [hr, hd]
  unfold State.walk
  generalize [5, 4, 3, 2, 1] = ls
  induction ls generalizing root with
  | nil => unfold State.walkFrom; rfl
  | cons l ls ih =>
    unfold State.walkFrom
    have h1 : ∀ ea, s.tableFault ea = t.tableFault ea := by
      intro ea; unfold State.tableFault; rw [hre ea, poisonIn_congr s t ea 8 hp]
    simp only [h1, natAt_congr s t _ 8 hm, ih]

/-- A translation of the device itself depends on the walk and on control core 0 alone. -/
theorem sysPa_congr (s t : State) (va : Nat) (k : Kind) (hm : s.mem = t.mem) (hp : s.poison = t.poison) (hr : s.service = t.service)
    (hd : s.module = t.module) (hc : s.ctrl = t.ctrl) : s.sysPa va k = t.sysPa va k := by
  unfold State.sysPa State.ctrlSpace; rw [hc, walk_congr s t _ va k hm hp hr hd]

/-- A write of system memory where it translates. -/
theorem sysWrite_of_pa (s : State) (va pa : Nat) (bs : List Byte) (h : s.sysPa va .store = some pa) : s.sysWrite va bs = s.writeBytes pa bs := by
  unfold State.sysWrite; rw [h]

/-- Whether the ring is full depends on the device registers alone (R318). -/
theorem frqFull_congr (s t : State) (h : s.dev = t.dev) : s.frqFull = t.frqFull := by
  unfold State.frqFull State.frqSize State.devReg; rw [h]

/-- What a write of system memory leaves alone. -/
theorem sysWrite_frame (s : State) (va bs) : (s.sysWrite va bs).strands = s.strands ∧ (s.sysWrite va bs).dev = s.dev ∧ (s.sysWrite va bs).tasks = s.tasks
  ∧ (s.sysWrite va bs).cores = s.cores ∧ (s.sysWrite va bs).frqHeld = s.frqHeld ∧ (s.sysWrite va bs).cur = s.cur ∧ (s.sysWrite va bs).ctxs = s.ctxs ∧ (s.sysWrite va bs).module = s.module ∧ (s.sysWrite va bs).slot = s.slot:= by
  unfold State.sysWrite; split <;> exact ⟨rfl, rfl, rfl, rfl, rfl, rfl, rfl, rfl, rfl⟩

/-- What a report leaves alone (R318). -/
theorem postReport_frame (s : State) (r) : (s.postReport r).strands = s.strands ∧ (s.postReport r).tasks = s.tasks ∧ (s.postReport r).cores = s.cores ∧ (s.postReport r).cur = s.cur := by
  unfold State.postReport; split
  · exact ⟨rfl, rfl, rfl, rfl⟩
  · unfold State.writeReport; exact ⟨(sysWrite_frame _ _ _).1, (sysWrite_frame _ _ _).2.2.1, (sysWrite_frame _ _ _).2.2.2.1, (sysWrite_frame _ _ _).2.2.2.2.2.1⟩

/-- A report that finds the ring full is held (R318). -/
theorem postReport_of_full (s : State) (r) (h : s.frqFull = true) : s.postReport r = { s with frqHeld := s.frqHeld ++ [r] } := by
  simp [State.postReport, h]

/-- A report that finds room moves the tail (R318). -/
theorem postReport_of_room (s : State) (r) (h : s.frqFull = false) : (s.postReport r).frqHeld = s.frqHeld ∧ (s.postReport r).devReg 0x518 = (s.devReg 0x518 + 1) % 2 ^ 32 := by
  simp [State.postReport, h, State.writeReport]
  refine ⟨(sysWrite_frame _ _ _).2.2.2.2.1, ?_⟩
  simp only [State.devReg]
  simp; omega

/-- A trap record is 128 bytes (Table 12-6). -/
theorem trapRecord_bound (s : State) (sid t tr perf wout) : s.trapRecord sid t tr perf wout < 2 ^ 1024 :=
  lt_of_lt_of_le (pack_bound _) (pow_le_pow_right₀ (by norm_num) (by simp))

/-- TAKING A TRAP, of a strand of no braid whose task is no backfill job and no ballast task: the strand freezes with its trap and its performed bits, its record is written to its save area, a report of kind 0 is posted, and nothing else changes (R313, R314, R318). -/
theorem takeTrap_spec (s : State) (sid : Nat) (cls code slot perf info) (t : Strand) (ht : s.strand sid = t) (hc : isCtrl sid = false) (hh : t.handler = none) (hb : t.braid = none)
   (h1 : (s.task t.task).kind ≠ .backfill) (h2 : (s.task t.task).kind ≠ .ballast) :
   let va := s.devReg 0x508 / 2 ^ 16 % 2 ^ 41 * 2 ^ 16 + sid * 0x110000
   let k := s.task t.task
   let u := s.takeTrap sid cls code slot perf info true
   u.strand sid = { t with trap := some ⟨cls, code, slot, info, true⟩, replay := some ⟨t.bundle, perf⟩, trapRec := BitVec.ofNat 64 va } ∧
      (∀ m, m ≠ sid → u.strand m = s.strand m) ∧ u.tasks = s.tasks ∧ u.cores = s.cores ∧ u.cur = s.cur ∧
      (s.frqFull = true → u.frqHeld = s.frqHeld ++ [⟨0, cls, va, (State.microOf k).recIdx, (State.microOf k).entry, 0, 0, k.home, k.ctx,
          s.strandName sid⟩] ∧
        ∀ pa, s.sysPa va .store = some pa → Memory.wf s.mem = true → u.natAt pa 128 = s.trapRecord sid t ⟨cls, code, slot, info, true⟩ perf 0 % 256 ^ 128) ∧
      (s.frqFull = false → u.frqHeld = s.frqHeld ∧ u.devReg 0x518 = (s.devReg 0x518 + 1) % 2 ^ 32) := by
  intro va k
  obtain ⟨s1, hs1⟩ : ∃ s1, s1 = s.setStrand sid { t with trap := some ⟨cls, code, slot, info, true⟩, replay := some ⟨t.bundle, perf⟩ } := ⟨_, rfl⟩
  have hsa : ∀ v : State, v.dev = s.dev → v.saveArea sid = va := by
    intro v hv; simp [State.saveArea, hc, va, State.devReg, hv]
  have hd1 : s1.dev = s.dev := by rw [hs1, State.setStrand_dev]
  have hst : s1.strand sid = { t with trap := some ⟨cls, code, slot, info, true⟩, replay := some ⟨t.bundle, perf⟩ } := by rw [hs1, strand_setStrand, if_pos rfl]
  obtain ⟨s2, hs2⟩ : ∃ s2, s2 = s1.syncTrap sid := ⟨_, rfl⟩
  have hrec : s1.trapRecord sid (s1.strand sid) ⟨cls, code, slot, info, true⟩ perf 0 = s.trapRecord sid t ⟨cls, code, slot, info, true⟩ perf 0 := by
    rw [hst, hs1]; simp only [State.trapRecord, State.strandName, State.task, State.setStrand_module, State.setStrand_tasks, Strand.level]
  have hs2' : s2 = (s1.sysWrite va (leBytes 128 (s.trapRecord sid t ⟨cls, code, slot, info, true⟩ perf 0))).updStrand sid (fun t => { t with trapRec := BitVec.ofNat 64 va }) := by
    rw [hs2, State.syncTrap]
    have : (s1.strand sid).trap = some ⟨cls, code, slot, info, true⟩ := by rw [hst]
    simp only [this, hsa s1 hd1]
    have : (s1.strand sid).replay = some ⟨t.bundle, perf⟩ := by rw [hst]
    simp only [this, hrec]
  have sw := sysWrite_frame s1 va (leBytes 128 (s.trapRecord sid t ⟨cls, code, slot, info, true⟩ perf 0))
  have hss : ∀ n, (s1.sysWrite va (leBytes 128 (s.trapRecord sid t ⟨cls, code, slot, info, true⟩ perf 0))).strand n = s1.strand n := by
    intro n; simp only [State.strand, sw.1]
  have h2s : s2.strand sid = { t with trap := some ⟨cls, code, slot, info, true⟩, replay := some ⟨t.bundle, perf⟩, trapRec := BitVec.ofNat 64 va } := by
    rw [hs2', strand_updStrand, if_pos rfl, hss, hst]
  have h2n : ∀ m, m ≠ sid → s2.strand m = s.strand m := by
    intro m hm; rw [hs2', strand_updStrand, if_neg hm, hss, hs1, strand_setStrand, if_neg hm]
  have hhold : s2.holdGang sid = s2 := holdGang_of_no_braid _ _ (by rw [h2s]; exact hb)
  have hu : s.takeTrap sid cls code slot perf info true = s2.postReport (s.reportOf 0 cls va 0 0 sid t.task) := by
    have e1 : s.trapKills sid = false := by simp [State.trapKills, ht, hh, hc, State.taskOf, h1, h2]
    have e2 : ∀ x : Strand, (s.setStrand sid x).dev = s.dev := fun x => State.setStrand_dev _ _ _
    simp only [State.takeTrap, e1, Bool.false_eq_true, if_false, State.freeze, State.postTrap, ht, strand_setStrand, if_true]
    have e3 : ∀ x y : Strand, (s.setStrand sid x).setStrand sid y = s.setStrand sid y := by
      intro x y; simp only [State.setStrand, set_set_same]
    simp only [e3, hsa _ (e2 _)]
    rw [← hs1, ← hs2, hhold]
    rfl
  have hfull : s2.frqFull = s.frqFull := by
    have : s2.dev = s.dev := by rw [hs2', State.updStrand_dev, sw.2.1, hs1, State.setStrand_dev]
    exact frqFull_congr _ _ this
  rw [hu]
  have pr := postReport_frame s2 (s.reportOf 0 cls va 0 0 sid t.task)
  refine ⟨?_, ?_, ?_, ?_, ?_, ?_, ?_⟩
  · simp only [State.strand, pr.1]; exact h2s
  · intro m hm; simp only [State.strand, pr.1]; exact h2n m hm
  · rw [pr.2.1, hs2', State.updStrand_tasks, sw.2.2.1, hs1, State.setStrand_tasks]
  · rw [pr.2.2.1, hs2', State.updStrand_cores, sw.2.2.2.1, hs1, State.setStrand_cores]
  · rw [pr.2.2.2, hs2', State.updStrand_cur, sw.2.2.2.2.2.1, hs1, State.setStrand_cur]
  · intro hf
    rw [postReport_of_full _ _ (by rw [hfull]; exact hf)]
    refine ⟨?_, ?_⟩
    · show s2.frqHeld ++ _ = _
      have : s2.frqHeld = s.frqHeld := by rw [hs2', State.updStrand_frqHeld, sw.2.2.2.2.1, hs1, State.setStrand_frqHeld]
      rw [this]; rfl
    · intro pa hpa hwf
      have hm : ∀ (u v : State) (a n : Nat), u.mem = v.mem → u.natAt a n = v.natAt a n := by
        intro u v a n h; unfold State.natAt State.bytesAt; rw [h]
      have hp : s1.sysPa va .store = some pa := by
        rw [← hpa]; apply sysPa_congr <;> rw [hs1] <;> first | exact State.setStrand_mem _ _ _ | exact State.setStrand_poison _ _ _ | exact State.setStrand_service _ _ _ | exact State.setStrand_module _ _ _ | exact State.setStrand_ctrl _ _ _
      have hw : s1.sysWrite va (leBytes 128 (s.trapRecord sid t ⟨cls, code, slot, info, true⟩ perf 0)) = s1.writeNat pa 128 (s.trapRecord sid t ⟨cls, code, slot, info, true⟩ perf 0) := by
        exact sysWrite_of_pa _ _ _ _ hp
      refine (hm _ s2 _ _ rfl).trans ?_
      rw [hs2', hm _ (s1.sysWrite va (leBytes 128 (s.trapRecord sid t ⟨cls, code, slot, info, true⟩ perf 0))) _ _ (State.updStrand_mem _ _ _), hw,
        State.natAt_writeNat_same _ _ _ _ (by rw [hs1, State.setStrand_mem]; exact hwf)]
  · intro hf
    have := postReport_of_room s2 (s.reportOf 0 cls va 0 0 sid t.task) (by rw [hfull]; exact hf)
    rw [this.1, this.2]
    refine ⟨?_, ?_⟩
    · rw [hs2', State.updStrand_frqHeld, sw.2.2.2.2.1, hs1, State.setStrand_frqHeld]
    · have : s2.dev = s.dev := by rw [hs2', State.updStrand_dev, sw.2.1, hs1, State.setStrand_dev]
      simp only [State.devReg, this]

/-- A write of system memory changes memory and its poison alone. -/
theorem sysWrite_only (s : State) (va : Nat) (bs : List Byte) : ∃ m p, s.sysWrite va bs = { s with mem := m, poison := p } := by
  unfold State.sysWrite
  split
  · exact ⟨_, _, rfl⟩
  · exact ⟨s.mem, s.poison, rfl⟩

/-- A scope entry written, and nothing else but the table in memory (R305). -/
theorem setScope_only (s : State) (n : Nat) (e : ScopeEntry) :
    ∃ m p, s.setScope n e = { s with scopes := s.scopes.set n e, mem := m, poison := p } :=
  sysWrite_only _ _ _

/-- A write in a context's space changes memory and its poison alone. -/
theorem vwrite_only (s : State) (root va : Nat) (bs : List Byte) : ∃ m p, s.vwrite root va bs = { s with mem := m, poison := p } := by
  have key : ∀ (ps : List (Nat × Nat)) (u : State) (bs : List Byte), (∃ m p, u = { s with mem := m, poison := p }) →
      ∃ m p, (ps.foldl (fun (acc : State × List Byte) p => (acc.1.writeBytes p.1 (acc.2.take p.2), acc.2.drop p.2)) (u, bs)).1 =
        { s with mem := m, poison := p } := by
    intro ps
    induction ps with
    | nil => intro u bs h; exact h
    | cons x ps ih =>
      intro u bs h
      refine ih _ _ ?_
      obtain ⟨m, p, rfl⟩ := h
      exact ⟨_, _, rfl⟩
  unfold State.vwrite
  split
  · exact ⟨s.mem, s.poison, rfl⟩
  · split
    · exact key _ _ _ ⟨s.mem, s.poison, rfl⟩
    · exact ⟨s.mem, s.poison, rfl⟩

/-- A change of an entry's state changes memory and its poison alone (R277). -/
theorem setKvState_only (s : State) (root : Nat) (d : SeqDesc) (p l st : Nat) :
    ∃ m q, s.setKvState root d p l st = { s with mem := m, poison := q } := by
  unfold State.setKvState
  split
  · exact ⟨s.mem, s.poison, rfl⟩
  · split
    · exact vwrite_only _ _ _ _
    · exact ⟨s.mem, s.poison, rfl⟩

/-- A work item bound to a scope changes the scope table alone (R306). -/
theorem scopeBind_only (s : State) (n : Nat) : ∃ m p c, s.scopeBind n = { s with scopes := c, mem := m, poison := p } := by
  unfold State.scopeBind
  split
  · obtain ⟨m, p, h⟩ := setScope_only s n _
    exact ⟨m, p, _, h⟩
  · exact ⟨s.mem, s.poison, s.scopes, rfl⟩

/-- A task put into the state, and its count in its scope. -/
theorem addTask_only (s : State) (k : Task) :
    ∃ m p c, s.addTask k = { s with tasks := s.tasks.set k.id k, scopes := c, mem := m, poison := p } :=
  scopeBind_only _ _

/-- The scoreboard's counts lie in memory (R191). -/
theorem boardTask_only (s : State) (k : Task) (add : Bool) : ∃ m p, s.boardTask k add = { s with mem := m, poison := p } := by
  unfold State.boardTask
  dsimp only
  generalize (k.boxes.map (·.handle)).eraseDups = hs
  have key : ∀ (hs : List Nat) (u : State) (g : State → Nat → State), (∀ v x, ∃ m p, g v x = { v with mem := m, poison := p }) →
      ∃ m p, hs.foldl g u = { u with mem := m, poison := p } := by
    intro hs
    induction hs with
    | nil => intro u g _; exact ⟨u.mem, u.poison, rfl⟩
    | cons x hs ih =>
      intro u g hg
      obtain ⟨m, p, e⟩ := hg u x
      obtain ⟨m2, p2, e2⟩ := ih (g u x) g hg
      exact ⟨m2, p2, by rw [List.foldl_cons, e2, e]⟩
  apply key
  intro v x
  split
  · exact ⟨_, _, rfl⟩
  · exact ⟨v.mem, v.poison, rfl⟩

/-- A translation cached (R178). -/
theorem tlbInsert_only (s : State) (e : TlbEntry) : ∃ f t, s.tlbInsert e = { s with free := f, tlb := t } := by
  unfold State.tlbInsert
  dsimp only
  split
  · exact ⟨s.free, _, rfl⟩
  · exact ⟨_, _, rfl⟩

/-- A translation changes its cache and the count of free values alone (R178). -/
theorem translate_only (s : State) (die asid root va : Nat) (k : Kind) :
    ∃ f t, (s.translate die asid root va k).2 = { s with free := f, tlb := t } := by
  unfold State.translate
  split
  · exact ⟨s.free, s.tlb, rfl⟩
  · split
    · exact tlbInsert_only _ _
    · exact ⟨s.free, s.tlb, rfl⟩

/-- The translations of an access change the cache and the count of free values alone. -/
theorem transAll_only (die asid root : Nat) (k : Kind) (ps : List (Nat × Nat)) (s : State) :
    ∃ f t, (State.transAll die asid root k ps s).1 = { s with free := f, tlb := t } := by
  induction ps generalizing s with
  | nil => exact ⟨s.free, s.tlb, rfl⟩
  | cons x ps ih =>
    obtain ⟨va, n⟩ := x
    obtain ⟨f, t, e⟩ := translate_only s die asid root va k
    obtain ⟨f2, t2, e2⟩ := ih (s.translate die asid root va k).2
    unfold State.transAll
    dsimp only
    split
    · exact ⟨f, t, e⟩
    · split
      · exact ⟨f2, t2, by rw [e2, e]⟩
      · exact ⟨f2, t2, by rw [e2, e]⟩

/-- A flag of a descriptor lies in memory (Table 11-1). -/
theorem seqFlag_only (s : State) (root : Nat) (d : SeqDesc) (bit : Nat) (b : Bool) :
    ∃ m q, s.seqFlag root d bit b = { s with mem := m, poison := q } := by
  unfold State.seqFlag
  split
  · exact vwrite_only _ _ _ _
  · exact ⟨s.mem, s.poison, rfl⟩

/-- A field of a descriptor lies in memory (Table 11-1). -/
theorem seqField_only (s : State) (root : Nat) (d : SeqDesc) (lo n v : Nat) :
    ∃ m q, s.seqField root d lo n v = { s with mem := m, poison := q } := by
  unfold State.seqField
  split
  · exact vwrite_only _ _ _ _
  · exact ⟨s.mem, s.poison, rfl⟩

/-- The table in memory follows the scope unit (R305). -/
theorem scopeSync_only (s : State) (n : Nat) : ∃ m p, s.scopeSync n = { s with mem := m, poison := p } := sysWrite_only _ _ _

/-- An entry of the scope table freed. -/
theorem scopeDrop_only (s : State) (n : Nat) : ∃ x m p, s.scopeDrop n = { s with scopes := s.scopes.del n, cancels := x, mem := m, poison := p } := by
  unfold State.scopeDrop
  obtain ⟨m, p, h⟩ := scopeSync_only ({ s with
    scopes := s.scopes.del n
    cancels := s.cancels.map (fun c => if c.2.target = n then (c.1, { c.2 with target := 0 }) else c) } : State) n
  exact ⟨_, m, p, h⟩

/-- Free(n) changes the scope table and the targets of CANCELs alone (R307, R311). -/
theorem scopeFree_only (s : State) (n : Nat) : ∃ c x m p, s.scopeFree n = { s with scopes := c, cancels := x, mem := m, poison := p } := by
  unfold State.scopeFree
  generalize 16 = f
  induction f generalizing s n with
  | zero => exact ⟨s.scopes, s.cancels, s.mem, s.poison, rfl⟩
  | succ f ih =>
    rw [State.scopeFreeFuel]
    obtain ⟨x, m, p, h⟩ := scopeDrop_only s n
    split
    · exact ⟨s.scopes, s.cancels, s.mem, s.poison, rfl⟩
    · split
      · split
        · exact ⟨_, x, m, p, h⟩
        · rename_i e _ _ _ q _
          obtain ⟨m2, p2, h2⟩ := setScope_only (s.scopeDrop n) e.parent { q with live := q.live - 1 }
          obtain ⟨c3, x3, m3, p3, h3⟩ := ih ((s.scopeDrop n).setScope e.parent { q with live := q.live - 1 }) e.parent
          exact ⟨c3, x3, m3, p3, by rw [h3, h2, h]⟩
      · exact ⟨s.scopes, s.cancels, s.mem, s.poison, rfl⟩

/-- Closing a scope changes the scope table and the targets of CANCELs alone (R307). -/
theorem scopeCloseAt_only (s : State) (n : Nat) : ∃ c x m p, s.scopeCloseAt n = { s with scopes := c, cancels := x, mem := m, poison := p } := by
  unfold State.scopeCloseAt
  split
  · rename_i e _
    obtain ⟨m, p, h⟩ := setScope_only s n { e with closed := true }
    obtain ⟨c2, x2, m2, p2, h2⟩ := scopeFree_only (s.setScope n { e with closed := true }) n
    exact ⟨c2, x2, m2, p2, by rw [h2, h]⟩
  · exact ⟨s.scopes, s.cancels, s.mem, s.poison, rfl⟩

/-- A task changed, and nothing else. -/
theorem updTask_only (s : State) (id : Nat) (f : Task → Task) : ∃ tk, s.updTask id f = { s with tasks := tk } := by
  unfold State.updTask
  split
  · exact ⟨_, rfl⟩
  · exact ⟨s.tasks, rfl⟩

/-- Inheritance changes the inherited priorities alone (R266). -/
theorem inheritAll_only (s : State) : ∃ st tk, s.inheritAll = { s with strands := st, tasks := tk } ∧
    ∀ n, ∃ i, s.inheritAll.strand n = { s.strand n with inherit := i } := by
  have base : ∀ {β : Type} (P : State → Prop) (g : State → β → State), (∀ u x, P u → P (g u x)) → ∀ (l : List β) u, P u → P (l.foldl g u) := by
    intro β P g hg l
    induction l with
    | nil => intro u h; exact h
    | cons x l ih => intro u h; exact ih _ (hg _ _ h)
  let P : State → Prop := fun u => (∃ st tk, u = { s with strands := st, tasks := tk }) ∧ ∀ n, ∃ i, u.strand n = { s.strand n with inherit := i }
  have upd : ∀ (u : State) (sid p : Nat), P u → P (u.updStrand sid (fun t => { t with inherit := p })) := by
    rintro u sid p ⟨⟨st, tk, rfl⟩, h⟩
    refine ⟨⟨_, _, rfl⟩, fun n => ?_⟩
    rw [strand_updStrand]
    split
    · rename_i e
      subst e
      obtain ⟨i, hi⟩ := h n
      exact ⟨p, by rw [hi]⟩
    · exact h n
  have lend : ∀ (u : State) (sid task : Nat), P u → P (u.lend sid task) := by
    intro u sid task hu
    unfold State.lend
    dsimp only
    split
    · exact upd _ _ _ hu
    · obtain ⟨⟨st, tk, e⟩, h⟩ := hu
      obtain ⟨tk2, h2⟩ := updTask_only u task (fun k => { k with saved := k.saved.map (fun x => if x.sid = sid then { x with strand := { x.strand with inherit := u.lentTo sid task } } else x) })
      rw [h2]
      exact ⟨⟨st, tk2, by rw [e]⟩, h⟩
  have it : ∀ (f : State → State), (∀ u, P u → P (f u)) → ∀ n u, P u → P (iter f n u) := by
    intro f hf n
    induction n with
    | zero => intro u h; exact h
    | succ n ih => intro u h; unfold iter; exact ih _ (hf _ h)
  have all : P s.inheritAll := by
    unfold State.inheritAll
    dsimp only
    apply it
    · intro u hu
      exact base P _ (fun v x hv => lend _ _ _ hv) _ _ hu
    · refine base P _ ?_ _ _ ⟨⟨s.strands, s.tasks, rfl⟩, fun n => ⟨(s.strand n).inherit, rfl⟩⟩
      intro v x hv
      split
      · exact hv
      · exact upd _ _ _ hv
  obtain ⟨⟨st, tk, e⟩, h⟩ := all
  exact ⟨st, tk, e, h⟩

end Sys2Proof.Machine
end

