-- ==== Sys2Proof/Laws/Access.lean ====
section
/-! SUPPORT. One lemma for each shared operation of the accesses: their addresses and forms, their places, what their reads answer, the
L1 and the translation of their pages, and the tests of the waits. -/

namespace Sys2Proof.Machine

open Sys2Proof Sys2Proof.Spec

/-- The number read from a field of a bit vector as a signed one. -/
theorem signedN_toInt (n : Nat) (hn : 0 < n) (x : BitVec n) : signedN n x.toNat = x.toInt := by
  simp only [signedN, BitVec.toInt_eq_toNat_cond]
  have := x.isLt
  obtain ⟨m, rfl⟩ : ∃ m, n = m + 1 := ⟨n - 1, by omega⟩
  rw [Nat.mod_eq_of_lt this]
  simp only [Nat.add_sub_cancel]
  have e : (2 * x.toNat < 2 ^ (m+1)) = (x.toNat < 2 ^ m) := by
    rw [pow_succ]; apply propext; omega
  simp only [e]
  split <;> simp

/-- The address of an access is its base plus its sign-extended offset, modulo 2^64 (R163). -/
theorem effAddr_eq_ea {n : Nat} (hn : 0 < n) (b : Word) (off : BitVec n) : effAddr b n off.toNat = ea b off := by
  simp only [effAddr, ea, signedN_toInt n hn, codeN]
  have : (b + off.signExtend 64) = BitVec.ofInt 64 ((b.toNat : Int) + off.toInt) := by
    apply BitVec.eq_of_toInt_eq
    rw [BitVec.toInt_add, BitVec.toInt_ofInt, BitVec.toInt_signExtend]
    by_cases h : 64 ≤ n
    · rw [min_eq_left h, ]
      rw [Int.add_bmod_bmod, BitVec.toInt_eq_toNat_bmod b, Int.bmod_add_bmod]
    · rw [min_eq_right (by omega), BitVec.toInt_eq_toNat_bmod b]
      rw [Int.bmod_add_bmod]
      congr 1
      rw [BitVec.toInt_bmod_cancel]
  rw [this, BitVec.toNat_ofInt]

/-- The bytes of a scalar load (Table 14-9). -/
theorem loadForm_size (k : Nat) (h : k < 7) : (loadForm k).size = bytesOf k := by
  interval_cases k <;> rfl

/-- A scalar access moves bytes. -/
theorem bytesOf_pos (k : Nat) : 0 < bytesOf k := by unfold bytesOf; split <;> decide

/-- The extension of a scalar load (Table 14-9). -/
theorem loadForm_extend (k : Nat) (bs : List Byte) (h : k < 7) : (loadForm k).extend bs = extended k (leNat bs) := by
  have aux : ∀ n, 0 < n → n ≤ 64 → BitVec.ofNat 64 (codeN 64 (signedN n (leNat bs))) = (BitVec.ofNat n (leNat bs)).signExtend 64 := by
    intro n h0 h1
    have : signedN n (leNat bs) = signedN n ((BitVec.ofNat n (leNat bs)).toNat) := by simp [signedN]
    conv_lhs => rw [this]
    rw [signedN_toInt n h0, BitVec.signExtend]
    apply BitVec.eq_of_toNat_eq
    simp [codeN, BitVec.toNat_ofInt]
    have := Int.emod_lt_of_pos (BitVec.ofNat n (leNat bs)).toInt (show (0:Int) < 18446744073709551616 by decide)
    have := Int.emod_nonneg (BitVec.ofNat n (leNat bs)).toInt (show (18446744073709551616:Int) ≠ 0 by decide)
    omega
  interval_cases k <;> simp only [loadForm, LoadForm.extend, extended] <;> first | rfl | (apply aux <;> norm_num)

/-- A read gives as many bytes as it asks for. -/
theorem bytesAt_len (s : State) (a n) : (s.bytesAt a n).length = n := cellsGet_length _ _ _

/-- The address of an LM access. -/
theorem lmAddr_eq_ea (o : LMFields) (t : Strand) : lmAddr o t = ea (t.val o.base.toNat) o.off := effAddr_eq_ea (by decide) _ _

/-- A load that nothing of the queue holds lands its results (R441). -/
theorem reach_of_load (s : State) (addr n d f v spec acq slot fill ps e ti) (h : unheld s addr n ps acq) :
  s.reach ⟨addr, n, slot, .load d f v spec acq, fill⟩ ps e ti = if e then s.landEntry (v - s.me.vcc) (s.loadVals (earlier s).wq (.load d f v spec acq) ps) ti .data
    else (s.loadVals (earlier s).wq (.load d f v spec acq) ps).foldl (fun s x => s.land (v - s.me.vcc) x) s := by
  obtain ⟨h1, h2⟩ := h
  unfold earlier at h1 h2
  simp [State.reach, AccOp.landing, h1, h2, earlier]; rfl

/-- A row load that nothing of the queue holds lands its results (R446). -/
theorem reach_of_loadRow (s : State) (addr n d m v slot fill ps e ti) (h : unheld s addr n ps false) :
  s.reach ⟨addr, n, slot, .loadRow d m v, fill⟩ ps e ti = if e then s.landEntry (v - s.me.vcc) (s.loadVals (earlier s).wq (.loadRow d m v) ps) ti .data
    else (s.loadVals (earlier s).wq (.loadRow d m v) ps).foldl (fun s x => s.land (v - s.me.vcc) x) s := by
  obtain ⟨h1, h2⟩ := h
  unfold earlier at h1 h2
  simp [State.reach, AccOp.landing, h1, h2, earlier]; rfl

/-- A place on the chip lies below the device registers. -/
theorem place_low (s : State) (sid a n : Nat) (c : Nat) (h : s.place sid a n = .own c ∨ s.place sid a n = .peer c ∨ ∃ r, s.place sid a n = .am r c) :
   c % 2 ^ 48 < 2 ^ 40 := by
  have hs : isCtrl sid = false ∧ True := by
    unfold State.place at h
    by_cases hc : isCtrl sid = true
    · simp only [hc] at h
      split at h
      · split at h <;> simp at h
      · simp at h
    · exact ⟨by simpa using hc, trivial⟩
  have hlt : sid < 2 ^ 15 := by have := hs.1; simp [isCtrl] at this; omega
  have hg : gidOf sid < 4096 := by unfold gidOf; omega
  have hk : clusterOf sid < 512 := by unfold clusterOf; omega
  have h1 : ∀ g x, g < 8192 → x < 2 ^ 23 → (spadBase g + x) % 2 ^ 48 < 2 ^ 40 := by intro g x hg hx; unfold spadBase; omega
  have h2 : ∀ g x, g < 8192 → x < 2 ^ 23 → (amBase g + x) % 2 ^ 48 < 2 ^ 40 := by intro g x hg hx; unfold amBase; omega
  have hn := hs.1
  unfold State.place at h
  rw [hn] at h
  dsimp only at h
  rcases h with h | h | ⟨r, h⟩ <;> split_ifs at h <;> simp only [Place.own.injEq, Place.peer.injEq, Place.am.injEq] at h
  · rw [← h]; apply h1 <;> omega
  · rw [← h]; apply h1 <;> omega
  · rw [← h]; apply h1 <;> omega
  · rw [← h.2]; apply h2 <;> omega

/-- A place below the device registers is its own home. -/
theorem homeOf_low (c : Nat) (h : c % 2 ^ 48 < 2 ^ 40) : homeOf c = c ∧ targetOf (c % 2 ^ 48) = .hbm := by
  have : targetOf (c % 2 ^ 48) = .hbm := by unfold targetOf; rw [if_pos h]
  exact ⟨by unfold homeOf; rw [this], this⟩

/-- Whether a run of bytes has poison. -/
theorem any_poisonAt (s : State) (a n : Nat) : ((s.poisonAt a n).any id) = s.poisonIn a n := by
  unfold State.poisonAt State.poisonIn wordsOf
  rw [Bool.eq_iff_iff]
  simp only [List.any_eq_true, List.mem_map, mem_span]
  constructor
  · rintro ⟨b, ⟨x, hx, rfl⟩, h⟩
    refine ⟨x / 8, ?_, h⟩
    rw [if_neg (by omega), mem_span]
    omega
  · rintro ⟨w, hw, h⟩
    by_cases hn : n = 0
    · simp [hn] at hw
    · rw [if_neg hn, mem_span] at hw
      refine ⟨_, ⟨Nat.max a (8 * w), ?_, rfl⟩, ?_⟩
      · simp only [Nat.max_def]; split <;> omega
      · have : Nat.max a (8 * w) / 8 = w := by simp only [Nat.max_def]; split <;> omega
        rw [this]; exact h

/-- The bytes and the poison of one place. -/
theorem pieces_of_low (s : State) (c n : Nat) (h : c % 2 ^ 48 < 2 ^ 40) : s.readPieces [(c, n)] = s.bytesAt c n ∧ s.poisonPieces [(c, n)] = s.poisonAt c n := by
  have := homeOf_low c h
  simp only [State.readPieces, State.poisonPieces, List.foldr, this.1, this.2, List.append_nil, and_self]

/-- What a scalar load answers. -/
theorem loadVals_load (s : State) (d k v spec aq ps) (hk : k < 7) : s.loadVals (earlier s).wq (.load d (loadForm k) v spec aq) ps =
   [if (spec && ((seen s).poisonPieces ps).any id) = true then .g d 0 true else .g d (extended k (leNat ((seen s).readPieces ps))) (((seen s).poisonPieces ps).any id)] := by
  simp only [State.loadVals]
  rw [loadForm_extend k _ hk]; rfl

/-- An access that its place refuses traps with ACCV (R163). -/
theorem issueAccess_refused (s : State) (a n op am fill off) (h : s.place s.cur a n = .none ∨ ∃ r c, s.place s.cur a n = .am r c ∧ (am = false ∨ s.me.inWindow r = false ∨ s.me.inWindow ((a + n - 1 - 0x8000000) / 512) = false))
   (hop : op.isLoad = true) (hs : ∀ d f v sp aq, op = .load d f v sp aq → sp = false) : s.issueAccess a n op am fill off = s.raiseVa .accv a .load 0 := by
  have hop2 : ∀ x, ∀ f, s.failAccess ⟨a, n, s.slot, op.landAt x, f⟩ .accv a 0 = s.raiseVa .accv a .load 0 := by
    intro x f
    cases op <;> simp [AccOp.isLoad] at hop
    · rename_i d fm v sp aq
      have := hs _ _ _ _ _ rfl
      subst this
      simp [State.failAccess, AccOp.landAt, AccOp.trapKind, AccOp.kind]
    · simp [State.failAccess, AccOp.landAt, AccOp.trapKind, AccOp.kind]
  rcases h with h | ⟨r, c, h, hw⟩
  · simp only [State.issueAccess]; rw [h]; exact hop2 _ _
  · simp only [State.issueAccess]; rw [h]
    dsimp only
    have : (am && s.me.inWindow r && s.me.inWindow ((a + n - 1 - 0x8000000) / 512)) = false := by rcases hw with h | h | h <;> simp [h]
    rw [this]; simp only [Bool.false_eq_true, if_false]; exact hop2 _ _

/-- An access to a scratchpad, a peer window or the AM window goes on at its place, with its latency (R163, R441). -/
theorem issueAccess_reached (s : State) (a n op am fill off k e ti c) (h : (s.place s.cur a n = .own c ∧ k = op.latency.1 ∧ e = off.isSome) ∨ (s.place s.cur a n = .peer c ∧ k = op.latency.2.1 ∧ e = off.isSome) ∨
    (∃ r, s.place s.cur a n = .am r c ∧ am = true ∧ s.me.inWindow r = true ∧ s.me.inWindow ((a + n - 1 - 0x8000000) / 512) = true ∧ k = op.latency.2.2 ∧ e = true))
    (hti : ti = decide (k ≤ off.getD k)) : s.issueAccess a n op am fill off = s.reach ⟨a, n, s.slot, op.landAt (s.me.vcc + off.getD k), fill⟩ [(c, n)] e ti := by
  rcases h with ⟨h, rfl, rfl⟩ | ⟨h, rfl, rfl⟩ | ⟨r, h, h1, h2, h3, rfl, rfl⟩
  · simp only [State.issueAccess]; rw [h, hti]; simp
  · simp only [State.issueAccess]; rw [h, hti]; simp
  · simp only [State.issueAccess]; rw [h, hti]; dsimp only; simp [h1, h2, h3]

/-- An access that does not cross a page has one piece. -/
theorem pageCut_one (a n : Nat) (h : a % 65536 + n ≤ 65536) (h0 : 0 < n) : pageCut a n = [(a, n)] := by
  unfold pageCut
  rw [if_neg (by omega)]
  have : Nat.min n (65536 - a % 65536) = n := by apply Nat.min_eq_left; omega
  simp only [this, Nat.sub_self, ceilDiv]
  simp [span]

/-- Queued stores in place change memory alone. -/
theorem withQueued_frame (s : State) (wq : List WqItem) : (s.withQueued wq).free = s.free ∧ (s.withQueued wq).cores = s.cores := by
  unfold State.withQueued
  induction wq generalizing s with
  | nil => exact ⟨rfl, rfl⟩
  | cons i wq ih =>
    simp only [List.foldl_cons]
    have key : ∀ (ps : List (Nat × Nat)) (s : State) (bs : List Byte) (po : List Bool),
        (s.overlay ps bs po).free = s.free ∧ (s.overlay ps bs po).cores = s.cores := by
      intro ps; unfold State.overlay; induction ps with
      | nil => intro s bs po; exact ⟨rfl, rfl⟩
      | cons p ps ih => intro s bs po; exact ih (s.write (homeOf p.1) (bs.take p.2) (po.take p.2)) (bs.drop p.2) (po.drop p.2)
    obtain ⟨h1, h2⟩ := ih (match i.what with
      | .write _ ps (.store bs _ _) => s.overlay ps bs []
      | .write _ ps (.latch bs po) => s.overlay ps bs po
      | _ => s)
    refine ⟨h1.trans ?_, h2.trans ?_⟩ <;> split
    · exact (key _ _ _ _).1
    · exact (key _ _ _ _).1
    · rfl
    · exact (key _ _ _ _).2
    · exact (key _ _ _ _).2
    · rfl

/-- What a fill of the L1 leaves alone (R177). -/
theorem fillL1_frame (s : State) (sid asid ps) : let t := s.fillL1 sid asid ps
   t.mem = s.mem ∧ t.poison = s.poison ∧ t.strands = s.strands ∧ t.now = s.now ∧ ∀ c, (t.core c).cs = (s.core c).cs ∧ (t.core c).mq = (s.core c).mq := by
  intro t
  have base : ∀ {β : Type} (ls : List β) (g : State → β → State) (P : State → Prop), (∀ s x, P s → P (g s x)) → ∀ s, P s → P (ls.foldl g s) := by
    intro β ls g P hg; induction ls with
    | nil => intro s h; exact h
    | cons x ls ih => intro s h; exact ih _ (hg _ _ h)
  let P : State → Prop := fun t => t.mem = s.mem ∧ t.poison = s.poison ∧ t.strands = s.strands ∧ t.now = s.now ∧ ∀ c, (t.core c).cs = (s.core c).cs ∧ (t.core c).mq = (s.core c).mq
  show P t
  refine base ps _ P ?_ s ⟨rfl, rfl, rfl, rfl, fun c => ⟨rfl, rfl⟩⟩
  intro s1 p h1
  split
  · refine base _ _ P ?_ s1 h1
    intro s2 l h2
    dsimp only
    split
    · exact h2
    · refine ⟨h2.1, h2.2.1, h2.2.2.1, h2.2.2.2.1, fun c => ?_⟩
      have := h2.2.2.2.2 c
      rw [← this.1, ← this.2]
      simp only [State.core, State.updCore, Machine.get_set]
      split
      · rename_i hcc; rw [hcc]; unfold Core.l1Fill; dsimp only; split <;> exact ⟨rfl, rfl⟩
      · exact ⟨rfl, rfl⟩
  · exact h1

/-- A word of a scratchpad is reached at once. -/
theorem reachNow_scratch (s : State) (va c : Nat) (op : AccOp) (n : Nat) (h : s.place s.cur va n = .own c ∨ s.place s.cur va n = .peer c) :
   s.reachNow va n op = (s, .ok [(c, n)]) := by
  unfold State.reachNow
  rcases h with h | h <;> rw [h]

/-- The test of a SLEEP whose operands are right (R268). -/
theorem waitTest_sleep (s : State) (a imm) (n) (h : s.me.handler = none) (hs : s.sleepCount a imm = .ok n) :
    s.waitTest (.sleep a imm) = if s.me.timer.getD s.now + n ≤ s.now ∨ s.me.pass = .done then (true, s)
      else (false, s.updMe (fun t => { t with wait := .sleep (s.me.timer.getD s.now + n) })) := by
  rw [show s.waitTest (.sleep a imm) = if s.me.handler.isSome then (true, s) else match s.sleepCount a imm with
      | .error _ => (true, s)
      | .ok n =>
        let till := s.me.timer.getD s.now + n
        if till ≤ s.now ∨ s.me.pass = .done then (true, s)
        else (false, s.updMe (fun t => { t with wait := .sleep till })) from rfl, hs, h]
  rfl

/-- The test of a WAITW whose operands are right (R268). -/
theorem waitTest_waitw (s : State) (a b sc cond p w) (h : s.me.handler = none) (hs : s.readWord a.toNat b.toNat = .ok (p, w)) :
    s.waitTest (.waitw a b sc cond) = if s.me.pass = .done then (true, s)
      else if waitCond cond.toNat w (s.me.val b.toNat).toNat && !s.wordHeld s.cur (s.me.val a.toNat).toNat p then (true, s)
      else (false, s.updMe (fun t => { t with wait := .word p (s.me.val a.toNat).toNat (s.me.val b.toNat).toNat cond.toNat })) := by
  rw [show s.waitTest (.waitw a b sc cond) = if s.me.handler.isSome || s.me.pass = .done then (true, s)
    else match s.readWord a.toNat b.toNat with
      | .error _ => (true, s)
      | .ok (p, w) =>
        let x := (s.me.val b.toNat).toNat
        let va := (s.me.val a.toNat).toNat
        if waitCond cond.toNat w x && !s.wordHeld s.cur va p then (true, s)
        else (false, s.updMe (fun t => { t with wait := .word p va x cond.toNat })) from rfl, hs, h]
  simp

/-- An operation put in a copy channel (R199, R208). -/
theorem queuedCopy_eq (s : State) (ch op) : queuedCopy s ch op = s.pushCopy ch op := by
  unfold queuedCopy State.pushCopy State.newId State.updMe State.updCore
  rfl

/-- What an operation of a copy channel captures (R201). -/
theorem capturedCopy_copyOp (s : State) (o k p) : CapturedCopy s o (s.copyOp o k p) := by
  repeat' first | exact rfl | refine ⟨rfl, ?_⟩

end Sys2Proof.Machine
end

