-- ==== Sys2Proof/Laws/Encoding.lean ====
section
/-! SUPPORT. Lemmas on packed words: a field reads back what was packed there, and the fields of each format of chapter 14 read
back a packed record of them. -/

namespace Sys2Proof

theorem pack_lo (n v : Nat) (fs : List (Nat × Nat)) : pack ((n, v) :: fs) % 2 ^ n = v % 2 ^ n := by
  simp only [pack, Nat.add_mul_mod_self_left, Nat.mod_mod]

theorem pack_shift (n v : Nat) (fs : List (Nat × Nat)) (lo : Nat) (h : n ≤ lo) :
    pack ((n, v) :: fs) >>> lo = pack fs >>> (lo - n) := by
  obtain ⟨k, rfl⟩ := Nat.exists_eq_add_of_le h
  have top : pack ((n, v) :: fs) >>> n = pack fs := by
    simp only [pack, Nat.shiftRight_eq_div_pow]
    rw [Nat.add_mul_div_left _ _ (Nat.two_pow_pos n), Nat.div_eq_of_lt (Nat.mod_lt _ (Nat.two_pow_pos n)), Nat.zero_add]
  rw [Nat.shiftRight_add, top, Nat.add_sub_cancel_left]

theorem bits_skip (n v : Nat) (fs : List (Nat × Nat)) (lo m : Nat) (h : n ≤ lo) :
    bits (pack ((n, v) :: fs)) lo m = bits (pack fs) (lo - n) m := by
  simp only [bits, pack_shift _ _ _ _ h]

theorem bits_here (n v : Nat) (fs : List (Nat × Nat)) : bits (pack ((n, v) :: fs)) 0 n = BitVec.ofNat n v :=
  BitVec.eq_of_toNat_eq (by simp only [bits, Nat.shiftRight_zero, BitVec.toNat_ofNat, pack_lo])

theorem bitAt_skip (n v : Nat) (fs : List (Nat × Nat)) (lo : Nat) (h : n ≤ lo) :
    bitAt (pack ((n, v) :: fs)) lo = bitAt (pack fs) (lo - n) := by
  simp only [bitAt, pack_shift _ _ _ _ h]

theorem bitAt_here (b : Bool) (fs : List (Nat × Nat)) : bitAt (pack ((1, b.toNat) :: fs)) 0 = b := by
  have h := pack_lo 1 b.toNat fs
  simp only [Nat.pow_one] at h
  simp only [bitAt, Nat.shiftRight_zero, h]
  cases b <;> rfl

theorem pack_op8 (v : Nat) (fs : List (Nat × Nat)) : pack ((8, v) :: fs) % 256 = v % 256 := pack_lo 8 v fs
theorem pack_op6 (v : Nat) (fs : List (Nat × Nat)) : pack ((6, v) :: fs) % 64 = v % 64 := pack_lo 6 v fs

theorem vrOf_packV (op : Nat) (o : VFields) : vrOf (packV op o) = o := by
  simp only [vrOf, packV, guardAt, bits_skip, bits_here, bitAt_skip, bitAt_here, Nat.reduceLeDiff, Nat.reduceSub, Nat.reduceAdd,
    BitVec.ofNat_toNat, BitVec.setWidth_eq]

theorem mmOf_packM (op : Nat) (o : MFields) : mmOf (packM op o) = o := by
  simp only [mmOf, packM, bits_skip, bits_here, Nat.reduceLeDiff, Nat.reduceSub, BitVec.ofNat_toNat, BitVec.setWidth_eq]

theorem lmOf_packLM (op : Nat) (o : LMFields) : lmOf (packLM op o) = o := by
  simp only [lmOf, packLM, guardAt, bits_skip, bits_here, bitAt_skip, bitAt_here, Nat.reduceLeDiff, Nat.reduceSub, Nat.reduceAdd,
    BitVec.ofNat_toNat, BitVec.setWidth_eq]

theorem waOf_packWA (op : Nat) (o : WAFields) : waOf (packWA op o) = o := by
  simp only [waOf, packWA, bits_skip, bits_here, Nat.reduceLeDiff, Nat.reduceSub, BitVec.ofNat_toNat, BitVec.setWidth_eq]

theorem xcOf_packX (op : Nat) (o : XFields) : xcOf (packX op o) = o := by
  simp only [xcOf, packX, bits_skip, bits_here, Nat.reduceLeDiff, Nat.reduceSub, BitVec.ofNat_toNat, BitVec.setWidth_eq]

theorem ncOf_packN (op : Nat) (o : NFields) : ncOf (packN op o) = o := by
  simp only [ncOf, packN, bits_skip, bits_here, Nat.reduceLeDiff, Nat.reduceSub, BitVec.ofNat_toNat, BitVec.setWidth_eq]

theorem grOf_packG (op : Nat) (r : GFields) : grOf (packG op r) = r := by
  simp only [grOf, packG, bits_skip, bits_here, Nat.reduceLeDiff, Nat.reduceSub, BitVec.ofNat_toNat, BitVec.setWidth_eq]

/-- A well-formed instruction is accepted as the instruction of its own word. -/
theorem accept_self (i : Instr) (h : i.wf = true) : accept i (encodeWord i) = some i := by
  simp only [accept, h, BEq.rfl, Bool.and_self, ↓reduceIte]

theorem none_or (o : Option Instr) : (none <|> o) = o := rfl

/-- What `accept` answers is well formed and has the word that was decoded. -/
theorem accept_some {i j : Instr} {w : Nat} (h : accept i w = some j) : j = i ∧ i.wf = true ∧ encodeWord i = w := by
  unfold accept at h
  split at h
  · rename_i c
    simp only [Bool.and_eq_true, beq_iff_eq] at c
    exact ⟨(Option.some.inj h).symm, c.1, c.2⟩
  · cases h

/-- `accept` refuses an instruction that is not well formed. -/
theorem accept_bad {i : Instr} {w : Nat} (h : i.wf = false) : accept i w = none := by
  simp only [accept, h, Bool.false_and, Bool.false_eq_true, ↓reduceIte]

/-- `accept` refuses a word that differs from the candidate's own. -/
theorem accept_other {i : Instr} {w : Nat} (h : encodeWord i ≠ w) : accept i w = none := by
  unfold accept
  rw [if_neg]
  simp only [Bool.and_eq_true, beq_iff_eq, not_and]
  exact fun _ => h

end Sys2Proof
end

