-- ==== Sys2Proof/Laws/PerInstr.lean ====
section
/-! SUPPORT. The family RoundTrip: for each instruction, the decoder of its slot, or of graph records, reads its own word back as it. -/

namespace Sys2Proof.Laws.RoundTrip

open Sys2Proof

/-- A well-formed instruction with an encoding decodes from its own word to itself. -/
def Statement (i : Instr) : Prop :=
  i.wf = true →
    (∀ k : Slot, i.slot? = some k → decodeSlot k (encodeWord i) = some i) ∧
    (i.isRecord = true → decodeG (encodeWord i) = some i)

theorem of_slot {i : Instr} {k : Slot} (hs : i.slot? = some k) (hr : i.isRecord = false)
    (hd : i.wf = true → decodeSlot k (encodeWord i) = accept i (encodeWord i)) : Statement i := by
  intro h
  refine ⟨fun j hj => ?_, fun c => ?_⟩
  · rw [hs] at hj
    cases hj
    rw [hd h, accept_self i h]
  · rw [hr] at c
    cases c

theorem of_record {i : Instr} (hs : i.slot? = none)
    (hd : i.wf = true → decodeG (encodeWord i) = accept i (encodeWord i)) : Statement i := by
  intro h
  refine ⟨fun j hj => ?_, fun _ => ?_⟩
  · rw [hs] at hj
    cases hj
  · rw [hd h, accept_self i h]

theorem of_event {i : Instr} (hs : i.slot? = none) (hr : i.isRecord = false) : Statement i := by
  intro _
  refine ⟨fun j hj => ?_, fun c => ?_⟩
  · rw [hs] at hj
    cases hj
  · rw [hr] at c
    cases c

theorem add (G : Guard) (w : Bool) (d : BitVec 6) (a : BitVec 6) (b : BitVec 6) : Statement (.add G w d a b) := of_slot (k := .s) rfl rfl (fun _ => by
  have e : encodeWord (.add G w d a b) = pack [(8, 1), (6, d.toNat), (6, a.toNat), (6, b.toNat), (4, G.p.toNat), (1, G.neg.toNat), (1, w.toNat), (16, 0)] := rfl
  generalize encodeWord (.add G w d a b) = x at *
  have h0 : x % 256 = 1 := by rw [e]; exact pack_op8 _ _
  have f : guardAt x 26 = G ∧ bitAt x 31 = w ∧ bits x 8 6 = d ∧ bits x 14 6 = a ∧ bits x 20 6 = b := by
    rw [e]
    simp only [guardAt, Nat.reduceAdd, bits_skip, bits_here, BitVec.ofNat_toNat, BitVec.setWidth_eq, bitAt_skip, bitAt_here, Nat.reduceLeDiff, Nat.reduceSub, and_self]
  obtain ⟨f0, f1, f2, f3, f4⟩ := f
  have hd : decodeS x = accept (.add (guardAt x 26) (bitAt x 31) (bits x 8 6) (bits x 14 6) (bits x 20 6)) x := by unfold decodeS; rw [h0]; rfl
  rw [f0, f1, f2, f3, f4] at hd
  exact hd)

theorem sub (G : Guard) (w : Bool) (d : BitVec 6) (a : BitVec 6) (b : BitVec 6) : Statement (.sub G w d a b) := of_slot (k := .s) rfl rfl (fun _ => by
  have e : encodeWord (.sub G w d a b) = pack [(8, 2), (6, d.toNat), (6, a.toNat), (6, b.toNat), (4, G.p.toNat), (1, G.neg.toNat), (1, w.toNat), (16, 0)] := rfl
  generalize encodeWord (.sub G w d a b) = x at *
  have h0 : x % 256 = 2 := by rw [e]; exact pack_op8 _ _
  have f : guardAt x 26 = G ∧ bitAt x 31 = w ∧ bits x 8 6 = d ∧ bits x 14 6 = a ∧ bits x 20 6 = b := by
    rw [e]
    simp only [guardAt, Nat.reduceAdd, bits_skip, bits_here, BitVec.ofNat_toNat, BitVec.setWidth_eq, bitAt_skip, bitAt_here, Nat.reduceLeDiff, Nat.reduceSub, and_self]
  obtain ⟨f0, f1, f2, f3, f4⟩ := f
  have hd : decodeS x = accept (.sub (guardAt x 26) (bitAt x 31) (bits x 8 6) (bits x 14 6) (bits x 20 6)) x := by unfold decodeS; rw [h0]; rfl
  rw [f0, f1, f2, f3, f4] at hd
  exact hd)

theorem mul (G : Guard) (w : Bool) (d : BitVec 6) (a : BitVec 6) (b : BitVec 6) : Statement (.mul G w d a b) := of_slot (k := .s) rfl rfl (fun _ => by
  have e : encodeWord (.mul G w d a b) = pack [(8, 3), (6, d.toNat), (6, a.toNat), (6, b.toNat), (4, G.p.toNat), (1, G.neg.toNat), (1, w.toNat), (16, 0)] := rfl
  generalize encodeWord (.mul G w d a b) = x at *
  have h0 : x % 256 = 3 := by rw [e]; exact pack_op8 _ _
  have f : guardAt x 26 = G ∧ bitAt x 31 = w ∧ bits x 8 6 = d ∧ bits x 14 6 = a ∧ bits x 20 6 = b := by
    rw [e]
    simp only [guardAt, Nat.reduceAdd, bits_skip, bits_here, BitVec.ofNat_toNat, BitVec.setWidth_eq, bitAt_skip, bitAt_here, Nat.reduceLeDiff, Nat.reduceSub, and_self]
  obtain ⟨f0, f1, f2, f3, f4⟩ := f
  have hd : decodeS x = accept (.mul (guardAt x 26) (bitAt x 31) (bits x 8 6) (bits x 14 6) (bits x 20 6)) x := by unfold decodeS; rw [h0]; rfl
  rw [f0, f1, f2, f3, f4] at hd
  exact hd)

theorem mulh (G : Guard) (w : Bool) (d : BitVec 6) (a : BitVec 6) (b : BitVec 6) : Statement (.mulh G w d a b) := of_slot (k := .s) rfl rfl (fun _ => by
  have e : encodeWord (.mulh G w d a b) = pack [(8, 4), (6, d.toNat), (6, a.toNat), (6, b.toNat), (4, G.p.toNat), (1, G.neg.toNat), (1, w.toNat), (16, 0)] := rfl
  generalize encodeWord (.mulh G w d a b) = x at *
  have h0 : x % 256 = 4 := by rw [e]; exact pack_op8 _ _
  have f : guardAt x 26 = G ∧ bitAt x 31 = w ∧ bits x 8 6 = d ∧ bits x 14 6 = a ∧ bits x 20 6 = b := by
    rw [e]
    simp only [guardAt, Nat.reduceAdd, bits_skip, bits_here, BitVec.ofNat_toNat, BitVec.setWidth_eq, bitAt_skip, bitAt_here, Nat.reduceLeDiff, Nat.reduceSub, and_self]
  obtain ⟨f0, f1, f2, f3, f4⟩ := f
  have hd : decodeS x = accept (.mulh (guardAt x 26) (bitAt x 31) (bits x 8 6) (bits x 14 6) (bits x 20 6)) x := by unfold decodeS; rw [h0]; rfl
  rw [f0, f1, f2, f3, f4] at hd
  exact hd)

theorem mulhn (G : Guard) (w : Bool) (d : BitVec 6) (a : BitVec 6) (b : BitVec 6) : Statement (.mulhn G w d a b) := of_slot (k := .s) rfl rfl (fun _ => by
  have e : encodeWord (.mulhn G w d a b) = pack [(8, 5), (6, d.toNat), (6, a.toNat), (6, b.toNat), (4, G.p.toNat), (1, G.neg.toNat), (1, w.toNat), (16, 0)] := rfl
  generalize encodeWord (.mulhn G w d a b) = x at *
  have h0 : x % 256 = 5 := by rw [e]; exact pack_op8 _ _
  have f : guardAt x 26 = G ∧ bitAt x 31 = w ∧ bits x 8 6 = d ∧ bits x 14 6 = a ∧ bits x 20 6 = b := by
    rw [e]
    simp only [guardAt, Nat.reduceAdd, bits_skip, bits_here, BitVec.ofNat_toNat, BitVec.setWidth_eq, bitAt_skip, bitAt_here, Nat.reduceLeDiff, Nat.reduceSub, and_self]
  obtain ⟨f0, f1, f2, f3, f4⟩ := f
  have hd : decodeS x = accept (.mulhn (guardAt x 26) (bitAt x 31) (bits x 8 6) (bits x 14 6) (bits x 20 6)) x := by unfold decodeS; rw [h0]; rfl
  rw [f0, f1, f2, f3, f4] at hd
  exact hd)

theorem div (G : Guard) (w : Bool) (d : BitVec 6) (a : BitVec 6) (b : BitVec 6) : Statement (.div G w d a b) := of_slot (k := .s) rfl rfl (fun _ => by
  have e : encodeWord (.div G w d a b) = pack [(8, 6), (6, d.toNat), (6, a.toNat), (6, b.toNat), (4, G.p.toNat), (1, G.neg.toNat), (1, w.toNat), (16, 0)] := rfl
  generalize encodeWord (.div G w d a b) = x at *
  have h0 : x % 256 = 6 := by rw [e]; exact pack_op8 _ _
  have f : guardAt x 26 = G ∧ bitAt x 31 = w ∧ bits x 8 6 = d ∧ bits x 14 6 = a ∧ bits x 20 6 = b := by
    rw [e]
    simp only [guardAt, Nat.reduceAdd, bits_skip, bits_here, BitVec.ofNat_toNat, BitVec.setWidth_eq, bitAt_skip, bitAt_here, Nat.reduceLeDiff, Nat.reduceSub, and_self]
  obtain ⟨f0, f1, f2, f3, f4⟩ := f
  have hd : decodeS x = accept (.div (guardAt x 26) (bitAt x 31) (bits x 8 6) (bits x 14 6) (bits x 20 6)) x := by unfold decodeS; rw [h0]; rfl
  rw [f0, f1, f2, f3, f4] at hd
  exact hd)

theorem divn (G : Guard) (w : Bool) (d : BitVec 6) (a : BitVec 6) (b : BitVec 6) : Statement (.divn G w d a b) := of_slot (k := .s) rfl rfl (fun _ => by
  have e : encodeWord (.divn G w d a b) = pack [(8, 7), (6, d.toNat), (6, a.toNat), (6, b.toNat), (4, G.p.toNat), (1, G.neg.toNat), (1, w.toNat), (16, 0)] := rfl
  generalize encodeWord (.divn G w d a b) = x at *
  have h0 : x % 256 = 7 := by rw [e]; exact pack_op8 _ _
  have f : guardAt x 26 = G ∧ bitAt x 31 = w ∧ bits x 8 6 = d ∧ bits x 14 6 = a ∧ bits x 20 6 = b := by
    rw [e]
    simp only [guardAt, Nat.reduceAdd, bits_skip, bits_here, BitVec.ofNat_toNat, BitVec.setWidth_eq, bitAt_skip, bitAt_here, Nat.reduceLeDiff, Nat.reduceSub, and_self]
  obtain ⟨f0, f1, f2, f3, f4⟩ := f
  have hd : decodeS x = accept (.divn (guardAt x 26) (bitAt x 31) (bits x 8 6) (bits x 14 6) (bits x 20 6)) x := by unfold decodeS; rw [h0]; rfl
  rw [f0, f1, f2, f3, f4] at hd
  exact hd)

theorem rem (G : Guard) (w : Bool) (d : BitVec 6) (a : BitVec 6) (b : BitVec 6) : Statement (.rem G w d a b) := of_slot (k := .s) rfl rfl (fun _ => by
  have e : encodeWord (.rem G w d a b) = pack [(8, 8), (6, d.toNat), (6, a.toNat), (6, b.toNat), (4, G.p.toNat), (1, G.neg.toNat), (1, w.toNat), (16, 0)] := rfl
  generalize encodeWord (.rem G w d a b) = x at *
  have h0 : x % 256 = 8 := by rw [e]; exact pack_op8 _ _
  have f : guardAt x 26 = G ∧ bitAt x 31 = w ∧ bits x 8 6 = d ∧ bits x 14 6 = a ∧ bits x 20 6 = b := by
    rw [e]
    simp only [guardAt, Nat.reduceAdd, bits_skip, bits_here, BitVec.ofNat_toNat, BitVec.setWidth_eq, bitAt_skip, bitAt_here, Nat.reduceLeDiff, Nat.reduceSub, and_self]
  obtain ⟨f0, f1, f2, f3, f4⟩ := f
  have hd : decodeS x = accept (.rem (guardAt x 26) (bitAt x 31) (bits x 8 6) (bits x 14 6) (bits x 20 6)) x := by unfold decodeS; rw [h0]; rfl
  rw [f0, f1, f2, f3, f4] at hd
  exact hd)

theorem and (G : Guard) (w : Bool) (d : BitVec 6) (a : BitVec 6) (b : BitVec 6) : Statement (.and G w d a b) := of_slot (k := .s) rfl rfl (fun _ => by
  have e : encodeWord (.and G w d a b) = pack [(8, 9), (6, d.toNat), (6, a.toNat), (6, b.toNat), (4, G.p.toNat), (1, G.neg.toNat), (1, w.toNat), (16, 0)] := rfl
  generalize encodeWord (.and G w d a b) = x at *
  have h0 : x % 256 = 9 := by rw [e]; exact pack_op8 _ _
  have f : guardAt x 26 = G ∧ bitAt x 31 = w ∧ bits x 8 6 = d ∧ bits x 14 6 = a ∧ bits x 20 6 = b := by
    rw [e]
    simp only [guardAt, Nat.reduceAdd, bits_skip, bits_here, BitVec.ofNat_toNat, BitVec.setWidth_eq, bitAt_skip, bitAt_here, Nat.reduceLeDiff, Nat.reduceSub, and_self]
  obtain ⟨f0, f1, f2, f3, f4⟩ := f
  have hd : decodeS x = accept (.and (guardAt x 26) (bitAt x 31) (bits x 8 6) (bits x 14 6) (bits x 20 6)) x := by unfold decodeS; rw [h0]; rfl
  rw [f0, f1, f2, f3, f4] at hd
  exact hd)

theorem or (G : Guard) (w : Bool) (d : BitVec 6) (a : BitVec 6) (b : BitVec 6) : Statement (.or G w d a b) := of_slot (k := .s) rfl rfl (fun _ => by
  have e : encodeWord (.or G w d a b) = pack [(8, 10), (6, d.toNat), (6, a.toNat), (6, b.toNat), (4, G.p.toNat), (1, G.neg.toNat), (1, w.toNat), (16, 0)] := rfl
  generalize encodeWord (.or G w d a b) = x at *
  have h0 : x % 256 = 10 := by rw [e]; exact pack_op8 _ _
  have f : guardAt x 26 = G ∧ bitAt x 31 = w ∧ bits x 8 6 = d ∧ bits x 14 6 = a ∧ bits x 20 6 = b := by
    rw [e]
    simp only [guardAt, Nat.reduceAdd, bits_skip, bits_here, BitVec.ofNat_toNat, BitVec.setWidth_eq, bitAt_skip, bitAt_here, Nat.reduceLeDiff, Nat.reduceSub, and_self]
  obtain ⟨f0, f1, f2, f3, f4⟩ := f
  have hd : decodeS x = accept (.or (guardAt x 26) (bitAt x 31) (bits x 8 6) (bits x 14 6) (bits x 20 6)) x := by unfold decodeS; rw [h0]; rfl
  rw [f0, f1, f2, f3, f4] at hd
  exact hd)

theorem xor (G : Guard) (w : Bool) (d : BitVec 6) (a : BitVec 6) (b : BitVec 6) : Statement (.xor G w d a b) := of_slot (k := .s) rfl rfl (fun _ => by
  have e : encodeWord (.xor G w d a b) = pack [(8, 11), (6, d.toNat), (6, a.toNat), (6, b.toNat), (4, G.p.toNat), (1, G.neg.toNat), (1, w.toNat), (16, 0)] := rfl
  generalize encodeWord (.xor G w d a b) = x at *
  have h0 : x % 256 = 11 := by rw [e]; exact pack_op8 _ _
  have f : guardAt x 26 = G ∧ bitAt x 31 = w ∧ bits x 8 6 = d ∧ bits x 14 6 = a ∧ bits x 20 6 = b := by
    rw [e]
    simp only [guardAt, Nat.reduceAdd, bits_skip, bits_here, BitVec.ofNat_toNat, BitVec.setWidth_eq, bitAt_skip, bitAt_here, Nat.reduceLeDiff, Nat.reduceSub, and_self]
  obtain ⟨f0, f1, f2, f3, f4⟩ := f
  have hd : decodeS x = accept (.xor (guardAt x 26) (bitAt x 31) (bits x 8 6) (bits x 14 6) (bits x 20 6)) x := by unfold decodeS; rw [h0]; rfl
  rw [f0, f1, f2, f3, f4] at hd
  exact hd)

theorem andn (G : Guard) (w : Bool) (d : BitVec 6) (a : BitVec 6) (b : BitVec 6) : Statement (.andn G w d a b) := of_slot (k := .s) rfl rfl (fun _ => by
  have e : encodeWord (.andn G w d a b) = pack [(8, 12), (6, d.toNat), (6, a.toNat), (6, b.toNat), (4, G.p.toNat), (1, G.neg.toNat), (1, w.toNat), (16, 0)] := rfl
  generalize encodeWord (.andn G w d a b) = x at *
  have h0 : x % 256 = 12 := by rw [e]; exact pack_op8 _ _
  have f : guardAt x 26 = G ∧ bitAt x 31 = w ∧ bits x 8 6 = d ∧ bits x 14 6 = a ∧ bits x 20 6 = b := by
    rw [e]
    simp only [guardAt, Nat.reduceAdd, bits_skip, bits_here, BitVec.ofNat_toNat, BitVec.setWidth_eq, bitAt_skip, bitAt_here, Nat.reduceLeDiff, Nat.reduceSub, and_self]
  obtain ⟨f0, f1, f2, f3, f4⟩ := f
  have hd : decodeS x = accept (.andn (guardAt x 26) (bitAt x 31) (bits x 8 6) (bits x 14 6) (bits x 20 6)) x := by unfold decodeS; rw [h0]; rfl
  rw [f0, f1, f2, f3, f4] at hd
  exact hd)

theorem shl (G : Guard) (w : Bool) (d : BitVec 6) (a : BitVec 6) (b : BitVec 6) : Statement (.shl G w d a b) := of_slot (k := .s) rfl rfl (fun _ => by
  have e : encodeWord (.shl G w d a b) = pack [(8, 13), (6, d.toNat), (6, a.toNat), (6, b.toNat), (4, G.p.toNat), (1, G.neg.toNat), (1, w.toNat), (16, 0)] := rfl
  generalize encodeWord (.shl G w d a b) = x at *
  have h0 : x % 256 = 13 := by rw [e]; exact pack_op8 _ _
  have f : guardAt x 26 = G ∧ bitAt x 31 = w ∧ bits x 8 6 = d ∧ bits x 14 6 = a ∧ bits x 20 6 = b := by
    rw [e]
    simp only [guardAt, Nat.reduceAdd, bits_skip, bits_here, BitVec.ofNat_toNat, BitVec.setWidth_eq, bitAt_skip, bitAt_here, Nat.reduceLeDiff, Nat.reduceSub, and_self]
  obtain ⟨f0, f1, f2, f3, f4⟩ := f
  have hd : decodeS x = accept (.shl (guardAt x 26) (bitAt x 31) (bits x 8 6) (bits x 14 6) (bits x 20 6)) x := by unfold decodeS; rw [h0]; rfl
  rw [f0, f1, f2, f3, f4] at hd
  exact hd)

theorem shr (G : Guard) (w : Bool) (d : BitVec 6) (a : BitVec 6) (b : BitVec 6) : Statement (.shr G w d a b) := of_slot (k := .s) rfl rfl (fun _ => by
  have e : encodeWord (.shr G w d a b) = pack [(8, 14), (6, d.toNat), (6, a.toNat), (6, b.toNat), (4, G.p.toNat), (1, G.neg.toNat), (1, w.toNat), (16, 0)] := rfl
  generalize encodeWord (.shr G w d a b) = x at *
  have h0 : x % 256 = 14 := by rw [e]; exact pack_op8 _ _
  have f : guardAt x 26 = G ∧ bitAt x 31 = w ∧ bits x 8 6 = d ∧ bits x 14 6 = a ∧ bits x 20 6 = b := by
    rw [e]
    simp only [guardAt, Nat.reduceAdd, bits_skip, bits_here, BitVec.ofNat_toNat, BitVec.setWidth_eq, bitAt_skip, bitAt_here, Nat.reduceLeDiff, Nat.reduceSub, and_self]
  obtain ⟨f0, f1, f2, f3, f4⟩ := f
  have hd : decodeS x = accept (.shr (guardAt x 26) (bitAt x 31) (bits x 8 6) (bits x 14 6) (bits x 20 6)) x := by unfold decodeS; rw [h0]; rfl
  rw [f0, f1, f2, f3, f4] at hd
  exact hd)

theorem sar (G : Guard) (w : Bool) (d : BitVec 6) (a : BitVec 6) (b : BitVec 6) : Statement (.sar G w d a b) := of_slot (k := .s) rfl rfl (fun _ => by
  have e : encodeWord (.sar G w d a b) = pack [(8, 15), (6, d.toNat), (6, a.toNat), (6, b.toNat), (4, G.p.toNat), (1, G.neg.toNat), (1, w.toNat), (16, 0)] := rfl
  generalize encodeWord (.sar G w d a b) = x at *
  have h0 : x % 256 = 15 := by rw [e]; exact pack_op8 _ _
  have f : guardAt x 26 = G ∧ bitAt x 31 = w ∧ bits x 8 6 = d ∧ bits x 14 6 = a ∧ bits x 20 6 = b := by
    rw [e]
    simp only [guardAt, Nat.reduceAdd, bits_skip, bits_here, BitVec.ofNat_toNat, BitVec.setWidth_eq, bitAt_skip, bitAt_here, Nat.reduceLeDiff, Nat.reduceSub, and_self]
  obtain ⟨f0, f1, f2, f3, f4⟩ := f
  have hd : decodeS x = accept (.sar (guardAt x 26) (bitAt x 31) (bits x 8 6) (bits x 14 6) (bits x 20 6)) x := by unfold decodeS; rw [h0]; rfl
  rw [f0, f1, f2, f3, f4] at hd
  exact hd)

theorem rol (G : Guard) (w : Bool) (d : BitVec 6) (a : BitVec 6) (b : BitVec 6) : Statement (.rol G w d a b) := of_slot (k := .s) rfl rfl (fun _ => by
  have e : encodeWord (.rol G w d a b) = pack [(8, 16), (6, d.toNat), (6, a.toNat), (6, b.toNat), (4, G.p.toNat), (1, G.neg.toNat), (1, w.toNat), (16, 0)] := rfl
  generalize encodeWord (.rol G w d a b) = x at *
  have h0 : x % 256 = 16 := by rw [e]; exact pack_op8 _ _
  have f : guardAt x 26 = G ∧ bitAt x 31 = w ∧ bits x 8 6 = d ∧ bits x 14 6 = a ∧ bits x 20 6 = b := by
    rw [e]
    simp only [guardAt, Nat.reduceAdd, bits_skip, bits_here, BitVec.ofNat_toNat, BitVec.setWidth_eq, bitAt_skip, bitAt_here, Nat.reduceLeDiff, Nat.reduceSub, and_self]
  obtain ⟨f0, f1, f2, f3, f4⟩ := f
  have hd : decodeS x = accept (.rol (guardAt x 26) (bitAt x 31) (bits x 8 6) (bits x 14 6) (bits x 20 6)) x := by unfold decodeS; rw [h0]; rfl
  rw [f0, f1, f2, f3, f4] at hd
  exact hd)

theorem min (G : Guard) (w : Bool) (d : BitVec 6) (a : BitVec 6) (b : BitVec 6) : Statement (.min G w d a b) := of_slot (k := .s) rfl rfl (fun _ => by
  have e : encodeWord (.min G w d a b) = pack [(8, 17), (6, d.toNat), (6, a.toNat), (6, b.toNat), (4, G.p.toNat), (1, G.neg.toNat), (1, w.toNat), (16, 0)] := rfl
  generalize encodeWord (.min G w d a b) = x at *
  have h0 : x % 256 = 17 := by rw [e]; exact pack_op8 _ _
  have f : guardAt x 26 = G ∧ bitAt x 31 = w ∧ bits x 8 6 = d ∧ bits x 14 6 = a ∧ bits x 20 6 = b := by
    rw [e]
    simp only [guardAt, Nat.reduceAdd, bits_skip, bits_here, BitVec.ofNat_toNat, BitVec.setWidth_eq, bitAt_skip, bitAt_here, Nat.reduceLeDiff, Nat.reduceSub, and_self]
  obtain ⟨f0, f1, f2, f3, f4⟩ := f
  have hd : decodeS x = accept (.min (guardAt x 26) (bitAt x 31) (bits x 8 6) (bits x 14 6) (bits x 20 6)) x := by unfold decodeS; rw [h0]; rfl
  rw [f0, f1, f2, f3, f4] at hd
  exact hd)

theorem max (G : Guard) (w : Bool) (d : BitVec 6) (a : BitVec 6) (b : BitVec 6) : Statement (.max G w d a b) := of_slot (k := .s) rfl rfl (fun _ => by
  have e : encodeWord (.max G w d a b) = pack [(8, 18), (6, d.toNat), (6, a.toNat), (6, b.toNat), (4, G.p.toNat), (1, G.neg.toNat), (1, w.toNat), (16, 0)] := rfl
  generalize encodeWord (.max G w d a b) = x at *
  have h0 : x % 256 = 18 := by rw [e]; exact pack_op8 _ _
  have f : guardAt x 26 = G ∧ bitAt x 31 = w ∧ bits x 8 6 = d ∧ bits x 14 6 = a ∧ bits x 20 6 = b := by
    rw [e]
    simp only [guardAt, Nat.reduceAdd, bits_skip, bits_here, BitVec.ofNat_toNat, BitVec.setWidth_eq, bitAt_skip, bitAt_here, Nat.reduceLeDiff, Nat.reduceSub, and_self]
  obtain ⟨f0, f1, f2, f3, f4⟩ := f
  have hd : decodeS x = accept (.max (guardAt x 26) (bitAt x 31) (bits x 8 6) (bits x 14 6) (bits x 20 6)) x := by unfold decodeS; rw [h0]; rfl
  rw [f0, f1, f2, f3, f4] at hd
  exact hd)

theorem minn (G : Guard) (w : Bool) (d : BitVec 6) (a : BitVec 6) (b : BitVec 6) : Statement (.minn G w d a b) := of_slot (k := .s) rfl rfl (fun _ => by
  have e : encodeWord (.minn G w d a b) = pack [(8, 19), (6, d.toNat), (6, a.toNat), (6, b.toNat), (4, G.p.toNat), (1, G.neg.toNat), (1, w.toNat), (16, 0)] := rfl
  generalize encodeWord (.minn G w d a b) = x at *
  have h0 : x % 256 = 19 := by rw [e]; exact pack_op8 _ _
  have f : guardAt x 26 = G ∧ bitAt x 31 = w ∧ bits x 8 6 = d ∧ bits x 14 6 = a ∧ bits x 20 6 = b := by
    rw [e]
    simp only [guardAt, Nat.reduceAdd, bits_skip, bits_here, BitVec.ofNat_toNat, BitVec.setWidth_eq, bitAt_skip, bitAt_here, Nat.reduceLeDiff, Nat.reduceSub, and_self]
  obtain ⟨f0, f1, f2, f3, f4⟩ := f
  have hd : decodeS x = accept (.minn (guardAt x 26) (bitAt x 31) (bits x 8 6) (bits x 14 6) (bits x 20 6)) x := by unfold decodeS; rw [h0]; rfl
  rw [f0, f1, f2, f3, f4] at hd
  exact hd)

theorem maxn (G : Guard) (w : Bool) (d : BitVec 6) (a : BitVec 6) (b : BitVec 6) : Statement (.maxn G w d a b) := of_slot (k := .s) rfl rfl (fun _ => by
  have e : encodeWord (.maxn G w d a b) = pack [(8, 20), (6, d.toNat), (6, a.toNat), (6, b.toNat), (4, G.p.toNat), (1, G.neg.toNat), (1, w.toNat), (16, 0)] := rfl
  generalize encodeWord (.maxn G w d a b) = x at *
  have h0 : x % 256 = 20 := by rw [e]; exact pack_op8 _ _
  have f : guardAt x 26 = G ∧ bitAt x 31 = w ∧ bits x 8 6 = d ∧ bits x 14 6 = a ∧ bits x 20 6 = b := by
    rw [e]
    simp only [guardAt, Nat.reduceAdd, bits_skip, bits_here, BitVec.ofNat_toNat, BitVec.setWidth_eq, bitAt_skip, bitAt_here, Nat.reduceLeDiff, Nat.reduceSub, and_self]
  obtain ⟨f0, f1, f2, f3, f4⟩ := f
  have hd : decodeS x = accept (.maxn (guardAt x 26) (bitAt x 31) (bits x 8 6) (bits x 14 6) (bits x 20 6)) x := by unfold decodeS; rw [h0]; rfl
  rw [f0, f1, f2, f3, f4] at hd
  exact hd)

theorem sel (G : Guard) (w : Bool) (d : BitVec 6) (a : BitVec 6) (b : BitVec 6) (c : BitVec 4) : Statement (.sel G w d a b c) := of_slot (k := .s) rfl rfl (fun _ => by
  have e : encodeWord (.sel G w d a b c) = pack [(8, 21), (6, d.toNat), (6, a.toNat), (6, b.toNat), (4, G.p.toNat), (1, G.neg.toNat), (1, w.toNat), (4, c.toNat), (12, 0)] := rfl
  generalize encodeWord (.sel G w d a b c) = x at *
  have h0 : x % 256 = 21 := by rw [e]; exact pack_op8 _ _
  have f : guardAt x 26 = G ∧ bitAt x 31 = w ∧ bits x 8 6 = d ∧ bits x 14 6 = a ∧ bits x 20 6 = b ∧ bits x 32 4 = c := by
    rw [e]
    simp only [guardAt, Nat.reduceAdd, bits_skip, bits_here, BitVec.ofNat_toNat, BitVec.setWidth_eq, bitAt_skip, bitAt_here, Nat.reduceLeDiff, Nat.reduceSub, and_self]
  obtain ⟨f0, f1, f2, f3, f4, f5⟩ := f
  have hd : decodeS x = accept (.sel (guardAt x 26) (bitAt x 31) (bits x 8 6) (bits x 14 6) (bits x 20 6) (bits x 32 4)) x := by unfold decodeS; rw [h0]; rfl
  rw [f0, f1, f2, f3, f4, f5] at hd
  exact hd)

theorem clz (G : Guard) (w : Bool) (d : BitVec 6) (a : BitVec 6) : Statement (.clz G w d a) := of_slot (k := .s) rfl rfl (fun _ => by
  have e : encodeWord (.clz G w d a) = pack [(8, 22), (6, d.toNat), (6, a.toNat), (6, 0), (4, G.p.toNat), (1, G.neg.toNat), (1, w.toNat), (16, 0)] := rfl
  generalize encodeWord (.clz G w d a) = x at *
  have h0 : x % 256 = 22 := by rw [e]; exact pack_op8 _ _
  have f : guardAt x 26 = G ∧ bitAt x 31 = w ∧ bits x 8 6 = d ∧ bits x 14 6 = a := by
    rw [e]
    simp only [guardAt, Nat.reduceAdd, bits_skip, bits_here, BitVec.ofNat_toNat, BitVec.setWidth_eq, bitAt_skip, bitAt_here, Nat.reduceLeDiff, Nat.reduceSub, and_self]
  obtain ⟨f0, f1, f2, f3⟩ := f
  have hd : decodeS x = accept (.clz (guardAt x 26) (bitAt x 31) (bits x 8 6) (bits x 14 6)) x := by unfold decodeS; rw [h0]; rfl
  rw [f0, f1, f2, f3] at hd
  exact hd)

theorem ctz (G : Guard) (w : Bool) (d : BitVec 6) (a : BitVec 6) : Statement (.ctz G w d a) := of_slot (k := .s) rfl rfl (fun _ => by
  have e : encodeWord (.ctz G w d a) = pack [(8, 23), (6, d.toNat), (6, a.toNat), (6, 0), (4, G.p.toNat), (1, G.neg.toNat), (1, w.toNat), (16, 0)] := rfl
  generalize encodeWord (.ctz G w d a) = x at *
  have h0 : x % 256 = 23 := by rw [e]; exact pack_op8 _ _
  have f : guardAt x 26 = G ∧ bitAt x 31 = w ∧ bits x 8 6 = d ∧ bits x 14 6 = a := by
    rw [e]
    simp only [guardAt, Nat.reduceAdd, bits_skip, bits_here, BitVec.ofNat_toNat, BitVec.setWidth_eq, bitAt_skip, bitAt_here, Nat.reduceLeDiff, Nat.reduceSub, and_self]
  obtain ⟨f0, f1, f2, f3⟩ := f
  have hd : decodeS x = accept (.ctz (guardAt x 26) (bitAt x 31) (bits x 8 6) (bits x 14 6)) x := by unfold decodeS; rw [h0]; rfl
  rw [f0, f1, f2, f3] at hd
  exact hd)

theorem popc (G : Guard) (w : Bool) (d : BitVec 6) (a : BitVec 6) : Statement (.popc G w d a) := of_slot (k := .s) rfl rfl (fun _ => by
  have e : encodeWord (.popc G w d a) = pack [(8, 24), (6, d.toNat), (6, a.toNat), (6, 0), (4, G.p.toNat), (1, G.neg.toNat), (1, w.toNat), (16, 0)] := rfl
  generalize encodeWord (.popc G w d a) = x at *
  have h0 : x % 256 = 24 := by rw [e]; exact pack_op8 _ _
  have f : guardAt x 26 = G ∧ bitAt x 31 = w ∧ bits x 8 6 = d ∧ bits x 14 6 = a := by
    rw [e]
    simp only [guardAt, Nat.reduceAdd, bits_skip, bits_here, BitVec.ofNat_toNat, BitVec.setWidth_eq, bitAt_skip, bitAt_here, Nat.reduceLeDiff, Nat.reduceSub, and_self]
  obtain ⟨f0, f1, f2, f3⟩ := f
  have hd : decodeS x = accept (.popc (guardAt x 26) (bitAt x 31) (bits x 8 6) (bits x 14 6)) x := by unfold decodeS; rw [h0]; rfl
  rw [f0, f1, f2, f3] at hd
  exact hd)

theorem bfx (G : Guard) (w : Bool) (d : BitVec 6) (a : BitVec 6) (lsb : BitVec 6) (width : BitVec 6) : Statement (.bfx G w d a lsb width) := of_slot (k := .s) rfl rfl (fun _ => by
  have e : encodeWord (.bfx G w d a lsb width) = pack [(8, 25), (6, d.toNat), (6, a.toNat), (6, 0), (4, G.p.toNat), (1, G.neg.toNat), (1, w.toNat), (6, lsb.toNat), (6, width.toNat), (4, 0)] := rfl
  generalize encodeWord (.bfx G w d a lsb width) = x at *
  have h0 : x % 256 = 25 := by rw [e]; exact pack_op8 _ _
  have f : guardAt x 26 = G ∧ bitAt x 31 = w ∧ bits x 8 6 = d ∧ bits x 14 6 = a ∧ bits x 32 6 = lsb ∧ bits x 38 6 = width := by
    rw [e]
    simp only [guardAt, Nat.reduceAdd, bits_skip, bits_here, BitVec.ofNat_toNat, BitVec.setWidth_eq, bitAt_skip, bitAt_here, Nat.reduceLeDiff, Nat.reduceSub, and_self]
  obtain ⟨f0, f1, f2, f3, f4, f5⟩ := f
  have hd : decodeS x = accept (.bfx (guardAt x 26) (bitAt x 31) (bits x 8 6) (bits x 14 6) (bits x 32 6) (bits x 38 6)) x := by unfold decodeS; rw [h0]; rfl
  rw [f0, f1, f2, f3, f4, f5] at hd
  exact hd)

theorem bfi (G : Guard) (w : Bool) (d : BitVec 6) (a : BitVec 6) (lsb : BitVec 6) (width : BitVec 6) : Statement (.bfi G w d a lsb width) := of_slot (k := .s) rfl rfl (fun _ => by
  have e : encodeWord (.bfi G w d a lsb width) = pack [(8, 26), (6, d.toNat), (6, a.toNat), (6, 0), (4, G.p.toNat), (1, G.neg.toNat), (1, w.toNat), (6, lsb.toNat), (6, width.toNat), (4, 0)] := rfl
  generalize encodeWord (.bfi G w d a lsb width) = x at *
  have h0 : x % 256 = 26 := by rw [e]; exact pack_op8 _ _
  have f : guardAt x 26 = G ∧ bitAt x 31 = w ∧ bits x 8 6 = d ∧ bits x 14 6 = a ∧ bits x 32 6 = lsb ∧ bits x 38 6 = width := by
    rw [e]
    simp only [guardAt, Nat.reduceAdd, bits_skip, bits_here, BitVec.ofNat_toNat, BitVec.setWidth_eq, bitAt_skip, bitAt_here, Nat.reduceLeDiff, Nat.reduceSub, and_self]
  obtain ⟨f0, f1, f2, f3, f4, f5⟩ := f
  have hd : decodeS x = accept (.bfi (guardAt x 26) (bitAt x 31) (bits x 8 6) (bits x 14 6) (bits x 32 6) (bits x 38 6)) x := by unfold decodeS; rw [h0]; rfl
  rw [f0, f1, f2, f3, f4, f5] at hd
  exact hd)

theorem sext (G : Guard) (w : Bool) (d : BitVec 6) (a : BitVec 6) (width : BitVec 6) : Statement (.sext G w d a width) := of_slot (k := .s) rfl rfl (fun _ => by
  have e : encodeWord (.sext G w d a width) = pack [(8, 27), (6, d.toNat), (6, a.toNat), (6, 0), (4, G.p.toNat), (1, G.neg.toNat), (1, w.toNat), (6, width.toNat), (10, 0)] := rfl
  generalize encodeWord (.sext G w d a width) = x at *
  have h0 : x % 256 = 27 := by rw [e]; exact pack_op8 _ _
  have f : guardAt x 26 = G ∧ bitAt x 31 = w ∧ bits x 8 6 = d ∧ bits x 14 6 = a ∧ bits x 32 6 = width := by
    rw [e]
    simp only [guardAt, Nat.reduceAdd, bits_skip, bits_here, BitVec.ofNat_toNat, BitVec.setWidth_eq, bitAt_skip, bitAt_here, Nat.reduceLeDiff, Nat.reduceSub, and_self]
  obtain ⟨f0, f1, f2, f3, f4⟩ := f
  have hd : decodeS x = accept (.sext (guardAt x 26) (bitAt x 31) (bits x 8 6) (bits x 14 6) (bits x 32 6)) x := by unfold decodeS; rw [h0]; rfl
  rw [f0, f1, f2, f3, f4] at hd
  exact hd)

theorem zext (G : Guard) (w : Bool) (d : BitVec 6) (a : BitVec 6) (width : BitVec 6) : Statement (.zext G w d a width) := of_slot (k := .s) rfl rfl (fun _ => by
  have e : encodeWord (.zext G w d a width) = pack [(8, 28), (6, d.toNat), (6, a.toNat), (6, 0), (4, G.p.toNat), (1, G.neg.toNat), (1, w.toNat), (6, width.toNat), (10, 0)] := rfl
  generalize encodeWord (.zext G w d a width) = x at *
  have h0 : x % 256 = 28 := by rw [e]; exact pack_op8 _ _
  have f : guardAt x 26 = G ∧ bitAt x 31 = w ∧ bits x 8 6 = d ∧ bits x 14 6 = a ∧ bits x 32 6 = width := by
    rw [e]
    simp only [guardAt, Nat.reduceAdd, bits_skip, bits_here, BitVec.ofNat_toNat, BitVec.setWidth_eq, bitAt_skip, bitAt_here, Nat.reduceLeDiff, Nat.reduceSub, and_self]
  obtain ⟨f0, f1, f2, f3, f4⟩ := f
  have hd : decodeS x = accept (.zext (guardAt x 26) (bitAt x 31) (bits x 8 6) (bits x 14 6) (bits x 32 6)) x := by unfold decodeS; rw [h0]; rfl
  rw [f0, f1, f2, f3, f4] at hd
  exact hd)

theorem cmp (G : Guard) (w : Bool) (pd : BitVec 4) (a : BitVec 6) (b : BitVec 6) (cond : BitVec 4) : Statement (.cmp G w pd a b cond) := of_slot (k := .s) rfl rfl (fun _ => by
  have e : encodeWord (.cmp G w pd a b cond) = pack [(8, 29), (4, pd.toNat), (2, 0), (6, a.toNat), (6, b.toNat), (4, G.p.toNat), (1, G.neg.toNat), (1, w.toNat), (4, cond.toNat), (12, 0)] := rfl
  generalize encodeWord (.cmp G w pd a b cond) = x at *
  have h0 : x % 256 = 29 := by rw [e]; exact pack_op8 _ _
  have f : guardAt x 26 = G ∧ bitAt x 31 = w ∧ bits x 8 4 = pd ∧ bits x 14 6 = a ∧ bits x 20 6 = b ∧ bits x 32 4 = cond := by
    rw [e]
    simp only [guardAt, Nat.reduceAdd, bits_skip, bits_here, BitVec.ofNat_toNat, BitVec.setWidth_eq, bitAt_skip, bitAt_here, Nat.reduceLeDiff, Nat.reduceSub, and_self]
  obtain ⟨f0, f1, f2, f3, f4, f5⟩ := f
  have hd : decodeS x = accept (.cmp (guardAt x 26) (bitAt x 31) (bits x 8 4) (bits x 14 6) (bits x 20 6) (bits x 32 4)) x := by unfold decodeS; rw [h0]; rfl
  rw [f0, f1, f2, f3, f4, f5] at hd
  exact hd)

theorem agen (G : Guard) (w : Bool) (d : BitVec 6) (a : BitVec 6) (b : BitVec 6) (scale : BitVec 2) : Statement (.agen G w d a b scale) := of_slot (k := .s) rfl rfl (fun _ => by
  have e : encodeWord (.agen G w d a b scale) = pack [(8, 30), (6, d.toNat), (6, a.toNat), (6, b.toNat), (4, G.p.toNat), (1, G.neg.toNat), (1, w.toNat), (2, scale.toNat), (14, 0)] := rfl
  generalize encodeWord (.agen G w d a b scale) = x at *
  have h0 : x % 256 = 30 := by rw [e]; exact pack_op8 _ _
  have f : guardAt x 26 = G ∧ bitAt x 31 = w ∧ bits x 8 6 = d ∧ bits x 14 6 = a ∧ bits x 20 6 = b ∧ bits x 32 2 = scale := by
    rw [e]
    simp only [guardAt, Nat.reduceAdd, bits_skip, bits_here, BitVec.ofNat_toNat, BitVec.setWidth_eq, bitAt_skip, bitAt_here, Nat.reduceLeDiff, Nat.reduceSub, and_self]
  obtain ⟨f0, f1, f2, f3, f4, f5⟩ := f
  have hd : decodeS x = accept (.agen (guardAt x 26) (bitAt x 31) (bits x 8 6) (bits x 14 6) (bits x 20 6) (bits x 32 2)) x := by unfold decodeS; rw [h0]; rfl
  rw [f0, f1, f2, f3, f4, f5] at hd
  exact hd)

theorem addi (G : Guard) (w : Bool) (d : BitVec 6) (a : BitVec 6) (imm : BitVec 16) : Statement (.addi G w d a imm) := of_slot (k := .s) rfl rfl (fun _ => by
  have e : encodeWord (.addi G w d a imm) = pack [(8, 33), (6, d.toNat), (6, a.toNat), (6, 0), (4, G.p.toNat), (1, G.neg.toNat), (1, w.toNat), (16, imm.toNat)] := rfl
  generalize encodeWord (.addi G w d a imm) = x at *
  have h0 : x % 256 = 33 := by rw [e]; exact pack_op8 _ _
  have f : guardAt x 26 = G ∧ bitAt x 31 = w ∧ bits x 8 6 = d ∧ bits x 14 6 = a ∧ bits x 32 16 = imm := by
    rw [e]
    simp only [guardAt, Nat.reduceAdd, bits_skip, bits_here, BitVec.ofNat_toNat, BitVec.setWidth_eq, bitAt_skip, bitAt_here, Nat.reduceLeDiff, Nat.reduceSub, and_self]
  obtain ⟨f0, f1, f2, f3, f4⟩ := f
  have hd : decodeS x = accept (.addi (guardAt x 26) (bitAt x 31) (bits x 8 6) (bits x 14 6) (bits x 32 16)) x := by unfold decodeS; rw [h0]; rfl
  rw [f0, f1, f2, f3, f4] at hd
  exact hd)

theorem andi (G : Guard) (w : Bool) (d : BitVec 6) (a : BitVec 6) (imm : BitVec 16) : Statement (.andi G w d a imm) := of_slot (k := .s) rfl rfl (fun _ => by
  have e : encodeWord (.andi G w d a imm) = pack [(8, 41), (6, d.toNat), (6, a.toNat), (6, 0), (4, G.p.toNat), (1, G.neg.toNat), (1, w.toNat), (16, imm.toNat)] := rfl
  generalize encodeWord (.andi G w d a imm) = x at *
  have h0 : x % 256 = 41 := by rw [e]; exact pack_op8 _ _
  have f : guardAt x 26 = G ∧ bitAt x 31 = w ∧ bits x 8 6 = d ∧ bits x 14 6 = a ∧ bits x 32 16 = imm := by
    rw [e]
    simp only [guardAt, Nat.reduceAdd, bits_skip, bits_here, BitVec.ofNat_toNat, BitVec.setWidth_eq, bitAt_skip, bitAt_here, Nat.reduceLeDiff, Nat.reduceSub, and_self]
  obtain ⟨f0, f1, f2, f3, f4⟩ := f
  have hd : decodeS x = accept (.andi (guardAt x 26) (bitAt x 31) (bits x 8 6) (bits x 14 6) (bits x 32 16)) x := by unfold decodeS; rw [h0]; rfl
  rw [f0, f1, f2, f3, f4] at hd
  exact hd)

theorem ori (G : Guard) (w : Bool) (d : BitVec 6) (a : BitVec 6) (imm : BitVec 16) : Statement (.ori G w d a imm) := of_slot (k := .s) rfl rfl (fun _ => by
  have e : encodeWord (.ori G w d a imm) = pack [(8, 42), (6, d.toNat), (6, a.toNat), (6, 0), (4, G.p.toNat), (1, G.neg.toNat), (1, w.toNat), (16, imm.toNat)] := rfl
  generalize encodeWord (.ori G w d a imm) = x at *
  have h0 : x % 256 = 42 := by rw [e]; exact pack_op8 _ _
  have f : guardAt x 26 = G ∧ bitAt x 31 = w ∧ bits x 8 6 = d ∧ bits x 14 6 = a ∧ bits x 32 16 = imm := by
    rw [e]
    simp only [guardAt, Nat.reduceAdd, bits_skip, bits_here, BitVec.ofNat_toNat, BitVec.setWidth_eq, bitAt_skip, bitAt_here, Nat.reduceLeDiff, Nat.reduceSub, and_self]
  obtain ⟨f0, f1, f2, f3, f4⟩ := f
  have hd : decodeS x = accept (.ori (guardAt x 26) (bitAt x 31) (bits x 8 6) (bits x 14 6) (bits x 32 16)) x := by unfold decodeS; rw [h0]; rfl
  rw [f0, f1, f2, f3, f4] at hd
  exact hd)

theorem xori (G : Guard) (w : Bool) (d : BitVec 6) (a : BitVec 6) (imm : BitVec 16) : Statement (.xori G w d a imm) := of_slot (k := .s) rfl rfl (fun _ => by
  have e : encodeWord (.xori G w d a imm) = pack [(8, 43), (6, d.toNat), (6, a.toNat), (6, 0), (4, G.p.toNat), (1, G.neg.toNat), (1, w.toNat), (16, imm.toNat)] := rfl
  generalize encodeWord (.xori G w d a imm) = x at *
  have h0 : x % 256 = 43 := by rw [e]; exact pack_op8 _ _
  have f : guardAt x 26 = G ∧ bitAt x 31 = w ∧ bits x 8 6 = d ∧ bits x 14 6 = a ∧ bits x 32 16 = imm := by
    rw [e]
    simp only [guardAt, Nat.reduceAdd, bits_skip, bits_here, BitVec.ofNat_toNat, BitVec.setWidth_eq, bitAt_skip, bitAt_here, Nat.reduceLeDiff, Nat.reduceSub, and_self]
  obtain ⟨f0, f1, f2, f3, f4⟩ := f
  have hd : decodeS x = accept (.xori (guardAt x 26) (bitAt x 31) (bits x 8 6) (bits x 14 6) (bits x 32 16)) x := by unfold decodeS; rw [h0]; rfl
  rw [f0, f1, f2, f3, f4] at hd
  exact hd)

theorem shli (G : Guard) (w : Bool) (d : BitVec 6) (a : BitVec 6) (imm : BitVec 16) : Statement (.shli G w d a imm) := of_slot (k := .s) rfl rfl (fun _ => by
  have e : encodeWord (.shli G w d a imm) = pack [(8, 45), (6, d.toNat), (6, a.toNat), (6, 0), (4, G.p.toNat), (1, G.neg.toNat), (1, w.toNat), (16, imm.toNat)] := rfl
  generalize encodeWord (.shli G w d a imm) = x at *
  have h0 : x % 256 = 45 := by rw [e]; exact pack_op8 _ _
  have f : guardAt x 26 = G ∧ bitAt x 31 = w ∧ bits x 8 6 = d ∧ bits x 14 6 = a ∧ bits x 32 16 = imm := by
    rw [e]
    simp only [guardAt, Nat.reduceAdd, bits_skip, bits_here, BitVec.ofNat_toNat, BitVec.setWidth_eq, bitAt_skip, bitAt_here, Nat.reduceLeDiff, Nat.reduceSub, and_self]
  obtain ⟨f0, f1, f2, f3, f4⟩ := f
  have hd : decodeS x = accept (.shli (guardAt x 26) (bitAt x 31) (bits x 8 6) (bits x 14 6) (bits x 32 16)) x := by unfold decodeS; rw [h0]; rfl
  rw [f0, f1, f2, f3, f4] at hd
  exact hd)

theorem shri (G : Guard) (w : Bool) (d : BitVec 6) (a : BitVec 6) (imm : BitVec 16) : Statement (.shri G w d a imm) := of_slot (k := .s) rfl rfl (fun _ => by
  have e : encodeWord (.shri G w d a imm) = pack [(8, 46), (6, d.toNat), (6, a.toNat), (6, 0), (4, G.p.toNat), (1, G.neg.toNat), (1, w.toNat), (16, imm.toNat)] := rfl
  generalize encodeWord (.shri G w d a imm) = x at *
  have h0 : x % 256 = 46 := by rw [e]; exact pack_op8 _ _
  have f : guardAt x 26 = G ∧ bitAt x 31 = w ∧ bits x 8 6 = d ∧ bits x 14 6 = a ∧ bits x 32 16 = imm := by
    rw [e]
    simp only [guardAt, Nat.reduceAdd, bits_skip, bits_here, BitVec.ofNat_toNat, BitVec.setWidth_eq, bitAt_skip, bitAt_here, Nat.reduceLeDiff, Nat.reduceSub, and_self]
  obtain ⟨f0, f1, f2, f3, f4⟩ := f
  have hd : decodeS x = accept (.shri (guardAt x 26) (bitAt x 31) (bits x 8 6) (bits x 14 6) (bits x 32 16)) x := by unfold decodeS; rw [h0]; rfl
  rw [f0, f1, f2, f3, f4] at hd
  exact hd)

theorem sari (G : Guard) (w : Bool) (d : BitVec 6) (a : BitVec 6) (imm : BitVec 16) : Statement (.sari G w d a imm) := of_slot (k := .s) rfl rfl (fun _ => by
  have e : encodeWord (.sari G w d a imm) = pack [(8, 47), (6, d.toNat), (6, a.toNat), (6, 0), (4, G.p.toNat), (1, G.neg.toNat), (1, w.toNat), (16, imm.toNat)] := rfl
  generalize encodeWord (.sari G w d a imm) = x at *
  have h0 : x % 256 = 47 := by rw [e]; exact pack_op8 _ _
  have f : guardAt x 26 = G ∧ bitAt x 31 = w ∧ bits x 8 6 = d ∧ bits x 14 6 = a ∧ bits x 32 16 = imm := by
    rw [e]
    simp only [guardAt, Nat.reduceAdd, bits_skip, bits_here, BitVec.ofNat_toNat, BitVec.setWidth_eq, bitAt_skip, bitAt_here, Nat.reduceLeDiff, Nat.reduceSub, and_self]
  obtain ⟨f0, f1, f2, f3, f4⟩ := f
  have hd : decodeS x = accept (.sari (guardAt x 26) (bitAt x 31) (bits x 8 6) (bits x 14 6) (bits x 32 16)) x := by unfold decodeS; rw [h0]; rfl
  rw [f0, f1, f2, f3, f4] at hd
  exact hd)

theorem movi (G : Guard) (w : Bool) (d : BitVec 6) (imm : BitVec 16) : Statement (.movi G w d imm) := of_slot (k := .s) rfl rfl (fun _ => by
  have e : encodeWord (.movi G w d imm) = pack [(8, 48), (6, d.toNat), (6, 0), (6, 0), (4, G.p.toNat), (1, G.neg.toNat), (1, w.toNat), (16, imm.toNat)] := rfl
  generalize encodeWord (.movi G w d imm) = x at *
  have h0 : x % 256 = 48 := by rw [e]; exact pack_op8 _ _
  have f : guardAt x 26 = G ∧ bitAt x 31 = w ∧ bits x 8 6 = d ∧ bits x 32 16 = imm := by
    rw [e]
    simp only [guardAt, Nat.reduceAdd, bits_skip, bits_here, BitVec.ofNat_toNat, BitVec.setWidth_eq, bitAt_skip, bitAt_here, Nat.reduceLeDiff, Nat.reduceSub, and_self]
  obtain ⟨f0, f1, f2, f3⟩ := f
  have hd : decodeS x = accept (.movi (guardAt x 26) (bitAt x 31) (bits x 8 6) (bits x 32 16)) x := by unfold decodeS; rw [h0]; rfl
  rw [f0, f1, f2, f3] at hd
  exact hd)

theorem movhi (G : Guard) (w : Bool) (d : BitVec 6) (sh : BitVec 2) (imm : BitVec 16) : Statement (.movhi G w d sh imm) := of_slot (k := .s) rfl rfl (fun _ => by
  have e : encodeWord (.movhi G w d sh imm) = pack [(8, 49), (6, d.toNat), (6, 0), (2, sh.toNat), (4, 0), (4, G.p.toNat), (1, G.neg.toNat), (1, w.toNat), (16, imm.toNat)] := rfl
  generalize encodeWord (.movhi G w d sh imm) = x at *
  have h0 : x % 256 = 49 := by rw [e]; exact pack_op8 _ _
  have f : guardAt x 26 = G ∧ bitAt x 31 = w ∧ bits x 8 6 = d ∧ bits x 20 2 = sh ∧ bits x 32 16 = imm := by
    rw [e]
    simp only [guardAt, Nat.reduceAdd, bits_skip, bits_here, BitVec.ofNat_toNat, BitVec.setWidth_eq, bitAt_skip, bitAt_here, Nat.reduceLeDiff, Nat.reduceSub, and_self]
  obtain ⟨f0, f1, f2, f3, f4⟩ := f
  have hd : decodeS x = accept (.movhi (guardAt x 26) (bitAt x 31) (bits x 8 6) (bits x 20 2) (bits x 32 16)) x := by unfold decodeS; rw [h0]; rfl
  rw [f0, f1, f2, f3, f4] at hd
  exact hd)

theorem cmpi (G : Guard) (w : Bool) (pd : BitVec 4) (a : BitVec 6) (cond : BitVec 4) (imm : BitVec 16) : Statement (.cmpi G w pd a cond imm) := of_slot (k := .s) rfl rfl (fun _ => by
  have e : encodeWord (.cmpi G w pd a cond imm) = pack [(8, 61), (4, pd.toNat), (2, 0), (6, a.toNat), (4, cond.toNat), (2, 0), (4, G.p.toNat), (1, G.neg.toNat), (1, w.toNat), (16, imm.toNat)] := rfl
  generalize encodeWord (.cmpi G w pd a cond imm) = x at *
  have h0 : x % 256 = 61 := by rw [e]; exact pack_op8 _ _
  have f : guardAt x 26 = G ∧ bitAt x 31 = w ∧ bits x 8 4 = pd ∧ bits x 14 6 = a ∧ bits x 20 4 = cond ∧ bits x 32 16 = imm := by
    rw [e]
    simp only [guardAt, Nat.reduceAdd, bits_skip, bits_here, BitVec.ofNat_toNat, BitVec.setWidth_eq, bitAt_skip, bitAt_here, Nat.reduceLeDiff, Nat.reduceSub, and_self]
  obtain ⟨f0, f1, f2, f3, f4, f5⟩ := f
  have hd : decodeS x = accept (.cmpi (guardAt x 26) (bitAt x 31) (bits x 8 4) (bits x 14 6) (bits x 20 4) (bits x 32 16)) x := by unfold decodeS; rw [h0]; rfl
  rw [f0, f1, f2, f3, f4, f5] at hd
  exact hd)

theorem sfadd (G : Guard) (d : BitVec 6) (a : BitVec 6) (b : BitVec 6) (ty : BitVec 2) (rnd : BitVec 3) : Statement (.sfadd G d a b ty rnd) := of_slot (k := .s) rfl rfl (fun _ => by
  have e : encodeWord (.sfadd G d a b ty rnd) = pack [(8, 64), (6, d.toNat), (6, a.toNat), (6, b.toNat), (4, G.p.toNat), (1, G.neg.toNat), (1, 0), (2, ty.toNat), (3, rnd.toNat), (11, 0)] := rfl
  generalize encodeWord (.sfadd G d a b ty rnd) = x at *
  have h0 : x % 256 = 64 := by rw [e]; exact pack_op8 _ _
  have f : guardAt x 26 = G ∧ bits x 8 6 = d ∧ bits x 14 6 = a ∧ bits x 20 6 = b ∧ bits x 32 2 = ty ∧ bits x 34 3 = rnd := by
    rw [e]
    simp only [guardAt, Nat.reduceAdd, bits_skip, bits_here, BitVec.ofNat_toNat, BitVec.setWidth_eq, bitAt_skip, bitAt_here, Nat.reduceLeDiff, Nat.reduceSub, and_self]
  obtain ⟨f0, f1, f2, f3, f4, f5⟩ := f
  have hd : decodeS x = accept (.sfadd (guardAt x 26) (bits x 8 6) (bits x 14 6) (bits x 20 6) (bits x 32 2) (bits x 34 3)) x := by unfold decodeS; rw [h0]; rfl
  rw [f0, f1, f2, f3, f4, f5] at hd
  exact hd)

theorem sfmul (G : Guard) (d : BitVec 6) (a : BitVec 6) (b : BitVec 6) (ty : BitVec 2) (rnd : BitVec 3) : Statement (.sfmul G d a b ty rnd) := of_slot (k := .s) rfl rfl (fun _ => by
  have e : encodeWord (.sfmul G d a b ty rnd) = pack [(8, 65), (6, d.toNat), (6, a.toNat), (6, b.toNat), (4, G.p.toNat), (1, G.neg.toNat), (1, 0), (2, ty.toNat), (3, rnd.toNat), (11, 0)] := rfl
  generalize encodeWord (.sfmul G d a b ty rnd) = x at *
  have h0 : x % 256 = 65 := by rw [e]; exact pack_op8 _ _
  have f : guardAt x 26 = G ∧ bits x 8 6 = d ∧ bits x 14 6 = a ∧ bits x 20 6 = b ∧ bits x 32 2 = ty ∧ bits x 34 3 = rnd := by
    rw [e]
    simp only [guardAt, Nat.reduceAdd, bits_skip, bits_here, BitVec.ofNat_toNat, BitVec.setWidth_eq, bitAt_skip, bitAt_here, Nat.reduceLeDiff, Nat.reduceSub, and_self]
  obtain ⟨f0, f1, f2, f3, f4, f5⟩ := f
  have hd : decodeS x = accept (.sfmul (guardAt x 26) (bits x 8 6) (bits x 14 6) (bits x 20 6) (bits x 32 2) (bits x 34 3)) x := by unfold decodeS; rw [h0]; rfl
  rw [f0, f1, f2, f3, f4, f5] at hd
  exact hd)

theorem sffma (G : Guard) (d : BitVec 6) (a : BitVec 6) (b : BitVec 6) (ty : BitVec 2) (rnd : BitVec 3) : Statement (.sffma G d a b ty rnd) := of_slot (k := .s) rfl rfl (fun _ => by
  have e : encodeWord (.sffma G d a b ty rnd) = pack [(8, 66), (6, d.toNat), (6, a.toNat), (6, b.toNat), (4, G.p.toNat), (1, G.neg.toNat), (1, 0), (2, ty.toNat), (3, rnd.toNat), (11, 0)] := rfl
  generalize encodeWord (.sffma G d a b ty rnd) = x at *
  have h0 : x % 256 = 66 := by rw [e]; exact pack_op8 _ _
  have f : guardAt x 26 = G ∧ bits x 8 6 = d ∧ bits x 14 6 = a ∧ bits x 20 6 = b ∧ bits x 32 2 = ty ∧ bits x 34 3 = rnd := by
    rw [e]
    simp only [guardAt, Nat.reduceAdd, bits_skip, bits_here, BitVec.ofNat_toNat, BitVec.setWidth_eq, bitAt_skip, bitAt_here, Nat.reduceLeDiff, Nat.reduceSub, and_self]
  obtain ⟨f0, f1, f2, f3, f4, f5⟩ := f
  have hd : decodeS x = accept (.sffma (guardAt x 26) (bits x 8 6) (bits x 14 6) (bits x 20 6) (bits x 32 2) (bits x 34 3)) x := by unfold decodeS; rw [h0]; rfl
  rw [f0, f1, f2, f3, f4, f5] at hd
  exact hd)

theorem sfcmp (G : Guard) (w : Bool) (pd : BitVec 4) (a : BitVec 6) (b : BitVec 6) (cond : BitVec 4) : Statement (.sfcmp G w pd a b cond) := of_slot (k := .s) rfl rfl (fun _ => by
  have e : encodeWord (.sfcmp G w pd a b cond) = pack [(8, 67), (4, pd.toNat), (2, 0), (6, a.toNat), (6, b.toNat), (4, G.p.toNat), (1, G.neg.toNat), (1, w.toNat), (4, cond.toNat), (12, 0)] := rfl
  generalize encodeWord (.sfcmp G w pd a b cond) = x at *
  have h0 : x % 256 = 67 := by rw [e]; exact pack_op8 _ _
  have f : guardAt x 26 = G ∧ bitAt x 31 = w ∧ bits x 8 4 = pd ∧ bits x 14 6 = a ∧ bits x 20 6 = b ∧ bits x 32 4 = cond := by
    rw [e]
    simp only [guardAt, Nat.reduceAdd, bits_skip, bits_here, BitVec.ofNat_toNat, BitVec.setWidth_eq, bitAt_skip, bitAt_here, Nat.reduceLeDiff, Nat.reduceSub, and_self]
  obtain ⟨f0, f1, f2, f3, f4, f5⟩ := f
  have hd : decodeS x = accept (.sfcmp (guardAt x 26) (bitAt x 31) (bits x 8 4) (bits x 14 6) (bits x 20 6) (bits x 32 4)) x := by unfold decodeS; rw [h0]; rfl
  rw [f0, f1, f2, f3, f4, f5] at hd
  exact hd)

theorem sfcvt (G : Guard) (d : BitVec 6) (a : BitVec 6) (sty : BitVec 2) (rnd : BitVec 3) (dty : BitVec 3) : Statement (.sfcvt G d a sty rnd dty) := of_slot (k := .s) rfl rfl (fun _ => by
  have e : encodeWord (.sfcvt G d a sty rnd dty) = pack [(8, 68), (6, d.toNat), (6, a.toNat), (6, 0), (4, G.p.toNat), (1, G.neg.toNat), (1, 0), (2, sty.toNat), (3, rnd.toNat), (3, dty.toNat), (8, 0)] := rfl
  generalize encodeWord (.sfcvt G d a sty rnd dty) = x at *
  have h0 : x % 256 = 68 := by rw [e]; exact pack_op8 _ _
  have f : guardAt x 26 = G ∧ bits x 8 6 = d ∧ bits x 14 6 = a ∧ bits x 32 2 = sty ∧ bits x 34 3 = rnd ∧ bits x 37 3 = dty := by
    rw [e]
    simp only [guardAt, Nat.reduceAdd, bits_skip, bits_here, BitVec.ofNat_toNat, BitVec.setWidth_eq, bitAt_skip, bitAt_here, Nat.reduceLeDiff, Nat.reduceSub, and_self]
  obtain ⟨f0, f1, f2, f3, f4, f5⟩ := f
  have hd : decodeS x = accept (.sfcvt (guardAt x 26) (bits x 8 6) (bits x 14 6) (bits x 32 2) (bits x 34 3) (bits x 37 3)) x := by unfold decodeS; rw [h0]; rfl
  rw [f0, f1, f2, f3, f4, f5] at hd
  exact hd)

theorem mfc (G : Guard) (w : Bool) (d : BitVec 6) (num : BitVec 12) : Statement (.mfc G w d num) := of_slot (k := .s) rfl rfl (fun _ => by
  have e : encodeWord (.mfc G w d num) = pack [(8, 80), (6, d.toNat), (6, 0), (6, 0), (4, G.p.toNat), (1, G.neg.toNat), (1, w.toNat), (12, num.toNat), (4, 0)] := rfl
  generalize encodeWord (.mfc G w d num) = x at *
  have h0 : x % 256 = 80 := by rw [e]; exact pack_op8 _ _
  have f : guardAt x 26 = G ∧ bitAt x 31 = w ∧ bits x 8 6 = d ∧ bits x 32 12 = num := by
    rw [e]
    simp only [guardAt, Nat.reduceAdd, bits_skip, bits_here, BitVec.ofNat_toNat, BitVec.setWidth_eq, bitAt_skip, bitAt_here, Nat.reduceLeDiff, Nat.reduceSub, and_self]
  obtain ⟨f0, f1, f2, f3⟩ := f
  have hd : decodeS x = accept (.mfc (guardAt x 26) (bitAt x 31) (bits x 8 6) (bits x 32 12)) x := by unfold decodeS; rw [h0]; rfl
  rw [f0, f1, f2, f3] at hd
  exact hd)

theorem mtc (G : Guard) (w : Bool) (a : BitVec 6) (num : BitVec 12) : Statement (.mtc G w a num) := of_slot (k := .s) rfl rfl (fun _ => by
  have e : encodeWord (.mtc G w a num) = pack [(8, 81), (6, 0), (6, a.toNat), (6, 0), (4, G.p.toNat), (1, G.neg.toNat), (1, w.toNat), (12, num.toNat), (4, 0)] := rfl
  generalize encodeWord (.mtc G w a num) = x at *
  have h0 : x % 256 = 81 := by rw [e]; exact pack_op8 _ _
  have f : guardAt x 26 = G ∧ bitAt x 31 = w ∧ bits x 14 6 = a ∧ bits x 32 12 = num := by
    rw [e]
    simp only [guardAt, Nat.reduceAdd, bits_skip, bits_here, BitVec.ofNat_toNat, BitVec.setWidth_eq, bitAt_skip, bitAt_here, Nat.reduceLeDiff, Nat.reduceSub, and_self]
  obtain ⟨f0, f1, f2, f3⟩ := f
  have hd : decodeS x = accept (.mtc (guardAt x 26) (bitAt x 31) (bits x 14 6) (bits x 32 12)) x := by unfold decodeS; rw [h0]; rfl
  rw [f0, f1, f2, f3] at hd
  exact hd)

theorem br (disp : BitVec 21) : Statement (.br disp) := of_slot (k := .c) rfl rfl (fun _ => by
  have e : encodeWord (.br disp) = pack [(6, 1), (5, 0), (21, disp.toNat)] := rfl
  generalize encodeWord (.br disp) = x at *
  have h0 : x % 64 = 1 := by rw [e]; exact pack_op6 _ _
  have f0 : bits x 11 21 = disp := by rw [e]; simp only [bits_skip, bits_here, BitVec.ofNat_toNat, BitVec.setWidth_eq, Nat.reduceLeDiff, Nat.reduceSub]
  have hd : decodeC x = accept (.br (bits x 11 21)) x := by unfold decodeC; rw [h0]; rfl
  rw [f0] at hd
  exact hd)

theorem brc (G : Guard) (disp : BitVec 21) : Statement (.brc G disp) := of_slot (k := .c) rfl rfl (fun _ => by
  have e : encodeWord (.brc G disp) = pack [(6, 2), (4, G.p.toNat), (1, G.neg.toNat), (21, disp.toNat)] := rfl
  generalize encodeWord (.brc G disp) = x at *
  have h0 : x % 64 = 2 := by rw [e]; exact pack_op6 _ _
  have f : guardAt x 6 = G ∧ bits x 11 21 = disp := by
    rw [e]
    simp only [guardAt, Nat.reduceAdd, bits_skip, bits_here, BitVec.ofNat_toNat, BitVec.setWidth_eq, bitAt_skip, bitAt_here, Nat.reduceLeDiff, Nat.reduceSub, and_self]
  obtain ⟨f0, f1⟩ := f
  have hd : decodeC x = accept (.brc (guardAt x 6) (bits x 11 21)) x := by unfold decodeC; rw [h0]; rfl
  rw [f0, f1] at hd
  exact hd)

theorem brr (G : Guard) (a : BitVec 6) : Statement (.brr G a) := of_slot (k := .c) rfl rfl (fun _ => by
  have e : encodeWord (.brr G a) = pack [(6, 3), (4, G.p.toNat), (1, G.neg.toNat), (6, a.toNat), (15, 0)] := rfl
  generalize encodeWord (.brr G a) = x at *
  have h0 : x % 64 = 3 := by rw [e]; exact pack_op6 _ _
  have f : guardAt x 6 = G ∧ bits x 11 6 = a := by
    rw [e]
    simp only [guardAt, Nat.reduceAdd, bits_skip, bits_here, BitVec.ofNat_toNat, BitVec.setWidth_eq, bitAt_skip, bitAt_here, Nat.reduceLeDiff, Nat.reduceSub, and_self]
  obtain ⟨f0, f1⟩ := f
  have hd : decodeC x = accept (.brr (guardAt x 6) (bits x 11 6)) x := by unfold decodeC; rw [h0]; rfl
  rw [f0, f1] at hd
  exact hd)

theorem call (G : Guard) (disp : BitVec 21) : Statement (.call G disp) := of_slot (k := .c) rfl rfl (fun _ => by
  have e : encodeWord (.call G disp) = pack [(6, 4), (4, G.p.toNat), (1, G.neg.toNat), (21, disp.toNat)] := rfl
  generalize encodeWord (.call G disp) = x at *
  have h0 : x % 64 = 4 := by rw [e]; exact pack_op6 _ _
  have f : guardAt x 6 = G ∧ bits x 11 21 = disp := by
    rw [e]
    simp only [guardAt, Nat.reduceAdd, bits_skip, bits_here, BitVec.ofNat_toNat, BitVec.setWidth_eq, bitAt_skip, bitAt_here, Nat.reduceLeDiff, Nat.reduceSub, and_self]
  obtain ⟨f0, f1⟩ := f
  have hd : decodeC x = accept (.call (guardAt x 6) (bits x 11 21)) x := by unfold decodeC; rw [h0]; rfl
  rw [f0, f1] at hd
  exact hd)

theorem callr (G : Guard) (a : BitVec 6) : Statement (.callr G a) := of_slot (k := .c) rfl rfl (fun _ => by
  have e : encodeWord (.callr G a) = pack [(6, 5), (4, G.p.toNat), (1, G.neg.toNat), (6, a.toNat), (15, 0)] := rfl
  generalize encodeWord (.callr G a) = x at *
  have h0 : x % 64 = 5 := by rw [e]; exact pack_op6 _ _
  have f : guardAt x 6 = G ∧ bits x 11 6 = a := by
    rw [e]
    simp only [guardAt, Nat.reduceAdd, bits_skip, bits_here, BitVec.ofNat_toNat, BitVec.setWidth_eq, bitAt_skip, bitAt_here, Nat.reduceLeDiff, Nat.reduceSub, and_self]
  obtain ⟨f0, f1⟩ := f
  have hd : decodeC x = accept (.callr (guardAt x 6) (bits x 11 6)) x := by unfold decodeC; rw [h0]; rfl
  rw [f0, f1] at hd
  exact hd)

theorem ret (G : Guard) : Statement (.ret G) := of_slot (k := .c) rfl rfl (fun _ => by
  have e : encodeWord (.ret G) = pack [(6, 6), (4, G.p.toNat), (1, G.neg.toNat), (21, 0)] := rfl
  generalize encodeWord (.ret G) = x at *
  have h0 : x % 64 = 6 := by rw [e]; exact pack_op6 _ _
  have f0 : guardAt x 6 = G := by rw [e]; simp only [guardAt, Nat.reduceAdd, bits_skip, bits_here, BitVec.ofNat_toNat, BitVec.setWidth_eq, bitAt_skip, bitAt_here, Nat.reduceLeDiff, Nat.reduceSub]
  have hd : decodeC x = accept (.ret (guardAt x 6)) x := by unfold decodeC; rw [h0]; rfl
  rw [f0] at hd
  exact hd)

theorem loop (G : Guard) (level : BitVec 3) (cnt : BitVec 6) (len : BitVec 12) : Statement (.loop G level cnt len) := of_slot (k := .c) rfl rfl (fun _ => by
  have e : encodeWord (.loop G level cnt len) = pack [(6, 7), (4, G.p.toNat), (1, G.neg.toNat), (3, level.toNat), (6, cnt.toNat), (12, len.toNat)] := rfl
  generalize encodeWord (.loop G level cnt len) = x at *
  have h0 : x % 64 = 7 := by rw [e]; exact pack_op6 _ _
  have f : guardAt x 6 = G ∧ bits x 11 3 = level ∧ bits x 14 6 = cnt ∧ bits x 20 12 = len := by
    rw [e]
    simp only [guardAt, Nat.reduceAdd, bits_skip, bits_here, BitVec.ofNat_toNat, BitVec.setWidth_eq, bitAt_skip, bitAt_here, Nat.reduceLeDiff, Nat.reduceSub, and_self]
  obtain ⟨f0, f1, f2, f3⟩ := f
  have hd : decodeC x = accept (.loop (guardAt x 6) (bits x 11 3) (bits x 14 6) (bits x 20 12)) x := by unfold decodeC; rw [h0]; rfl
  rw [f0, f1, f2, f3] at hd
  exact hd)

theorem nest (G : Guard) (level : BitVec 3) (kind : BitVec 2) (val : BitVec 6) (addr : BitVec 6) : Statement (.nest G level kind val addr) := of_slot (k := .c) rfl rfl (fun _ => by
  have e : encodeWord (.nest G level kind val addr) = pack [(6, 8), (4, G.p.toNat), (1, G.neg.toNat), (3, level.toNat), (2, kind.toNat), (6, val.toNat), (6, addr.toNat), (4, 0)] := rfl
  generalize encodeWord (.nest G level kind val addr) = x at *
  have h0 : x % 64 = 8 := by rw [e]; exact pack_op6 _ _
  have f : guardAt x 6 = G ∧ bits x 11 3 = level ∧ bits x 14 2 = kind ∧ bits x 16 6 = val ∧ bits x 22 6 = addr := by
    rw [e]
    simp only [guardAt, Nat.reduceAdd, bits_skip, bits_here, BitVec.ofNat_toNat, BitVec.setWidth_eq, bitAt_skip, bitAt_here, Nat.reduceLeDiff, Nat.reduceSub, and_self]
  obtain ⟨f0, f1, f2, f3, f4⟩ := f
  have hd : decodeC x = accept (.nest (guardAt x 6) (bits x 11 3) (bits x 14 2) (bits x 16 6) (bits x 22 6)) x := by unfold decodeC; rw [h0]; rfl
  rw [f0, f1, f2, f3, f4] at hd
  exact hd)

theorem chk (G : Guard) (a : BitVec 6) (disp : BitVec 15) : Statement (.chk G a disp) := of_slot (k := .c) rfl rfl (fun _ => by
  have e : encodeWord (.chk G a disp) = pack [(6, 9), (4, G.p.toNat), (1, G.neg.toNat), (6, a.toNat), (15, disp.toNat)] := rfl
  generalize encodeWord (.chk G a disp) = x at *
  have h0 : x % 64 = 9 := by rw [e]; exact pack_op6 _ _
  have f : guardAt x 6 = G ∧ bits x 11 6 = a ∧ bits x 17 15 = disp := by
    rw [e]
    simp only [guardAt, Nat.reduceAdd, bits_skip, bits_here, BitVec.ofNat_toNat, BitVec.setWidth_eq, bitAt_skip, bitAt_here, Nat.reduceLeDiff, Nat.reduceSub, and_self]
  obtain ⟨f0, f1, f2⟩ := f
  have hd : decodeC x = accept (.chk (guardAt x 6) (bits x 11 6) (bits x 17 15)) x := by unfold decodeC; rw [h0]; rfl
  rw [f0, f1, f2] at hd
  exact hd)

theorem isync (G : Guard) : Statement (.isync G) := of_slot (k := .c) rfl rfl (fun _ => by
  have e : encodeWord (.isync G) = pack [(6, 10), (4, G.p.toNat), (1, G.neg.toNat), (21, 0)] := rfl
  generalize encodeWord (.isync G) = x at *
  have h0 : x % 64 = 10 := by rw [e]; exact pack_op6 _ _
  have f0 : guardAt x 6 = G := by rw [e]; simp only [guardAt, Nat.reduceAdd, bits_skip, bits_here, BitVec.ofNat_toNat, BitVec.setWidth_eq, bitAt_skip, bitAt_here, Nat.reduceLeDiff, Nat.reduceSub]
  have hd : decodeC x = accept (.isync (guardAt x 6)) x := by unfold decodeC; rw [h0]; rfl
  rw [f0] at hd
  exact hd)

theorem fmt (G : Guard) (v : BitVec 21) : Statement (.fmt G v) := of_slot (k := .c) rfl rfl (fun _ => by
  have e : encodeWord (.fmt G v) = pack [(6, 11), (4, G.p.toNat), (1, G.neg.toNat), (21, v.toNat)] := rfl
  generalize encodeWord (.fmt G v) = x at *
  have h0 : x % 64 = 11 := by rw [e]; exact pack_op6 _ _
  have f : guardAt x 6 = G ∧ bits x 11 21 = v := by
    rw [e]
    simp only [guardAt, Nat.reduceAdd, bits_skip, bits_here, BitVec.ofNat_toNat, BitVec.setWidth_eq, bitAt_skip, bitAt_here, Nat.reduceLeDiff, Nat.reduceSub, and_self]
  obtain ⟨f0, f1⟩ := f
  have hd : decodeC x = accept (.fmt (guardAt x 6) (bits x 11 21)) x := by unfold decodeC; rw [h0]; rfl
  rw [f0, f1] at hd
  exact hd)

theorem trap (G : Guard) (n : BitVec 8) : Statement (.trap G n) := of_slot (k := .c) rfl rfl (fun _ => by
  have e : encodeWord (.trap G n) = pack [(6, 12), (4, G.p.toNat), (1, G.neg.toNat), (8, n.toNat), (13, 0)] := rfl
  generalize encodeWord (.trap G n) = x at *
  have h0 : x % 64 = 12 := by rw [e]; exact pack_op6 _ _
  have f : guardAt x 6 = G ∧ bits x 11 8 = n := by
    rw [e]
    simp only [guardAt, Nat.reduceAdd, bits_skip, bits_here, BitVec.ofNat_toNat, BitVec.setWidth_eq, bitAt_skip, bitAt_here, Nat.reduceLeDiff, Nat.reduceSub, and_self]
  obtain ⟨f0, f1⟩ := f
  have hd : decodeC x = accept (.trap (guardAt x 6) (bits x 11 8)) x := by unfold decodeC; rw [h0]; rfl
  rw [f0, f1] at hd
  exact hd)

theorem sysret : Statement (.sysret) := of_slot (k := .c) rfl rfl (fun _ => by
  have e : encodeWord (.sysret) = pack [(6, 13), (5, 0), (21, 0)] := rfl
  generalize encodeWord (.sysret) = x at *
  have h0 : x % 64 = 13 := by rw [e]; exact pack_op6 _ _
  have hd : decodeC x = accept (.sysret) x := by unfold decodeC; rw [h0]; rfl
  exact hd)

theorem vadd (o : VFields) : Statement (.vadd o) := of_slot (k := .v0) rfl rfl (fun _ => by
  have e : encodeWord (.vadd o) = packV 1 o := rfl
  generalize encodeWord (.vadd o) = x at *
  have h0 : x % 256 = 1 := by rw [e]; exact pack_op8 _ _
  have hd : decodeV x = accept (.vadd (vrOf x)) x := by unfold decodeV; rw [h0]; rfl
  rw [show vrOf x = o from e ▸ vrOf_packV _ o] at hd
  exact hd)

theorem vsub (o : VFields) : Statement (.vsub o) := of_slot (k := .v0) rfl rfl (fun _ => by
  have e : encodeWord (.vsub o) = packV 2 o := rfl
  generalize encodeWord (.vsub o) = x at *
  have h0 : x % 256 = 2 := by rw [e]; exact pack_op8 _ _
  have hd : decodeV x = accept (.vsub (vrOf x)) x := by unfold decodeV; rw [h0]; rfl
  rw [show vrOf x = o from e ▸ vrOf_packV _ o] at hd
  exact hd)

theorem vmul (o : VFields) : Statement (.vmul o) := of_slot (k := .v0) rfl rfl (fun _ => by
  have e : encodeWord (.vmul o) = packV 3 o := rfl
  generalize encodeWord (.vmul o) = x at *
  have h0 : x % 256 = 3 := by rw [e]; exact pack_op8 _ _
  have hd : decodeV x = accept (.vmul (vrOf x)) x := by unfold decodeV; rw [h0]; rfl
  rw [show vrOf x = o from e ▸ vrOf_packV _ o] at hd
  exact hd)

theorem vfma (o : VFields) : Statement (.vfma o) := of_slot (k := .v0) rfl rfl (fun _ => by
  have e : encodeWord (.vfma o) = packV 4 o := rfl
  generalize encodeWord (.vfma o) = x at *
  have h0 : x % 256 = 4 := by rw [e]; exact pack_op8 _ _
  have hd : decodeV x = accept (.vfma (vrOf x)) x := by unfold decodeV; rw [h0]; rfl
  rw [show vrOf x = o from e ▸ vrOf_packV _ o] at hd
  exact hd)

theorem vfms (o : VFields) : Statement (.vfms o) := of_slot (k := .v0) rfl rfl (fun _ => by
  have e : encodeWord (.vfms o) = packV 5 o := rfl
  generalize encodeWord (.vfms o) = x at *
  have h0 : x % 256 = 5 := by rw [e]; exact pack_op8 _ _
  have hd : decodeV x = accept (.vfms (vrOf x)) x := by unfold decodeV; rw [h0]; rfl
  rw [show vrOf x = o from e ▸ vrOf_packV _ o] at hd
  exact hd)

theorem vmax (o : VFields) : Statement (.vmax o) := of_slot (k := .v0) rfl rfl (fun _ => by
  have e : encodeWord (.vmax o) = packV 6 o := rfl
  generalize encodeWord (.vmax o) = x at *
  have h0 : x % 256 = 6 := by rw [e]; exact pack_op8 _ _
  have hd : decodeV x = accept (.vmax (vrOf x)) x := by unfold decodeV; rw [h0]; rfl
  rw [show vrOf x = o from e ▸ vrOf_packV _ o] at hd
  exact hd)

theorem vmin (o : VFields) : Statement (.vmin o) := of_slot (k := .v0) rfl rfl (fun _ => by
  have e : encodeWord (.vmin o) = packV 7 o := rfl
  generalize encodeWord (.vmin o) = x at *
  have h0 : x % 256 = 7 := by rw [e]; exact pack_op8 _ _
  have hd : decodeV x = accept (.vmin (vrOf x)) x := by unfold decodeV; rw [h0]; rfl
  rw [show vrOf x = o from e ▸ vrOf_packV _ o] at hd
  exact hd)

theorem vabs (o : VFields) : Statement (.vabs o) := of_slot (k := .v0) rfl rfl (fun _ => by
  have e : encodeWord (.vabs o) = packV 8 o := rfl
  generalize encodeWord (.vabs o) = x at *
  have h0 : x % 256 = 8 := by rw [e]; exact pack_op8 _ _
  have hd : decodeV x = accept (.vabs (vrOf x)) x := by unfold decodeV; rw [h0]; rfl
  rw [show vrOf x = o from e ▸ vrOf_packV _ o] at hd
  exact hd)

theorem vneg (o : VFields) : Statement (.vneg o) := of_slot (k := .v0) rfl rfl (fun _ => by
  have e : encodeWord (.vneg o) = packV 9 o := rfl
  generalize encodeWord (.vneg o) = x at *
  have h0 : x % 256 = 9 := by rw [e]; exact pack_op8 _ _
  have hd : decodeV x = accept (.vneg (vrOf x)) x := by unfold decodeV; rw [h0]; rfl
  rw [show vrOf x = o from e ▸ vrOf_packV _ o] at hd
  exact hd)

theorem vand (o : VFields) : Statement (.vand o) := of_slot (k := .v0) rfl rfl (fun _ => by
  have e : encodeWord (.vand o) = packV 10 o := rfl
  generalize encodeWord (.vand o) = x at *
  have h0 : x % 256 = 10 := by rw [e]; exact pack_op8 _ _
  have hd : decodeV x = accept (.vand (vrOf x)) x := by unfold decodeV; rw [h0]; rfl
  rw [show vrOf x = o from e ▸ vrOf_packV _ o] at hd
  exact hd)

theorem vor (o : VFields) : Statement (.vor o) := of_slot (k := .v0) rfl rfl (fun _ => by
  have e : encodeWord (.vor o) = packV 11 o := rfl
  generalize encodeWord (.vor o) = x at *
  have h0 : x % 256 = 11 := by rw [e]; exact pack_op8 _ _
  have hd : decodeV x = accept (.vor (vrOf x)) x := by unfold decodeV; rw [h0]; rfl
  rw [show vrOf x = o from e ▸ vrOf_packV _ o] at hd
  exact hd)

theorem vxor (o : VFields) : Statement (.vxor o) := of_slot (k := .v0) rfl rfl (fun _ => by
  have e : encodeWord (.vxor o) = packV 12 o := rfl
  generalize encodeWord (.vxor o) = x at *
  have h0 : x % 256 = 12 := by rw [e]; exact pack_op8 _ _
  have hd : decodeV x = accept (.vxor (vrOf x)) x := by unfold decodeV; rw [h0]; rfl
  rw [show vrOf x = o from e ▸ vrOf_packV _ o] at hd
  exact hd)

theorem vshl (o : VFields) : Statement (.vshl o) := of_slot (k := .v0) rfl rfl (fun _ => by
  have e : encodeWord (.vshl o) = packV 13 o := rfl
  generalize encodeWord (.vshl o) = x at *
  have h0 : x % 256 = 13 := by rw [e]; exact pack_op8 _ _
  have hd : decodeV x = accept (.vshl (vrOf x)) x := by unfold decodeV; rw [h0]; rfl
  rw [show vrOf x = o from e ▸ vrOf_packV _ o] at hd
  exact hd)

theorem vshr (o : VFields) : Statement (.vshr o) := of_slot (k := .v0) rfl rfl (fun _ => by
  have e : encodeWord (.vshr o) = packV 14 o := rfl
  generalize encodeWord (.vshr o) = x at *
  have h0 : x % 256 = 14 := by rw [e]; exact pack_op8 _ _
  have hd : decodeV x = accept (.vshr (vrOf x)) x := by unfold decodeV; rw [h0]; rfl
  rw [show vrOf x = o from e ▸ vrOf_packV _ o] at hd
  exact hd)

theorem vcmp (o : VFields) : Statement (.vcmp o) := of_slot (k := .v0) rfl rfl (fun _ => by
  have e : encodeWord (.vcmp o) = packV 15 o := rfl
  generalize encodeWord (.vcmp o) = x at *
  have h0 : x % 256 = 15 := by rw [e]; exact pack_op8 _ _
  have hd : decodeV x = accept (.vcmp (vrOf x)) x := by unfold decodeV; rw [h0]; rfl
  rw [show vrOf x = o from e ▸ vrOf_packV _ o] at hd
  exact hd)

theorem vsel (o : VFields) : Statement (.vsel o) := of_slot (k := .v0) rfl rfl (fun _ => by
  have e : encodeWord (.vsel o) = packV 16 o := rfl
  generalize encodeWord (.vsel o) = x at *
  have h0 : x % 256 = 16 := by rw [e]; exact pack_op8 _ _
  have hd : decodeV x = accept (.vsel (vrOf x)) x := by unfold decodeV; rw [h0]; rfl
  rw [show vrOf x = o from e ▸ vrOf_packV _ o] at hd
  exact hd)

theorem vmov (o : VFields) : Statement (.vmov o) := of_slot (k := .v0) rfl rfl (fun _ => by
  have e : encodeWord (.vmov o) = packV 17 o := rfl
  generalize encodeWord (.vmov o) = x at *
  have h0 : x % 256 = 17 := by rw [e]; exact pack_op8 _ _
  have hd : decodeV x = accept (.vmov (vrOf x)) x := by unfold decodeV; rw [h0]; rfl
  rw [show vrOf x = o from e ▸ vrOf_packV _ o] at hd
  exact hd)

theorem vbcast (o : VFields) : Statement (.vbcast o) := of_slot (k := .v0) rfl rfl (fun _ => by
  have e : encodeWord (.vbcast o) = packV 18 o := rfl
  generalize encodeWord (.vbcast o) = x at *
  have h0 : x % 256 = 18 := by rw [e]; exact pack_op8 _ _
  have hd : decodeV x = accept (.vbcast (vrOf x)) x := by unfold decodeV; rw [h0]; rfl
  rw [show vrOf x = o from e ▸ vrOf_packV _ o] at hd
  exact hd)

theorem viota (o : VFields) : Statement (.viota o) := of_slot (k := .v0) rfl rfl (fun _ => by
  have e : encodeWord (.viota o) = packV 19 o := rfl
  generalize encodeWord (.viota o) = x at *
  have h0 : x % 256 = 19 := by rw [e]; exact pack_op8 _ _
  have hd : decodeV x = accept (.viota (vrOf x)) x := by unfold decodeV; rw [h0]; rfl
  rw [show vrOf x = o from e ▸ vrOf_packV _ o] at hd
  exact hd)

theorem vperm (o : VFields) : Statement (.vperm o) := of_slot (k := .v0) rfl rfl (fun _ => by
  have e : encodeWord (.vperm o) = packV 20 o := rfl
  generalize encodeWord (.vperm o) = x at *
  have h0 : x % 256 = 20 := by rw [e]; exact pack_op8 _ _
  have hd : decodeV x = accept (.vperm (vrOf x)) x := by unfold decodeV; rw [h0]; rfl
  rw [show vrOf x = o from e ▸ vrOf_packV _ o] at hd
  exact hd)

theorem vrsum (o : VFields) : Statement (.vrsum o) := of_slot (k := .v0) rfl rfl (fun _ => by
  have e : encodeWord (.vrsum o) = packV 21 o := rfl
  generalize encodeWord (.vrsum o) = x at *
  have h0 : x % 256 = 21 := by rw [e]; exact pack_op8 _ _
  have hd : decodeV x = accept (.vrsum (vrOf x)) x := by unfold decodeV; rw [h0]; rfl
  rw [show vrOf x = o from e ▸ vrOf_packV _ o] at hd
  exact hd)

theorem vrmax (o : VFields) : Statement (.vrmax o) := of_slot (k := .v0) rfl rfl (fun _ => by
  have e : encodeWord (.vrmax o) = packV 22 o := rfl
  generalize encodeWord (.vrmax o) = x at *
  have h0 : x % 256 = 22 := by rw [e]; exact pack_op8 _ _
  have hd : decodeV x = accept (.vrmax (vrOf x)) x := by unfold decodeV; rw [h0]; rfl
  rw [show vrOf x = o from e ▸ vrOf_packV _ o] at hd
  exact hd)

theorem vrmin (o : VFields) : Statement (.vrmin o) := of_slot (k := .v0) rfl rfl (fun _ => by
  have e : encodeWord (.vrmin o) = packV 23 o := rfl
  generalize encodeWord (.vrmin o) = x at *
  have h0 : x % 256 = 23 := by rw [e]; exact pack_op8 _ _
  have hd : decodeV x = accept (.vrmin (vrOf x)) x := by unfold decodeV; rw [h0]; rfl
  rw [show vrOf x = o from e ▸ vrOf_packV _ o] at hd
  exact hd)

theorem vscan (o : VFields) : Statement (.vscan o) := of_slot (k := .v0) rfl rfl (fun _ => by
  have e : encodeWord (.vscan o) = packV 24 o := rfl
  generalize encodeWord (.vscan o) = x at *
  have h0 : x % 256 = 24 := by rw [e]; exact pack_op8 _ _
  have hd : decodeV x = accept (.vscan (vrOf x)) x := by unfold decodeV; rw [h0]; rfl
  rw [show vrOf x = o from e ▸ vrOf_packV _ o] at hd
  exact hd)

theorem vcvt (o : VFields) : Statement (.vcvt o) := of_slot (k := .v0) rfl rfl (fun _ => by
  have e : encodeWord (.vcvt o) = packV 25 o := rfl
  generalize encodeWord (.vcvt o) = x at *
  have h0 : x % 256 = 25 := by rw [e]; exact pack_op8 _ _
  have hd : decodeV x = accept (.vcvt (vrOf x)) x := by unfold decodeV; rw [h0]; rfl
  rw [show vrOf x = o from e ▸ vrOf_packV _ o] at hd
  exact hd)

theorem vqnt (o : VFields) : Statement (.vqnt o) := of_slot (k := .v0) rfl rfl (fun _ => by
  have e : encodeWord (.vqnt o) = packV 26 o := rfl
  generalize encodeWord (.vqnt o) = x at *
  have h0 : x % 256 = 26 := by rw [e]; exact pack_op8 _ _
  have hd : decodeV x = accept (.vqnt (vrOf x)) x := by unfold decodeV; rw [h0]; rfl
  rw [show vrOf x = o from e ▸ vrOf_packV _ o] at hd
  exact hd)

theorem vdqt (o : VFields) : Statement (.vdqt o) := of_slot (k := .v0) rfl rfl (fun _ => by
  have e : encodeWord (.vdqt o) = packV 27 o := rfl
  generalize encodeWord (.vdqt o) = x at *
  have h0 : x % 256 = 27 := by rw [e]; exact pack_op8 _ _
  have hd : decodeV x = accept (.vdqt (vrOf x)) x := by unfold decodeV; rw [h0]; rfl
  rw [show vrOf x = o from e ▸ vrOf_packV _ o] at hd
  exact hd)

theorem vtopk (o : VFields) : Statement (.vtopk o) := of_slot (k := .v0) rfl rfl (fun _ => by
  have e : encodeWord (.vtopk o) = packV 28 o := rfl
  generalize encodeWord (.vtopk o) = x at *
  have h0 : x % 256 = 28 := by rw [e]; exact pack_op8 _ _
  have hd : decodeV x = accept (.vtopk (vrOf x)) x := by unfold decodeV; rw [h0]; rfl
  rw [show vrOf x = o from e ▸ vrOf_packV _ o] at hd
  exact hd)

theorem conft (o : VFields) : Statement (.conft o) := of_slot (k := .v0) rfl rfl (fun _ => by
  have e : encodeWord (.conft o) = packV 29 o := rfl
  generalize encodeWord (.conft o) = x at *
  have h0 : x % 256 = 29 := by rw [e]; exact pack_op8 _ _
  have hd : decodeV x = accept (.conft (vrOf x)) x := by unfold decodeV; rw [h0]; rfl
  rw [show vrOf x = o from e ▸ vrOf_packV _ o] at hd
  exact hd)

theorem vext (o : VFields) : Statement (.vext o) := of_slot (k := .v0) rfl rfl (fun _ => by
  have e : encodeWord (.vext o) = packV 30 o := rfl
  generalize encodeWord (.vext o) = x at *
  have h0 : x % 256 = 30 := by rw [e]; exact pack_op8 _ _
  have hd : decodeV x = accept (.vext (vrOf x)) x := by unfold decodeV; rw [h0]; rfl
  rw [show vrOf x = o from e ▸ vrOf_packV _ o] at hd
  exact hd)

theorem vins (o : VFields) : Statement (.vins o) := of_slot (k := .v0) rfl rfl (fun _ => by
  have e : encodeWord (.vins o) = packV 31 o := rfl
  generalize encodeWord (.vins o) = x at *
  have h0 : x % 256 = 31 := by rw [e]; exact pack_op8 _ _
  have hd : decodeV x = accept (.vins (vrOf x)) x := by unfold decodeV; rw [h0]; rfl
  rw [show vrOf x = o from e ▸ vrOf_packV _ o] at hd
  exact hd)

theorem vexp (o : VFields) : Statement (.vexp o) := of_slot (k := .v1) rfl rfl (fun _ => by
  have e : encodeWord (.vexp o) = packV 32 o := rfl
  generalize encodeWord (.vexp o) = x at *
  have h0 : x % 256 = 32 := by rw [e]; exact pack_op8 _ _
  have hd : decodeV x = accept (.vexp (vrOf x)) x := by unfold decodeV; rw [h0]; rfl
  rw [show vrOf x = o from e ▸ vrOf_packV _ o] at hd
  exact hd)

theorem vlog (o : VFields) : Statement (.vlog o) := of_slot (k := .v1) rfl rfl (fun _ => by
  have e : encodeWord (.vlog o) = packV 33 o := rfl
  generalize encodeWord (.vlog o) = x at *
  have h0 : x % 256 = 33 := by rw [e]; exact pack_op8 _ _
  have hd : decodeV x = accept (.vlog (vrOf x)) x := by unfold decodeV; rw [h0]; rfl
  rw [show vrOf x = o from e ▸ vrOf_packV _ o] at hd
  exact hd)

theorem vrcp (o : VFields) : Statement (.vrcp o) := of_slot (k := .v1) rfl rfl (fun _ => by
  have e : encodeWord (.vrcp o) = packV 34 o := rfl
  generalize encodeWord (.vrcp o) = x at *
  have h0 : x % 256 = 34 := by rw [e]; exact pack_op8 _ _
  have hd : decodeV x = accept (.vrcp (vrOf x)) x := by unfold decodeV; rw [h0]; rfl
  rw [show vrOf x = o from e ▸ vrOf_packV _ o] at hd
  exact hd)

theorem vrsq (o : VFields) : Statement (.vrsq o) := of_slot (k := .v1) rfl rfl (fun _ => by
  have e : encodeWord (.vrsq o) = packV 35 o := rfl
  generalize encodeWord (.vrsq o) = x at *
  have h0 : x % 256 = 35 := by rw [e]; exact pack_op8 _ _
  have hd : decodeV x = accept (.vrsq (vrOf x)) x := by unfold decodeV; rw [h0]; rfl
  rw [show vrOf x = o from e ▸ vrOf_packV _ o] at hd
  exact hd)

theorem vtanh (o : VFields) : Statement (.vtanh o) := of_slot (k := .v1) rfl rfl (fun _ => by
  have e : encodeWord (.vtanh o) = packV 36 o := rfl
  generalize encodeWord (.vtanh o) = x at *
  have h0 : x % 256 = 36 := by rw [e]; exact pack_op8 _ _
  have hd : decodeV x = accept (.vtanh (vrOf x)) x := by unfold decodeV; rw [h0]; rfl
  rw [show vrOf x = o from e ▸ vrOf_packV _ o] at hd
  exact hd)

theorem mma (o : MFields) : Statement (.mma o) := of_slot (k := .m) rfl rfl (fun _ => by
  have e : encodeWord (.mma o) = packM 1 o := rfl
  generalize encodeWord (.mma o) = x at *
  have h0 : x % 256 = 1 := by rw [e]; exact pack_op8 _ _
  have hd : decodeM x = accept (.mma (mmOf x)) x := by unfold decodeM; rw [h0]; rfl
  rw [show mmOf x = o from e ▸ mmOf_packM _ o] at hd
  exact hd)

theorem mgv (o : MFields) : Statement (.mgv o) := of_slot (k := .m) rfl rfl (fun _ => by
  have e : encodeWord (.mgv o) = packM 2 o := rfl
  generalize encodeWord (.mgv o) = x at *
  have h0 : x % 256 = 2 := by rw [e]; exact pack_op8 _ _
  have hd : decodeM x = accept (.mgv (mmOf x)) x := by unfold decodeM; rw [h0]; rfl
  rw [show mmOf x = o from e ▸ mmOf_packM _ o] at hd
  exact hd)

theorem mrot (o : MFields) : Statement (.mrot o) := of_slot (k := .m) rfl rfl (fun _ => by
  have e : encodeWord (.mrot o) = packM 3 o := rfl
  generalize encodeWord (.mrot o) = x at *
  have h0 : x % 256 = 3 := by rw [e]; exact pack_op8 _ _
  have hd : decodeM x = accept (.mrot (mmOf x)) x := by unfold decodeM; rw [h0]; rfl
  rw [show mmOf x = o from e ▸ mmOf_packM _ o] at hd
  exact hd)

theorem mzero (o : MFields) : Statement (.mzero o) := of_slot (k := .m) rfl rfl (fun _ => by
  have e : encodeWord (.mzero o) = packM 4 o := rfl
  generalize encodeWord (.mzero o) = x at *
  have h0 : x % 256 = 4 := by rw [e]; exact pack_op8 _ _
  have hd : decodeM x = accept (.mzero (mmOf x)) x := by unfold decodeM; rw [h0]; rfl
  rw [show mmOf x = o from e ▸ mmOf_packM _ o] at hd
  exact hd)

theorem mdrn (o : MFields) : Statement (.mdrn o) := of_slot (k := .m) rfl rfl (fun _ => by
  have e : encodeWord (.mdrn o) = packM 5 o := rfl
  generalize encodeWord (.mdrn o) = x at *
  have h0 : x % 256 = 5 := by rw [e]; exact pack_op8 _ _
  have hd : decodeM x = accept (.mdrn (mmOf x)) x := by unfold decodeM; rw [h0]; rfl
  rw [show mmOf x = o from e ▸ mmOf_packM _ o] at hd
  exact hd)

theorem mpri (o : MFields) : Statement (.mpri o) := of_slot (k := .m) rfl rfl (fun _ => by
  have e : encodeWord (.mpri o) = packM 6 o := rfl
  generalize encodeWord (.mpri o) = x at *
  have h0 : x % 256 = 6 := by rw [e]; exact pack_op8 _ _
  have hd : decodeM x = accept (.mpri (mmOf x)) x := by unfold decodeM; rw [h0]; rfl
  rw [show mmOf x = o from e ▸ mmOf_packM _ o] at hd
  exact hd)

theorem ld (o : LMFields) : Statement (.ld o) := of_slot (k := .l) rfl rfl (fun _ => by
  have e : encodeWord (.ld o) = packLM 1 o := rfl
  generalize encodeWord (.ld o) = x at *
  have h0 : x % 256 = 1 := by rw [e]; exact pack_op8 _ _
  have hd : decodeL x = accept (.ld (lmOf x)) x := by unfold decodeL; rw [h0]; rfl
  rw [show lmOf x = o from e ▸ lmOf_packLM _ o] at hd
  exact hd)

theorem ldv (o : LMFields) : Statement (.ldv o) := of_slot (k := .l) rfl rfl (fun _ => by
  have e : encodeWord (.ldv o) = packLM 2 o := rfl
  generalize encodeWord (.ldv o) = x at *
  have h0 : x % 256 = 2 := by rw [e]; exact pack_op8 _ _
  have hd : decodeL x = accept (.ldv (lmOf x)) x := by unfold decodeL; rw [h0]; rfl
  rw [show lmOf x = o from e ▸ lmOf_packLM _ o] at hd
  exact hd)

theorem lds (o : LMFields) : Statement (.lds o) := of_slot (k := .l) rfl rfl (fun _ => by
  have e : encodeWord (.lds o) = packLM 4 o := rfl
  generalize encodeWord (.lds o) = x at *
  have h0 : x % 256 = 4 := by rw [e]; exact pack_op8 _ _
  have hd : decodeL x = accept (.lds (lmOf x)) x := by unfold decodeL; rw [h0]; rfl
  rw [show lmOf x = o from e ▸ lmOf_packLM _ o] at hd
  exact hd)

theorem lda (o : LMFields) : Statement (.lda o) := of_slot (k := .l) rfl rfl (fun _ => by
  have e : encodeWord (.lda o) = packLM 5 o := rfl
  generalize encodeWord (.lda o) = x at *
  have h0 : x % 256 = 5 := by rw [e]; exact pack_op8 _ _
  have hd : decodeL x = accept (.lda (lmOf x)) x := by unfold decodeL; rw [h0]; rfl
  rw [show lmOf x = o from e ▸ lmOf_packLM _ o] at hd
  exact hd)

theorem latch (o : LMFields) : Statement (.latch o) := of_slot (k := .l) rfl rfl (fun _ => by
  have e : encodeWord (.latch o) = packLM 6 o := rfl
  generalize encodeWord (.latch o) = x at *
  have h0 : x % 256 = 6 := by rw [e]; exact pack_op8 _ _
  have hd : decodeL x = accept (.latch (lmOf x)) x := by unfold decodeL; rw [h0]; rfl
  rw [show lmOf x = o from e ▸ lmOf_packLM _ o] at hd
  exact hd)

theorem pref (o : LMFields) : Statement (.pref o) := of_slot (k := .l) rfl rfl (fun _ => by
  have e : encodeWord (.pref o) = packLM 7 o := rfl
  generalize encodeWord (.pref o) = x at *
  have h0 : x % 256 = 7 := by rw [e]; exact pack_op8 _ _
  have hd : decodeL x = accept (.pref (lmOf x)) x := by unfold decodeL; rw [h0]; rfl
  rw [show lmOf x = o from e ▸ lmOf_packLM _ o] at hd
  exact hd)

theorem ldt (o : LMFields) : Statement (.ldt o) := of_slot (k := .l) rfl rfl (fun _ => by
  have e : encodeWord (.ldt o) = packLM 8 o := rfl
  generalize encodeWord (.ldt o) = x at *
  have h0 : x % 256 = 8 := by rw [e]; exact pack_op8 _ _
  have hd : decodeL x = accept (.ldt (lmOf x)) x := by unfold decodeL; rw [h0]; rfl
  rw [show lmOf x = o from e ▸ lmOf_packLM _ o] at hd
  exact hd)

theorem kvad (o : LMFields) : Statement (.kvad o) := of_slot (k := .l) rfl rfl (fun _ => by
  have e : encodeWord (.kvad o) = packLM 9 o := rfl
  generalize encodeWord (.kvad o) = x at *
  have h0 : x % 256 = 9 := by rw [e]; exact pack_op8 _ _
  have hd : decodeL x = accept (.kvad (lmOf x)) x := by unfold decodeL; rw [h0]; rfl
  rw [show lmOf x = o from e ▸ lmOf_packLM _ o] at hd
  exact hd)

theorem ldx (o : LDXFields) : Statement (.ldx o) := of_slot (k := .l) rfl rfl (fun _ => by
  have e : encodeWord (.ldx o) = pack [(8, 3), (6, o.d.toNat), (6, o.base.toNat), (12, o.off.toNat), (12, o.land.toNat), (3, o.size.toNat), (1, o.vec.toNat)] := rfl
  generalize encodeWord (.ldx o) = x at *
  have h0 : x % 256 = 3 := by rw [e]; exact pack_op8 _ _
  have f : ldxOf x = o := by
    rw [e]
    simp only [ldxOf, bits_skip, bits_here, bitAt_skip, bitAt_here, Nat.reduceLeDiff, Nat.reduceSub, BitVec.ofNat_toNat, BitVec.setWidth_eq]
  have hd : decodeL x = accept (.ldx (ldxOf x)) x := by unfold decodeL; rw [h0]; rfl
  rw [f] at hd
  exact hd)

theorem st (o : LMFields) : Statement (.st o) := of_slot (k := .w) rfl rfl (fun _ => by
  have e : encodeWord (.st o) = packLM 1 o := rfl
  generalize encodeWord (.st o) = x at *
  have h0 : x % 256 = 1 := by rw [e]; exact pack_op8 _ _
  have hd : decodeW x = accept (.st (lmOf x)) x := by unfold decodeW; rw [h0]; rfl
  rw [show lmOf x = o from e ▸ lmOf_packLM _ o] at hd
  exact hd)

theorem stv (o : LMFields) : Statement (.stv o) := of_slot (k := .w) rfl rfl (fun _ => by
  have e : encodeWord (.stv o) = packLM 2 o := rfl
  generalize encodeWord (.stv o) = x at *
  have h0 : x % 256 = 2 := by rw [e]; exact pack_op8 _ _
  have hd : decodeW x = accept (.stv (lmOf x)) x := by unfold decodeW; rw [h0]; rfl
  rw [show lmOf x = o from e ▸ lmOf_packLM _ o] at hd
  exact hd)

theorem stx (o : LMFields) : Statement (.stx o) := of_slot (k := .w) rfl rfl (fun _ => by
  have e : encodeWord (.stx o) = packLM 3 o := rfl
  generalize encodeWord (.stx o) = x at *
  have h0 : x % 256 = 3 := by rw [e]; exact pack_op8 _ _
  have hd : decodeW x = accept (.stx (lmOf x)) x := by unfold decodeW; rw [h0]; rfl
  rw [show lmOf x = o from e ▸ lmOf_packLM _ o] at hd
  exact hd)

theorem stl (o : LMFields) : Statement (.stl o) := of_slot (k := .w) rfl rfl (fun _ => by
  have e : encodeWord (.stl o) = packLM 4 o := rfl
  generalize encodeWord (.stl o) = x at *
  have h0 : x % 256 = 4 := by rw [e]; exact pack_op8 _ _
  have hd : decodeW x = accept (.stl (lmOf x)) x := by unfold decodeW; rw [h0]; rfl
  rw [show lmOf x = o from e ▸ lmOf_packLM _ o] at hd
  exact hd)

theorem stp (o : LMFields) : Statement (.stp o) := of_slot (k := .w) rfl rfl (fun _ => by
  have e : encodeWord (.stp o) = packLM 5 o := rfl
  generalize encodeWord (.stp o) = x at *
  have h0 : x % 256 = 5 := by rw [e]; exact pack_op8 _ _
  have hd : decodeW x = accept (.stp (lmOf x)) x := by unfold decodeW; rw [h0]; rfl
  rw [show lmOf x = o from e ▸ lmOf_packLM _ o] at hd
  exact hd)

theorem aadd (o : WAFields) : Statement (.aadd o) := of_slot (k := .w) rfl rfl (fun _ => by
  have e : encodeWord (.aadd o) = packWA 16 o := rfl
  generalize encodeWord (.aadd o) = x at *
  have h0 : x % 256 = 16 := by rw [e]; exact pack_op8 _ _
  have hd : decodeW x = accept (.aadd (waOf x)) x := by unfold decodeW; rw [h0]; rfl
  rw [show waOf x = o from e ▸ waOf_packWA _ o] at hd
  exact hd)

theorem amin (o : WAFields) : Statement (.amin o) := of_slot (k := .w) rfl rfl (fun _ => by
  have e : encodeWord (.amin o) = packWA 17 o := rfl
  generalize encodeWord (.amin o) = x at *
  have h0 : x % 256 = 17 := by rw [e]; exact pack_op8 _ _
  have hd : decodeW x = accept (.amin (waOf x)) x := by unfold decodeW; rw [h0]; rfl
  rw [show waOf x = o from e ▸ waOf_packWA _ o] at hd
  exact hd)

theorem amax (o : WAFields) : Statement (.amax o) := of_slot (k := .w) rfl rfl (fun _ => by
  have e : encodeWord (.amax o) = packWA 18 o := rfl
  generalize encodeWord (.amax o) = x at *
  have h0 : x % 256 = 18 := by rw [e]; exact pack_op8 _ _
  have hd : decodeW x = accept (.amax (waOf x)) x := by unfold decodeW; rw [h0]; rfl
  rw [show waOf x = o from e ▸ waOf_packWA _ o] at hd
  exact hd)

theorem aand (o : WAFields) : Statement (.aand o) := of_slot (k := .w) rfl rfl (fun _ => by
  have e : encodeWord (.aand o) = packWA 19 o := rfl
  generalize encodeWord (.aand o) = x at *
  have h0 : x % 256 = 19 := by rw [e]; exact pack_op8 _ _
  have hd : decodeW x = accept (.aand (waOf x)) x := by unfold decodeW; rw [h0]; rfl
  rw [show waOf x = o from e ▸ waOf_packWA _ o] at hd
  exact hd)

theorem aor (o : WAFields) : Statement (.aor o) := of_slot (k := .w) rfl rfl (fun _ => by
  have e : encodeWord (.aor o) = packWA 20 o := rfl
  generalize encodeWord (.aor o) = x at *
  have h0 : x % 256 = 20 := by rw [e]; exact pack_op8 _ _
  have hd : decodeW x = accept (.aor (waOf x)) x := by unfold decodeW; rw [h0]; rfl
  rw [show waOf x = o from e ▸ waOf_packWA _ o] at hd
  exact hd)

theorem axor (o : WAFields) : Statement (.axor o) := of_slot (k := .w) rfl rfl (fun _ => by
  have e : encodeWord (.axor o) = packWA 21 o := rfl
  generalize encodeWord (.axor o) = x at *
  have h0 : x % 256 = 21 := by rw [e]; exact pack_op8 _ _
  have hd : decodeW x = accept (.axor (waOf x)) x := by unfold decodeW; rw [h0]; rfl
  rw [show waOf x = o from e ▸ waOf_packWA _ o] at hd
  exact hd)

theorem axch (o : WAFields) : Statement (.axch o) := of_slot (k := .w) rfl rfl (fun _ => by
  have e : encodeWord (.axch o) = packWA 22 o := rfl
  generalize encodeWord (.axch o) = x at *
  have h0 : x % 256 = 22 := by rw [e]; exact pack_op8 _ _
  have hd : decodeW x = accept (.axch (waOf x)) x := by unfold decodeW; rw [h0]; rfl
  rw [show waOf x = o from e ▸ waOf_packWA _ o] at hd
  exact hd)

theorem acas (o : WAFields) : Statement (.acas o) := of_slot (k := .w) rfl rfl (fun _ => by
  have e : encodeWord (.acas o) = packWA 23 o := rfl
  generalize encodeWord (.acas o) = x at *
  have h0 : x % 256 = 23 := by rw [e]; exact pack_op8 _ _
  have hd : decodeW x = accept (.acas (waOf x)) x := by unfold decodeW; rw [h0]; rfl
  rw [show waOf x = o from e ▸ waOf_packWA _ o] at hd
  exact hd)

theorem radd (o : WAFields) : Statement (.radd o) := of_slot (k := .w) rfl rfl (fun _ => by
  have e : encodeWord (.radd o) = packWA 24 o := rfl
  generalize encodeWord (.radd o) = x at *
  have h0 : x % 256 = 24 := by rw [e]; exact pack_op8 _ _
  have hd : decodeW x = accept (.radd (waOf x)) x := by unfold decodeW; rw [h0]; rfl
  rw [show waOf x = o from e ▸ waOf_packWA _ o] at hd
  exact hd)

theorem rmax (o : WAFields) : Statement (.rmax o) := of_slot (k := .w) rfl rfl (fun _ => by
  have e : encodeWord (.rmax o) = packWA 25 o := rfl
  generalize encodeWord (.rmax o) = x at *
  have h0 : x % 256 = 25 := by rw [e]; exact pack_op8 _ _
  have hd : decodeW x = accept (.rmax (waOf x)) x := by unfold decodeW; rw [h0]; rfl
  rw [show waOf x = o from e ▸ waOf_packWA _ o] at hd
  exact hd)

theorem cpy (o : XFields) : Statement (.cpy o) := of_slot (k := .x) rfl rfl (fun _ => by
  have e : encodeWord (.cpy o) = packX 1 o := rfl
  generalize encodeWord (.cpy o) = x at *
  have h0 : x % 256 = 1 := by rw [e]; exact pack_op8 _ _
  have hd : decodeX x = accept (.cpy (xcOf x)) x := by unfold decodeX; rw [h0]; rfl
  rw [show xcOf x = o from e ▸ xcOf_packX _ o] at hd
  exact hd)

theorem cpyn (o : XFields) : Statement (.cpyn o) := of_slot (k := .x) rfl rfl (fun _ => by
  have e : encodeWord (.cpyn o) = packX 2 o := rfl
  generalize encodeWord (.cpyn o) = x at *
  have h0 : x % 256 = 2 := by rw [e]; exact pack_op8 _ _
  have hd : decodeX x = accept (.cpyn (xcOf x)) x := by unfold decodeX; rw [h0]; rfl
  rw [show xcOf x = o from e ▸ xcOf_packX _ o] at hd
  exact hd)

theorem cpygo (o : XFields) : Statement (.cpygo o) := of_slot (k := .x) rfl rfl (fun _ => by
  have e : encodeWord (.cpygo o) = packX 3 o := rfl
  generalize encodeWord (.cpygo o) = x at *
  have h0 : x % 256 = 3 := by rw [e]; exact pack_op8 _ _
  have hd : decodeX x = accept (.cpygo (xcOf x)) x := by unfold decodeX; rw [h0]; rfl
  rw [show xcOf x = o from e ▸ xcOf_packX _ o] at hd
  exact hd)

theorem cpyg (o : XFields) : Statement (.cpyg o) := of_slot (k := .x) rfl rfl (fun _ => by
  have e : encodeWord (.cpyg o) = packX 4 o := rfl
  generalize encodeWord (.cpyg o) = x at *
  have h0 : x % 256 = 4 := by rw [e]; exact pack_op8 _ _
  have hd : decodeX x = accept (.cpyg (xcOf x)) x := by unfold decodeX; rw [h0]; rfl
  rw [show xcOf x = o from e ▸ xcOf_packX _ o] at hd
  exact hd)

theorem drain (o : XFields) : Statement (.drain o) := of_slot (k := .x) rfl rfl (fun _ => by
  have e : encodeWord (.drain o) = packX 5 o := rfl
  generalize encodeWord (.drain o) = x at *
  have h0 : x % 256 = 5 := by rw [e]; exact pack_op8 _ _
  have hd : decodeX x = accept (.drain (xcOf x)) x := by unfold decodeX; rw [h0]; rfl
  rw [show xcOf x = o from e ▸ xcOf_packX _ o] at hd
  exact hd)

theorem bcast (o : XFields) : Statement (.bcast o) := of_slot (k := .x) rfl rfl (fun _ => by
  have e : encodeWord (.bcast o) = packX 6 o := rfl
  generalize encodeWord (.bcast o) = x at *
  have h0 : x % 256 = 6 := by rw [e]; exact pack_op8 _ _
  have hd : decodeX x = accept (.bcast (xcOf x)) x := by unfold decodeX; rw [h0]; rfl
  rw [show xcOf x = o from e ▸ xcOf_packX _ o] at hd
  exact hd)

theorem mcw (o : XFields) : Statement (.mcw o) := of_slot (k := .x) rfl rfl (fun _ => by
  have e : encodeWord (.mcw o) = packX 7 o := rfl
  generalize encodeWord (.mcw o) = x at *
  have h0 : x % 256 = 7 := by rw [e]; exact pack_op8 _ _
  have hd : decodeX x = accept (.mcw (xcOf x)) x := by unfold decodeX; rw [h0]; rfl
  rw [show xcOf x = o from e ▸ xcOf_packX _ o] at hd
  exact hd)

theorem kvcp (o : XFields) : Statement (.kvcp o) := of_slot (k := .x) rfl rfl (fun _ => by
  have e : encodeWord (.kvcp o) = packX 8 o := rfl
  generalize encodeWord (.kvcp o) = x at *
  have h0 : x % 256 = 8 := by rw [e]; exact pack_op8 _ _
  have hd : decodeX x = accept (.kvcp (xcOf x)) x := by unfold decodeX; rw [h0]; rfl
  rw [show xcOf x = o from e ▸ xcOf_packX _ o] at hd
  exact hd)

theorem pfxl (o : XFields) : Statement (.pfxl o) := of_slot (k := .x) rfl rfl (fun _ => by
  have e : encodeWord (.pfxl o) = packX 9 o := rfl
  generalize encodeWord (.pfxl o) = x at *
  have h0 : x % 256 = 9 := by rw [e]; exact pack_op8 _ _
  have hd : decodeX x = accept (.pfxl (xcOf x)) x := by unfold decodeX; rw [h0]; rfl
  rw [show xcOf x = o from e ▸ xcOf_packX _ o] at hd
  exact hd)

theorem pfxi (o : XFields) : Statement (.pfxi o) := of_slot (k := .x) rfl rfl (fun _ => by
  have e : encodeWord (.pfxi o) = packX 10 o := rfl
  generalize encodeWord (.pfxi o) = x at *
  have h0 : x % 256 = 10 := by rw [e]; exact pack_op8 _ _
  have hd : decodeX x = accept (.pfxi (xcOf x)) x := by unfold decodeX; rw [h0]; rfl
  rw [show xcOf x = o from e ▸ xcOf_packX _ o] at hd
  exact hd)

theorem send (o : NFields) : Statement (.send o) := of_slot (k := .n) rfl rfl (fun _ => by
  have e : encodeWord (.send o) = packN 1 o := rfl
  generalize encodeWord (.send o) = x at *
  have h0 : x % 256 = 1 := by rw [e]; exact pack_op8 _ _
  have hd : decodeN x = accept (.send (ncOf x)) x := by unfold decodeN; rw [h0]; rfl
  rw [show ncOf x = o from e ▸ ncOf_packN _ o] at hd
  exact hd)

theorem recv (o : NFields) : Statement (.recv o) := of_slot (k := .n) rfl rfl (fun _ => by
  have e : encodeWord (.recv o) = packN 2 o := rfl
  generalize encodeWord (.recv o) = x at *
  have h0 : x % 256 = 2 := by rw [e]; exact pack_op8 _ _
  have hd : decodeN x = accept (.recv (ncOf x)) x := by unfold decodeN; rw [h0]; rfl
  rw [show ncOf x = o from e ▸ ncOf_packN _ o] at hd
  exact hd)

theorem recva (o : NFields) : Statement (.recva o) := of_slot (k := .n) rfl rfl (fun _ => by
  have e : encodeWord (.recva o) = packN 3 o := rfl
  generalize encodeWord (.recva o) = x at *
  have h0 : x % 256 = 3 := by rw [e]; exact pack_op8 _ _
  have hd : decodeN x = accept (.recva (ncOf x)) x := by unfold decodeN; rw [h0]; rfl
  rw [show ncOf x = o from e ▸ ncOf_packN _ o] at hd
  exact hd)

theorem rtr (o : NFields) : Statement (.rtr o) := of_slot (k := .n) rfl rfl (fun _ => by
  have e : encodeWord (.rtr o) = packN 4 o := rfl
  generalize encodeWord (.rtr o) = x at *
  have h0 : x % 256 = 4 := by rw [e]; exact pack_op8 _ _
  have hd : decodeN x = accept (.rtr (ncOf x)) x := by unfold decodeN; rw [h0]; rfl
  rw [show ncOf x = o from e ▸ ncOf_packN _ o] at hd
  exact hd)

theorem put (o : NFields) : Statement (.put o) := of_slot (k := .n) rfl rfl (fun _ => by
  have e : encodeWord (.put o) = packN 5 o := rfl
  generalize encodeWord (.put o) = x at *
  have h0 : x % 256 = 5 := by rw [e]; exact pack_op8 _ _
  have hd : decodeN x = accept (.put (ncOf x)) x := by unfold decodeN; rw [h0]; rfl
  rw [show ncOf x = o from e ▸ ncOf_packN _ o] at hd
  exact hd)

theorem cpln (o : NFields) : Statement (.cpln o) := of_slot (k := .n) rfl rfl (fun _ => by
  have e : encodeWord (.cpln o) = packN 6 o := rfl
  generalize encodeWord (.cpln o) = x at *
  have h0 : x % 256 = 6 := by rw [e]; exact pack_op8 _ _
  have hd : decodeN x = accept (.cpln (ncOf x)) x := by unfold decodeN; rw [h0]; rfl
  rw [show ncOf x = o from e ▸ ncOf_packN _ o] at hd
  exact hd)

theorem knot : Statement (.knot) := of_slot (k := .y) rfl rfl (fun _ => by
  have e : encodeWord (.knot) = pack [(6, 1), (6, 0), (6, 0), (3, 0), (11, 0)] := rfl
  generalize encodeWord (.knot) = x at *
  have h0 : x % 64 = 1 := by rw [e]; exact pack_op6 _ _
  have hd : decodeY x = accept (.knot) x := by unfold decodeY; rw [h0]; rfl
  exact hd)

theorem waitq (q : BitVec 5) (n : BitVec 8) : Statement (.waitq q n) := of_slot (k := .y) rfl rfl (fun _ => by
  have e : encodeWord (.waitq q n) = pack [(6, 2), (5, q.toNat), (1, 0), (6, 0), (3, 0), (8, n.toNat), (3, 0)] := rfl
  generalize encodeWord (.waitq q n) = x at *
  have h0 : x % 64 = 2 := by rw [e]; exact pack_op6 _ _
  have f : bits x 6 5 = q ∧ bits x 21 8 = n := by
    rw [e]
    simp only [bits_skip, bits_here, BitVec.ofNat_toNat, BitVec.setWidth_eq, Nat.reduceLeDiff, Nat.reduceSub, and_self]
  obtain ⟨f0, f1⟩ := f
  have hd : decodeY x = accept (.waitq (bits x 6 5) (bits x 21 8)) x := by unfold decodeY; rw [h0]; rfl
  rw [f0, f1] at hd
  exact hd)

theorem fence (scope : BitVec 3) (kind : BitVec 2) : Statement (.fence scope kind) := of_slot (k := .y) rfl rfl (fun _ => by
  have e : encodeWord (.fence scope kind) = pack [(6, 3), (6, 0), (6, 0), (3, scope.toNat), (2, kind.toNat), (9, 0)] := rfl
  generalize encodeWord (.fence scope kind) = x at *
  have h0 : x % 64 = 3 := by rw [e]; exact pack_op6 _ _
  have f : bits x 18 3 = scope ∧ bits x 21 2 = kind := by
    rw [e]
    simp only [bits_skip, bits_here, BitVec.ofNat_toNat, BitVec.setWidth_eq, Nat.reduceLeDiff, Nat.reduceSub, and_self]
  obtain ⟨f0, f1⟩ := f
  have hd : decodeY x = accept (.fence (bits x 18 3) (bits x 21 2)) x := by unfold decodeY; rw [h0]; rfl
  rw [f0, f1] at hd
  exact hd)

theorem acqh (a : BitVec 6) (scope : BitVec 3) : Statement (.acqh a scope) := of_slot (k := .y) rfl rfl (fun _ => by
  have e : encodeWord (.acqh a scope) = pack [(6, 4), (6, a.toNat), (6, 0), (3, scope.toNat), (11, 0)] := rfl
  generalize encodeWord (.acqh a scope) = x at *
  have h0 : x % 64 = 4 := by rw [e]; exact pack_op6 _ _
  have f : bits x 6 6 = a ∧ bits x 18 3 = scope := by
    rw [e]
    simp only [bits_skip, bits_here, BitVec.ofNat_toNat, BitVec.setWidth_eq, Nat.reduceLeDiff, Nat.reduceSub, and_self]
  obtain ⟨f0, f1⟩ := f
  have hd : decodeY x = accept (.acqh (bits x 6 6) (bits x 18 3)) x := by unfold decodeY; rw [h0]; rfl
  rw [f0, f1] at hd
  exact hd)

theorem relh (a : BitVec 6) (scope : BitVec 3) : Statement (.relh a scope) := of_slot (k := .y) rfl rfl (fun _ => by
  have e : encodeWord (.relh a scope) = pack [(6, 5), (6, a.toNat), (6, 0), (3, scope.toNat), (11, 0)] := rfl
  generalize encodeWord (.relh a scope) = x at *
  have h0 : x % 64 = 5 := by rw [e]; exact pack_op6 _ _
  have f : bits x 6 6 = a ∧ bits x 18 3 = scope := by
    rw [e]
    simp only [bits_skip, bits_here, BitVec.ofNat_toNat, BitVec.setWidth_eq, Nat.reduceLeDiff, Nat.reduceSub, and_self]
  obtain ⟨f0, f1⟩ := f
  have hd : decodeY x = accept (.relh (bits x 6 6) (bits x 18 3)) x := by unfold decodeY; rw [h0]; rfl
  rw [f0, f1] at hd
  exact hd)

theorem lock (a : BitVec 6) (b : BitVec 6) (scope : BitVec 3) : Statement (.lock a b scope) := of_slot (k := .y) rfl rfl (fun h => by
  have ha := accept_self (.lock a b scope) h
  have e : encodeWord (.lock a b scope) = pack [(6, 6), (6, a.toNat), (6, b.toNat), (3, scope.toNat), (11, 0)] := rfl
  generalize encodeWord (.lock a b scope) = x at *
  have h0 : x % 64 = 6 := by rw [e]; exact pack_op6 _ _
  have f : bits x 6 6 = a ∧ bits x 12 6 = b ∧ bits x 18 3 = scope := by
    rw [e]
    simp only [bits_skip, bits_here, BitVec.ofNat_toNat, BitVec.setWidth_eq, Nat.reduceLeDiff, Nat.reduceSub, and_self]
  obtain ⟨f0, f1, f2⟩ := f
  have hd : decodeY x = (accept (.lock (bits x 6 6) (bits x 12 6) (bits x 18 3)) x <|> accept (.lockTry (bits x 21 4) (bits x 6 6) (bits x 12 6) (bits x 18 3)) x) := by unfold decodeY; rw [h0]; rfl
  rw [f0, f1, f2, ha] at hd
  exact hd.trans ha.symm)

theorem lockTry_first (a : BitVec 6) (b : BitVec 6) (scope : BitVec 3) (x : Nat) (hx : bitAt x 25 = true) : accept (.lock a b scope) x = none := by
  refine accept_other (fun c => ?_)
  have e : encodeWord (.lock a b scope) = pack [(6, 6), (6, a.toNat), (6, b.toNat), (3, scope.toNat), (11, 0)] := rfl
  rw [← c, e] at hx
  simp only [bitAt_skip, Nat.reduceLeDiff, Nat.reduceSub] at hx
  exact absurd hx (by decide)

theorem lockTry (pd : BitVec 4) (a : BitVec 6) (b : BitVec 6) (scope : BitVec 3) : Statement (.lockTry pd a b scope) := of_slot (k := .y) rfl rfl (fun _ => by
  have e : encodeWord (.lockTry pd a b scope) = pack [(6, 6), (6, a.toNat), (6, b.toNat), (3, scope.toNat), (4, pd.toNat), (1, 1), (6, 0)] := rfl
  generalize encodeWord (.lockTry pd a b scope) = x at *
  have h0 : x % 64 = 6 := by rw [e]; exact pack_op6 _ _
  have hb : bitAt x 25 = true := by rw [e]; simp only [bitAt_skip, Nat.reduceLeDiff, Nat.reduceSub]; rfl
  have f : bits x 21 4 = pd ∧ bits x 6 6 = a ∧ bits x 12 6 = b ∧ bits x 18 3 = scope := by
    rw [e]
    simp only [bits_skip, bits_here, BitVec.ofNat_toNat, BitVec.setWidth_eq, Nat.reduceLeDiff, Nat.reduceSub, and_self]
  obtain ⟨f0, f1, f2, f3⟩ := f
  have hd : decodeY x = (accept (.lock (bits x 6 6) (bits x 12 6) (bits x 18 3)) x <|> accept (.lockTry (bits x 21 4) (bits x 6 6) (bits x 12 6) (bits x 18 3)) x) := by unfold decodeY; rw [h0]; rfl
  rw [lockTry_first _ _ _ x hb, none_or, f0, f1, f2, f3] at hd
  exact hd)

theorem unlock (a : BitVec 6) (scope : BitVec 3) : Statement (.unlock a scope) := of_slot (k := .y) rfl rfl (fun _ => by
  have e : encodeWord (.unlock a scope) = pack [(6, 7), (6, a.toNat), (6, 0), (3, scope.toNat), (11, 0)] := rfl
  generalize encodeWord (.unlock a scope) = x at *
  have h0 : x % 64 = 7 := by rw [e]; exact pack_op6 _ _
  have f : bits x 6 6 = a ∧ bits x 18 3 = scope := by
    rw [e]
    simp only [bits_skip, bits_here, BitVec.ofNat_toNat, BitVec.setWidth_eq, Nat.reduceLeDiff, Nat.reduceSub, and_self]
  obtain ⟨f0, f1⟩ := f
  have hd : decodeY x = accept (.unlock (bits x 6 6) (bits x 18 3)) x := by unfold decodeY; rw [h0]; rfl
  rw [f0, f1] at hd
  exact hd)

theorem spawnNb (pd : BitVec 4) (a : BitVec 6) (b : BitVec 6) : Statement (.spawnNb pd a b) := of_slot (k := .y) rfl rfl (fun h => by
  have ha := accept_self (.spawnNb pd a b) h
  have e : encodeWord (.spawnNb pd a b) = pack [(6, 8), (6, a.toNat), (6, b.toNat), (3, 0), (4, pd.toNat), (1, 0), (6, 0)] := rfl
  generalize encodeWord (.spawnNb pd a b) = x at *
  have h0 : x % 64 = 8 := by rw [e]; exact pack_op6 _ _
  have f : bits x 21 4 = pd ∧ bits x 6 6 = a ∧ bits x 12 6 = b := by
    rw [e]
    simp only [bits_skip, bits_here, BitVec.ofNat_toNat, BitVec.setWidth_eq, Nat.reduceLeDiff, Nat.reduceSub, and_self]
  obtain ⟨f0, f1, f2⟩ := f
  have hd : decodeY x = (accept (.spawnNb (bits x 21 4) (bits x 6 6) (bits x 12 6)) x <|> accept (.spawnB (bits x 21 4) (bits x 6 6) (bits x 12 6)) x) := by unfold decodeY; rw [h0]; rfl
  rw [f0, f1, f2, ha] at hd
  exact hd.trans ha.symm)

theorem spawnB_first (pd : BitVec 4) (a : BitVec 6) (b : BitVec 6) (x : Nat) (hx : bitAt x 25 = true) : accept (.spawnNb pd a b) x = none := by
  refine accept_other (fun c => ?_)
  have e : encodeWord (.spawnNb pd a b) = pack [(6, 8), (6, a.toNat), (6, b.toNat), (3, 0), (4, pd.toNat), (1, 0), (6, 0)] := rfl
  rw [← c, e] at hx
  simp only [bitAt_skip, Nat.reduceLeDiff, Nat.reduceSub] at hx
  exact absurd hx (by decide)

theorem spawnB (pd : BitVec 4) (a : BitVec 6) (b : BitVec 6) : Statement (.spawnB pd a b) := of_slot (k := .y) rfl rfl (fun _ => by
  have e : encodeWord (.spawnB pd a b) = pack [(6, 8), (6, a.toNat), (6, b.toNat), (3, 0), (4, pd.toNat), (1, 1), (6, 0)] := rfl
  generalize encodeWord (.spawnB pd a b) = x at *
  have h0 : x % 64 = 8 := by rw [e]; exact pack_op6 _ _
  have hb : bitAt x 25 = true := by rw [e]; simp only [bitAt_skip, Nat.reduceLeDiff, Nat.reduceSub]; rfl
  have f : bits x 21 4 = pd ∧ bits x 6 6 = a ∧ bits x 12 6 = b := by
    rw [e]
    simp only [bits_skip, bits_here, BitVec.ofNat_toNat, BitVec.setWidth_eq, Nat.reduceLeDiff, Nat.reduceSub, and_self]
  obtain ⟨f0, f1, f2⟩ := f
  have hd : decodeY x = (accept (.spawnNb (bits x 21 4) (bits x 6 6) (bits x 12 6)) x <|> accept (.spawnB (bits x 21 4) (bits x 6 6) (bits x 12 6)) x) := by unfold decodeY; rw [h0]; rfl
  rw [spawnB_first _ _ _ x hb, none_or, f0, f1, f2] at hd
  exact hd)

theorem cancel (a : BitVec 6) (b : BitVec 6) (q : BitVec 5) : Statement (.cancel a b q) := of_slot (k := .y) rfl rfl (fun _ => by
  have e : encodeWord (.cancel a b q) = pack [(6, 9), (6, a.toNat), (6, b.toNat), (3, 0), (5, q.toNat), (6, 0)] := rfl
  generalize encodeWord (.cancel a b q) = x at *
  have h0 : x % 64 = 9 := by rw [e]; exact pack_op6 _ _
  have f : bits x 6 6 = a ∧ bits x 12 6 = b ∧ bits x 21 5 = q := by
    rw [e]
    simp only [bits_skip, bits_here, BitVec.ofNat_toNat, BitVec.setWidth_eq, Nat.reduceLeDiff, Nat.reduceSub, and_self]
  obtain ⟨f0, f1, f2⟩ := f
  have hd : decodeY x = accept (.cancel (bits x 6 6) (bits x 12 6) (bits x 21 5)) x := by unfold decodeY; rw [h0]; rfl
  rw [f0, f1, f2] at hd
  exact hd)

theorem scopeOpen (pd : BitVec 4) (a : BitVec 6) : Statement (.scopeOpen pd a) := of_slot (k := .y) rfl rfl (fun h => by
  have ha := accept_self (.scopeOpen pd a) h
  have e : encodeWord (.scopeOpen pd a) = pack [(6, 10), (6, a.toNat), (6, 0), (3, 0), (2, 0), (4, pd.toNat), (5, 0)] := rfl
  generalize encodeWord (.scopeOpen pd a) = x at *
  have h0 : x % 64 = 10 := by rw [e]; exact pack_op6 _ _
  have f : bits x 23 4 = pd ∧ bits x 6 6 = a := by
    rw [e]
    simp only [bits_skip, bits_here, BitVec.ofNat_toNat, BitVec.setWidth_eq, Nat.reduceLeDiff, Nat.reduceSub, and_self]
  obtain ⟨f0, f1⟩ := f
  have hd : decodeY x = (accept (.scopeOpen (bits x 23 4) (bits x 6 6)) x <|> accept (.scopeClose) x) := by unfold decodeY; rw [h0]; rfl
  rw [f0, f1, ha] at hd
  exact hd.trans ha.symm)

theorem scopeClose_first (pd : BitVec 4) (a : BitVec 6) (x : Nat) (hx : bitAt x 21 = true) : accept (.scopeOpen pd a) x = none := by
  refine accept_other (fun c => ?_)
  have e : encodeWord (.scopeOpen pd a) = pack [(6, 10), (6, a.toNat), (6, 0), (3, 0), (2, 0), (4, pd.toNat), (5, 0)] := rfl
  rw [← c, e] at hx
  simp only [bitAt_skip, Nat.reduceLeDiff, Nat.reduceSub] at hx
  exact absurd hx (by simp only [bitAt, pack, Nat.shiftRight_zero, beq_iff_eq]; omega)

theorem scopeClose : Statement (.scopeClose) := of_slot (k := .y) rfl rfl (fun _ => by
  have e : encodeWord (.scopeClose) = pack [(6, 10), (6, 0), (6, 0), (3, 0), (2, 1), (9, 0)] := rfl
  generalize encodeWord (.scopeClose) = x at *
  have h0 : x % 64 = 10 := by rw [e]; exact pack_op6 _ _
  have hb : bitAt x 21 = true := by rw [e]; rfl
  have hd : decodeY x = (accept (.scopeOpen (bits x 23 4) (bits x 6 6)) x <|> accept (.scopeClose) x) := by unfold decodeY; rw [h0]; rfl
  rw [scopeClose_first _ _ x hb, none_or] at hd
  exact hd)

theorem sleep (a : BitVec 6) (imm : BitVec 11) : Statement (.sleep a imm) := of_slot (k := .y) rfl rfl (fun _ => by
  have e : encodeWord (.sleep a imm) = pack [(6, 11), (6, a.toNat), (6, 0), (3, 0), (11, imm.toNat)] := rfl
  generalize encodeWord (.sleep a imm) = x at *
  have h0 : x % 64 = 11 := by rw [e]; exact pack_op6 _ _
  have f : bits x 6 6 = a ∧ bits x 21 11 = imm := by
    rw [e]
    simp only [bits_skip, bits_here, BitVec.ofNat_toNat, BitVec.setWidth_eq, Nat.reduceLeDiff, Nat.reduceSub, and_self]
  obtain ⟨f0, f1⟩ := f
  have hd : decodeY x = accept (.sleep (bits x 6 6) (bits x 21 11)) x := by unfold decodeY; rw [h0]; rfl
  rw [f0, f1] at hd
  exact hd)

theorem waitw (a : BitVec 6) (b : BitVec 6) (scope : BitVec 3) (cond : BitVec 2) : Statement (.waitw a b scope cond) := of_slot (k := .y) rfl rfl (fun _ => by
  have e : encodeWord (.waitw a b scope cond) = pack [(6, 12), (6, a.toNat), (6, b.toNat), (3, scope.toNat), (2, cond.toNat), (9, 0)] := rfl
  generalize encodeWord (.waitw a b scope cond) = x at *
  have h0 : x % 64 = 12 := by rw [e]; exact pack_op6 _ _
  have f : bits x 6 6 = a ∧ bits x 12 6 = b ∧ bits x 18 3 = scope ∧ bits x 21 2 = cond := by
    rw [e]
    simp only [bits_skip, bits_here, BitVec.ofNat_toNat, BitVec.setWidth_eq, Nat.reduceLeDiff, Nat.reduceSub, and_self]
  obtain ⟨f0, f1, f2, f3⟩ := f
  have hd : decodeY x = accept (.waitw (bits x 6 6) (bits x 12 6) (bits x 18 3) (bits x 21 2)) x := by unfold decodeY; rw [h0]; rfl
  rw [f0, f1, f2, f3] at hd
  exact hd)

theorem bfq (a : BitVec 6) (b : BitVec 6) : Statement (.bfq a b) := of_slot (k := .y) rfl rfl (fun _ => by
  have e : encodeWord (.bfq a b) = pack [(6, 13), (6, a.toNat), (6, b.toNat), (3, 0), (11, 0)] := rfl
  generalize encodeWord (.bfq a b) = x at *
  have h0 : x % 64 = 13 := by rw [e]; exact pack_op6 _ _
  have f : bits x 6 6 = a ∧ bits x 12 6 = b := by
    rw [e]
    simp only [bits_skip, bits_here, BitVec.ofNat_toNat, BitVec.setWidth_eq, Nat.reduceLeDiff, Nat.reduceSub, and_self]
  obtain ⟨f0, f1⟩ := f
  have hd : decodeY x = accept (.bfq (bits x 6 6) (bits x 12 6)) x := by unfold decodeY; rw [h0]; rfl
  rw [f0, f1] at hd
  exact hd)

theorem setq (q : BitVec 5) (g : BitVec 6) (th : BitVec 8) : Statement (.setq q g th) := of_slot (k := .y) rfl rfl (fun _ => by
  have e : encodeWord (.setq q g th) = pack [(6, 14), (5, q.toNat), (1, 0), (6, g.toNat), (3, 0), (8, th.toNat), (3, 0)] := rfl
  generalize encodeWord (.setq q g th) = x at *
  have h0 : x % 64 = 14 := by rw [e]; exact pack_op6 _ _
  have f : bits x 6 5 = q ∧ bits x 12 6 = g ∧ bits x 21 8 = th := by
    rw [e]
    simp only [bits_skip, bits_here, BitVec.ofNat_toNat, BitVec.setWidth_eq, Nat.reduceLeDiff, Nat.reduceSub, and_self]
  obtain ⟨f0, f1, f2⟩ := f
  have hd : decodeY x = accept (.setq (bits x 6 5) (bits x 12 6) (bits x 21 8)) x := by unfold decodeY; rw [h0]; rfl
  rw [f0, f1, f2] at hd
  exact hd)

theorem gOp (r : GFields) : Statement (.gOp r) := of_record rfl (fun _ => by
  have e : encodeWord (.gOp r) = packG 1 r := rfl
  generalize encodeWord (.gOp r) = x at *
  have h0 : x % 256 = 1 := by rw [e]; exact pack_op8 _ _
  have hd : decodeG x = accept (.gOp (grOf x)) x := by unfold decodeG; rw [h0]; rfl
  rw [show grOf x = r from e ▸ grOf_packG _ r] at hd
  exact hd)

theorem gLoop (r : GFields) : Statement (.gLoop r) := of_record rfl (fun _ => by
  have e : encodeWord (.gLoop r) = packG 2 r := rfl
  generalize encodeWord (.gLoop r) = x at *
  have h0 : x % 256 = 2 := by rw [e]; exact pack_op8 _ _
  have hd : decodeG x = accept (.gLoop (grOf x)) x := by unfold decodeG; rw [h0]; rfl
  rw [show grOf x = r from e ▸ grOf_packG _ r] at hd
  exact hd)

theorem gEndloop (r : GFields) : Statement (.gEndloop r) := of_record rfl (fun _ => by
  have e : encodeWord (.gEndloop r) = packG 3 r := rfl
  generalize encodeWord (.gEndloop r) = x at *
  have h0 : x % 256 = 3 := by rw [e]; exact pack_op8 _ _
  have hd : decodeG x = accept (.gEndloop (grOf x)) x := by unfold decodeG; rw [h0]; rfl
  rw [show grOf x = r from e ▸ grOf_packG _ r] at hd
  exact hd)

theorem gBr (r : GFields) : Statement (.gBr r) := of_record rfl (fun _ => by
  have e : encodeWord (.gBr r) = packG 4 r := rfl
  generalize encodeWord (.gBr r) = x at *
  have h0 : x % 256 = 4 := by rw [e]; exact pack_op8 _ _
  have hd : decodeG x = accept (.gBr (grOf x)) x := by unfold decodeG; rw [h0]; rfl
  rw [show grOf x = r from e ▸ grOf_packG _ r] at hd
  exact hd)

theorem gCall (r : GFields) : Statement (.gCall r) := of_record rfl (fun _ => by
  have e : encodeWord (.gCall r) = packG 5 r := rfl
  generalize encodeWord (.gCall r) = x at *
  have h0 : x % 256 = 5 := by rw [e]; exact pack_op8 _ _
  have hd : decodeG x = accept (.gCall (grOf x)) x := by unfold decodeG; rw [h0]; rfl
  rw [show grOf x = r from e ▸ grOf_packG _ r] at hd
  exact hd)

theorem gRet (r : GFields) : Statement (.gRet r) := of_record rfl (fun _ => by
  have e : encodeWord (.gRet r) = packG 6 r := rfl
  generalize encodeWord (.gRet r) = x at *
  have h0 : x % 256 = 6 := by rw [e]; exact pack_op8 _ _
  have hd : decodeG x = accept (.gRet (grOf x)) x := by unfold decodeG; rw [h0]; rfl
  rw [show grOf x = r from e ▸ grOf_packG _ r] at hd
  exact hd)

theorem gTensor (r : GFields) : Statement (.gTensor r) := of_record rfl (fun _ => by
  have e : encodeWord (.gTensor r) = packG 7 r := rfl
  generalize encodeWord (.gTensor r) = x at *
  have h0 : x % 256 = 7 := by rw [e]; exact pack_op8 _ _
  have hd : decodeG x = accept (.gTensor (grOf x)) x := by unfold decodeG; rw [h0]; rfl
  rw [show grOf x = r from e ▸ grOf_packG _ r] at hd
  exact hd)

theorem gView (r : GFields) : Statement (.gView r) := of_record rfl (fun _ => by
  have e : encodeWord (.gView r) = packG 8 r := rfl
  generalize encodeWord (.gView r) = x at *
  have h0 : x % 256 = 8 := by rw [e]; exact pack_op8 _ _
  have hd : decodeG x = accept (.gView (grOf x)) x := by unfold decodeG; rw [h0]; rfl
  rw [show grOf x = r from e ▸ grOf_packG _ r] at hd
  exact hd)

theorem gAlloc (r : GFields) : Statement (.gAlloc r) := of_record rfl (fun _ => by
  have e : encodeWord (.gAlloc r) = packG 9 r := rfl
  generalize encodeWord (.gAlloc r) = x at *
  have h0 : x % 256 = 9 := by rw [e]; exact pack_op8 _ _
  have hd : decodeG x = accept (.gAlloc (grOf x)) x := by unfold decodeG; rw [h0]; rfl
  rw [show grOf x = r from e ▸ grOf_packG _ r] at hd
  exact hd)

theorem gFree (r : GFields) : Statement (.gFree r) := of_record rfl (fun _ => by
  have e : encodeWord (.gFree r) = packG 10 r := rfl
  generalize encodeWord (.gFree r) = x at *
  have h0 : x % 256 = 10 := by rw [e]; exact pack_op8 _ _
  have hd : decodeG x = accept (.gFree (grOf x)) x := by unfold decodeG; rw [h0]; rfl
  rw [show grOf x = r from e ▸ grOf_packG _ r] at hd
  exact hd)

theorem gShard (r : GFields) : Statement (.gShard r) := of_record rfl (fun _ => by
  have e : encodeWord (.gShard r) = packG 11 r := rfl
  generalize encodeWord (.gShard r) = x at *
  have h0 : x % 256 = 11 := by rw [e]; exact pack_op8 _ _
  have hd : decodeG x = accept (.gShard (grOf x)) x := by unfold decodeG; rw [h0]; rfl
  rw [show grOf x = r from e ▸ grOf_packG _ r] at hd
  exact hd)

theorem gSpawn (r : GFields) : Statement (.gSpawn r) := of_record rfl (fun _ => by
  have e : encodeWord (.gSpawn r) = packG 12 r := rfl
  generalize encodeWord (.gSpawn r) = x at *
  have h0 : x % 256 = 12 := by rw [e]; exact pack_op8 _ _
  have hd : decodeG x = accept (.gSpawn (grOf x)) x := by unfold decodeG; rw [h0]; rfl
  rw [show grOf x = r from e ▸ grOf_packG _ r] at hd
  exact hd)

theorem gJoin (r : GFields) : Statement (.gJoin r) := of_record rfl (fun _ => by
  have e : encodeWord (.gJoin r) = packG 13 r := rfl
  generalize encodeWord (.gJoin r) = x at *
  have h0 : x % 256 = 13 := by rw [e]; exact pack_op8 _ _
  have hd : decodeG x = accept (.gJoin (grOf x)) x := by unfold decodeG; rw [h0]; rfl
  rw [show grOf x = r from e ▸ grOf_packG _ r] at hd
  exact hd)

theorem gScopeOpen (r : GFields) : Statement (.gScopeOpen r) := of_record rfl (fun h => by
  have ha := accept_self (.gScopeOpen r) h
  have e : encodeWord (.gScopeOpen r) = packG 14 r := rfl
  generalize encodeWord (.gScopeOpen r) = x at *
  have h0 : x % 256 = 14 := by rw [e]; exact pack_op8 _ _
  have hd : decodeG x = (accept (.gScopeOpen (grOf x)) x <|> accept (.gScopeClose (grOf x)) x) := by unfold decodeG; rw [h0]; rfl
  rw [show grOf x = r from e ▸ grOf_packG _ r, ha] at hd
  exact hd.trans ha.symm)

theorem gScopeClose (r : GFields) : Statement (.gScopeClose r) := of_record rfl (fun h => by
  have e : encodeWord (.gScopeClose r) = packG 14 r := rfl
  have hb : (Instr.gScopeOpen r).wf = false := by
    have hw : r.gScopeCloseOk = true := h
    have hf : r.flags.toNat = 1 := by
      simp only [GFields.gScopeCloseOk, Bool.and_eq_true, beq_iff_eq] at hw
      exact hw.1.1.1.1.2
    show r.gScopeOpenOk = false
    simp only [GFields.gScopeOpenOk, hf, Nat.reduceBEq, Bool.or_self, Bool.and_false, Bool.false_and]
  generalize encodeWord (.gScopeClose r) = x at *
  have h0 : x % 256 = 14 := by rw [e]; exact pack_op8 _ _
  have hd : decodeG x = (accept (.gScopeOpen (grOf x)) x <|> accept (.gScopeClose (grOf x)) x) := by unfold decodeG; rw [h0]; rfl
  rw [show grOf x = r from e ▸ grOf_packG _ r, accept_bad hb] at hd
  exact hd)

theorem gCancel (r : GFields) : Statement (.gCancel r) := of_record rfl (fun _ => by
  have e : encodeWord (.gCancel r) = packG 15 r := rfl
  generalize encodeWord (.gCancel r) = x at *
  have h0 : x % 256 = 15 := by rw [e]; exact pack_op8 _ _
  have hd : decodeG x = accept (.gCancel (grOf x)) x := by unfold decodeG; rw [h0]; rfl
  rw [show grOf x = r from e ▸ grOf_packG _ r] at hd
  exact hd)

theorem gExitTest (r : GFields) : Statement (.gExitTest r) := of_record rfl (fun h => by
  have ha := accept_self (.gExitTest r) h
  have e : encodeWord (.gExitTest r) = packG 16 r := rfl
  generalize encodeWord (.gExitTest r) = x at *
  have h0 : x % 256 = 16 := by rw [e]; exact pack_op8 _ _
  have hd : decodeG x = (accept (.gExitTest (grOf x)) x <|> accept (.gExitAdv (grOf x)) x) := by unfold decodeG; rw [h0]; rfl
  rw [show grOf x = r from e ▸ grOf_packG _ r, ha] at hd
  exact hd.trans ha.symm)

theorem gExitAdv (r : GFields) : Statement (.gExitAdv r) := of_record rfl (fun h => by
  have e : encodeWord (.gExitAdv r) = packG 16 r := rfl
  have hb : (Instr.gExitTest r).wf = false := by
    have hw : r.gExitAdvOk = true := h
    have hf : r.flags.toNat = 1 := by
      simp only [GFields.gExitAdvOk, Bool.and_eq_true, beq_iff_eq] at hw
      exact hw.1.1.1.1.1.1.1.2
    show r.gExitTestOk = false
    simp only [GFields.gExitTestOk, GFields.noFlags, hf, Nat.reduceBEq, Bool.and_false, Bool.false_and]
  generalize encodeWord (.gExitAdv r) = x at *
  have h0 : x % 256 = 16 := by rw [e]; exact pack_op8 _ _
  have hd : decodeG x = (accept (.gExitTest (grOf x)) x <|> accept (.gExitAdv (grOf x)) x) := by unfold decodeG; rw [h0]; rfl
  rw [show grOf x = r from e ▸ grOf_packG _ r, accept_bad hb] at hd
  exact hd)

theorem gYield (r : GFields) : Statement (.gYield r) := of_record rfl (fun _ => by
  have e : encodeWord (.gYield r) = packG 17 r := rfl
  generalize encodeWord (.gYield r) = x at *
  have h0 : x % 256 = 17 := by rw [e]; exact pack_op8 _ _
  have hd : decodeG x = accept (.gYield (grOf x)) x := by unfold decodeG; rw [h0]; rfl
  rw [show grOf x = r from e ▸ grOf_packG _ r] at hd
  exact hd)

theorem gSetdim (r : GFields) : Statement (.gSetdim r) := of_record rfl (fun _ => by
  have e : encodeWord (.gSetdim r) = packG 18 r := rfl
  generalize encodeWord (.gSetdim r) = x at *
  have h0 : x % 256 = 18 := by rw [e]; exact pack_op8 _ _
  have hd : decodeG x = accept (.gSetdim (grOf x)) x := by unfold decodeG; rw [h0]; rfl
  rw [show grOf x = r from e ▸ grOf_packG _ r] at hd
  exact hd)

theorem emptyBundle : Statement (.emptyBundle) := of_event rfl rfl

theorem groupStart (sid : Nat) : Statement (.groupStart sid) := of_event rfl rfl

theorem knotDepart (braid : Nat) : Statement (.knotDepart braid) := of_event rfl rfl

theorem sleepExpire (sid : Nat) : Statement (.sleepExpire sid) := of_event rfl rfl

theorem wordWaitRecheck (sid : Nat) : Statement (.wordWaitRecheck sid) := of_event rfl rfl

theorem lockGrant (addr : Nat) : Statement (.lockGrant addr) := of_event rfl rfl

theorem landingDataArrive (sid : Nat) (entry : Nat) : Statement (.landingDataArrive sid entry) := of_event rfl rfl

theorem controlStoreFill (core : Nat) (line : Nat) : Statement (.controlStoreFill core line) := of_event rfl rfl

theorem translationResolve (sid : Nat) : Statement (.translationResolve sid) := of_event rfl rfl

theorem heldWritePerform (sid : Nat) : Statement (.heldWritePerform sid) := of_event rfl rfl

theorem orderingEventPerform (sid : Nat) : Statement (.orderingEventPerform sid) := of_event rfl rfl

theorem podFlushGather (sid : Nat) : Statement (.podFlushGather sid) := of_event rfl rfl

theorem reductionApply (addr : Nat) (count : Nat) : Statement (.reductionApply addr count) := of_event rfl rfl

theorem matrixOpStart (core : Nat) : Statement (.matrixOpStart core) := of_event rfl rfl

theorem matrixPassEnd (core : Nat) : Statement (.matrixPassEnd core) := of_event rfl rfl

theorem matrixOpComplete (core : Nat) : Statement (.matrixOpComplete core) := of_event rfl rfl

theorem mgvStart (core : Nat) : Statement (.mgvStart core) := of_event rfl rfl

theorem mgvComplete (core : Nat) : Statement (.mgvComplete core) := of_event rfl rfl

theorem copyOpStart (core : Nat) (ch : Nat) : Statement (.copyOpStart core ch) := of_event rfl rfl

theorem copyBeatWrite (core : Nat) (ch : Nat) (op : Nat) : Statement (.copyBeatWrite core ch op) := of_event rfl rfl

theorem copyOpComplete (core : Nat) (ch : Nat) (op : Nat) : Statement (.copyOpComplete core ch op) := of_event rfl rfl

theorem drainComplete (core : Nat) (ch : Nat) : Statement (.drainComplete core ch) := of_event rfl rfl

theorem transferBeat (core : Nat) : Statement (.transferBeat core) := of_event rfl rfl

theorem putMatch (core : Nat) (op : Nat) : Statement (.putMatch core op) := of_event rfl rfl

theorem rendezvousComplete (core : Nat) (op : Nat) : Statement (.rendezvousComplete core op) := of_event rfl rfl

theorem planEntryStart (cluster : Nat) (launch : Nat) : Statement (.planEntryStart cluster launch) := of_event rfl rfl

theorem planEntryComplete (cluster : Nat) (launch : Nat) (entry : Nat) : Statement (.planEntryComplete cluster launch entry) := of_event rfl rfl

theorem taskDispatch (cluster : Nat) : Statement (.taskDispatch cluster) := of_event rfl rfl

theorem taskResume (cluster : Nat) : Statement (.taskResume cluster) := of_event rfl rfl

theorem ageTick (task : Nat) : Statement (.ageTick task) := of_event rfl rfl

theorem braidReservation (cluster : Nat) : Statement (.braidReservation cluster) := of_event rfl rfl

theorem evictionMark (cluster : Nat) : Statement (.evictionMark cluster) := of_event rfl rfl

theorem eviction (task : Nat) : Statement (.eviction task) := of_event rfl rfl

theorem ballastDispatch (cluster : Nat) : Statement (.ballastDispatch cluster) := of_event rfl rfl

theorem ballastKill (task : Nat) : Statement (.ballastKill task) := of_event rfl rfl

theorem backfillDispatch (die : Nat) : Statement (.backfillDispatch die) := of_event rfl rfl

theorem backfillRetire (task : Nat) : Statement (.backfillRetire task) := of_event rfl rfl

theorem taskRetire (task : Nat) : Statement (.taskRetire task) := of_event rfl rfl

theorem recordRetire (record : Nat) : Statement (.recordRetire record) := of_event rfl rfl

theorem terminationSample (ctx : Nat) : Statement (.terminationSample ctx) := of_event rfl rfl

theorem terminationDeclare (ctx : Nat) : Statement (.terminationDeclare ctx) := of_event rfl rfl

theorem weightFetch (task : Nat) : Statement (.weightFetch task) := of_event rfl rfl

theorem stealTokenPass (module : Nat) (count : Nat) : Statement (.stealTokenPass module count) := of_event rfl rfl

theorem stolenTaskCompletion (task : Nat) : Statement (.stolenTaskCompletion task) := of_event rfl rfl

theorem cancelTakeEffect (cancel : Nat) (unit : Nat) : Statement (.cancelTakeEffect cancel unit) := of_event rfl rfl

theorem cancelComplete (cancel : Nat) : Statement (.cancelComplete cancel) := of_event rfl rfl

theorem preemptSaveComplete (task : Nat) : Statement (.preemptSaveComplete task) := of_event rfl rfl

theorem handleRewritePerform (ctx : Nat) : Statement (.handleRewritePerform ctx) := of_event rfl rfl

theorem allocGrant (cluster : Nat) : Statement (.allocGrant cluster) := of_event rfl rfl

theorem yieldTimerExpire (ctx : Nat) : Statement (.yieldTimerExpire ctx) := of_event rfl rfl

theorem doorbellChange (ctx : Nat) : Statement (.doorbellChange ctx) := of_event rfl rfl

theorem recordWaitEnd (ctx : Nat) : Statement (.recordWaitEnd ctx) := of_event rfl rfl

theorem ctxStart (ctx : Nat) : Statement (.ctxStart ctx) := of_event rfl rfl

theorem ctxStop (ctx : Nat) : Statement (.ctxStop ctx) := of_event rfl rfl

theorem ctxPreemptKeep (ctx : Nat) : Statement (.ctxPreemptKeep ctx) := of_event rfl rfl

theorem ctxPreemptDiscard (ctx : Nat) : Statement (.ctxPreemptDiscard ctx) := of_event rfl rfl

theorem ctxcmdComplete : Statement (.ctxcmdComplete) := of_event rfl rfl

theorem strandcmdResume (target : Nat) : Statement (.strandcmdResume target) := of_event rfl rfl

theorem strandcmdHandler (target : Nat) (handler : Nat) : Statement (.strandcmdHandler target handler) := of_event rfl rfl

theorem strandcmdKill (target : Nat) : Statement (.strandcmdKill target) := of_event rfl rfl

theorem strandcmdPreempt (target : Nat) : Statement (.strandcmdPreempt target) := of_event rfl rfl

theorem spareMap (die : Nat) (core : Nat) : Statement (.spareMap die core) := of_event rfl rfl

theorem tinvPage (asid : Nat) (va : Nat) (size : Nat) : Statement (.tinvPage asid va size) := of_event rfl rfl

theorem tinvAsid (asid : Nat) : Statement (.tinvAsid asid) := of_event rfl rfl

theorem tinvAll : Statement (.tinvAll) := of_event rfl rfl

theorem shootdownComplete : Statement (.shootdownComplete) := of_event rfl rfl

theorem frqheadWrite (value : Nat) : Statement (.frqheadWrite value) := of_event rfl rfl

theorem kvPoolConfigWrite (offset : Nat) (value : Nat) : Statement (.kvPoolConfigWrite offset value) := of_event rfl rfl

theorem pfxvaWrite (value : Nat) : Statement (.pfxvaWrite value) := of_event rfl rfl

theorem planStoreWrite (cluster : Nat) (offset : Nat) (value : Nat) : Statement (.planStoreWrite cluster offset value) := of_event rfl rfl

theorem registerWrite (offset : Nat) (value : Nat) : Statement (.registerWrite offset value) := of_event rfl rfl

theorem hostAccess (bar : Nat) (write : Bool) (offset : Nat) (value : Nat) : Statement (.hostAccess bar write offset value) := of_event rfl rfl

theorem frameReceive (port : Nat) (bytes : List Byte) : Statement (.frameReceive port bytes) := of_event rfl rfl

theorem frameTransmit (port : Nat) : Statement (.frameTransmit port) := of_event rfl rfl

theorem powerOn : Statement (.powerOn) := of_event rfl rfl

theorem attestationReport (nonce : List Byte) : Statement (.attestationReport nonce) := of_event rfl rfl

theorem powerControlTick (watts : Nat) : Statement (.powerControlTick watts) := of_event rfl rfl

theorem telemetryRecord : Statement (.telemetryRecord) := of_event rfl rfl

theorem heartbeat : Statement (.heartbeat) := of_event rfl rfl

theorem failover : Statement (.failover) := of_event rfl rfl

theorem laneReplace (link : Nat) : Statement (.laneReplace link) := of_event rfl rfl

theorem coreRetire (die : Nat) (core : Nat) : Statement (.coreRetire die core) := of_event rfl rfl

theorem scrubPass (word : Nat) : Statement (.scrubPass word) := of_event rfl rfl

theorem uncorrectableError (sid : Nat) : Statement (.uncorrectableError sid) := of_event rfl rfl

theorem channelRetire (channel : Nat) : Statement (.channelRetire channel) := of_event rfl rfl

theorem flashSlotSwitch (die : Nat) : Statement (.flashSlotSwitch die) := of_event rfl rfl

theorem ptpLockChange (locked : Bool) : Statement (.ptpLockChange locked) := of_event rfl rfl

theorem hawserLinkDown (link : Nat) : Statement (.hawserLinkDown link) := of_event rfl rfl

theorem hawserLinkUp (link : Nat) : Statement (.hawserLinkUp link) := of_event rfl rfl

theorem moduleRemoval (module : Nat) : Statement (.moduleRemoval module) := of_event rfl rfl

end Sys2Proof.Laws.RoundTrip
end

