-- ==== Sys2Proof/Tests/Slice0.lean ====
section
/-! SUPPORT. The model's own tests: ill-formed terms that the check refuses, words of the spec's examples decoded, and for each statement
with hypotheses a small state and operands that meet them, with what the spec gives there. Expected values are the spec's, or worked by
hand from it. -/

namespace Sys2Proof.Tests

open Sys2Proof Sys2Proof.Machine Sys2Proof.Spec

set_option Elab.async false

/-! Helpers: guards, small states, and the next state of an outcome. -/

/-- A guard that is always true, and one that is always false (p0 reads true, R90). -/
def yes : Guard := ⟨0, false⟩
def no : Guard := ⟨0, true⟩

def vf : VFields := ⟨3, 1, 2, 0, 0, 0, false, yes, 0, 0⟩
def mf : MFields := ⟨0, 1, 2, 3, 0, 1, 0, 0, 0, 0⟩
def lm : LMFields := ⟨9, 4, 0x40, 3, 0, yes, false⟩
def lx : LDXFields := ⟨7, 4, 0, 40, 3, false⟩
def wa : WAFields := ⟨5, 6, 4, 0, 1, 0, 0⟩
def xf : XFields := ⟨1, 2, 3, 1, 1, 0, 0, 0⟩
def nf : NFields := ⟨0, 1, 2, 3, 1, 0, 0⟩
def gf : GFields := ⟨0, 0, 0, 0, 0, 0, 0, 0, 0, 0, 0, 0, 0, 0, 0⟩

/-- The task of strand 0, and a strand that runs it: small numbers in g1 to g4 and g6, the most negative number in g7, all ones in g3, and
a poisoned g5; p1 true. -/
def taskA : Task := { Task.empty with id := 1, status := .running, strands := [0], ctx := 0, record := 5, home := 3, scopeId := 3 }
def strandA : Strand := { Strand.idle with
  task := 1, mpc := 0x900, vcc := 100, amRows := 64, scopeId := 3
  g := [(1, ⟨12, false⟩), (2, ⟨5, false⟩), (3, ⟨0xFFFFFFFFFFFFFFFF, false⟩), (4, ⟨0x1000, false⟩), (5, ⟨9, true⟩),
    (6, ⟨7, false⟩), (7, ⟨0x8000000000000000, false⟩)]
  p := [(1, true)] }

/-- A context that runs its graph at 2^32 under the scope 3, with work tables that hold little. -/
def ctxA : Ctx := { Ctx.idle with
  state := 1
  walker := { Walker.idle with gpc := 2 ^ 32 + 32, gbase := 2 ^ 32, htva := 2 ^ 33, asid := 1, wscope := 3, root := 3 } }

/-- A module in which the strand acts. -/
def at_ (t : Strand) : State := { State.reset with
  nextId := 10, strands := [(0, t)], tasks := [(1, taskA)], ctxs := [(0, ctxA)]
  scopes := [(3, ⟨2, false, false, 0, 0, 0⟩)] }
def A : State := at_ strandA

/-- Whether an outcome is a given next state, and the next state of an outcome that has one. -/
def next (r : Result) (t : State) : Bool :=
  match r with
  | .next u => decide (u = t)
  | _ => false
def out (r : Result) : State :=
  match r with
  | .next u => u
  | _ => State.reset
def goes (r : Result) : Bool :=
  match r with
  | .next _ => true
  | _ => false

/-! Ill-formed terms, one for each check of WellFormed. -/

theorem test_wf_refuses_scalar :
    (Instr.bfx yes false 1 1 60 5).wf = false ∧ (Instr.bfi yes true 1 1 0 0).wf = false ∧ (Instr.sext yes true 1 1 33).wf = false ∧
    (Instr.zext yes true 1 1 63).wf = false ∧ (Instr.cmp yes false 1 1 1 12).wf = false ∧ (Instr.shli yes true 1 1 32).wf = false ∧
    (Instr.shri yes false 1 1 64).wf = false ∧ (Instr.sari yes true 1 1 40).wf = false ∧ (Instr.movhi yes true 1 2 0).wf = false ∧
    (Instr.cmpi yes false 1 1 15 0).wf = false ∧ (Instr.sfadd yes 1 1 1 2 0).wf = false ∧ (Instr.sfmul yes 1 1 1 0 7).wf = false ∧
    (Instr.sffma yes 1 1 1 3 0).wf = false ∧ (Instr.sfcmp yes false 1 1 1 8).wf = false ∧ (Instr.sfcvt yes 1 1 0 0 6).wf = false ∧
    (Instr.mfc yes false 1 0x00A).wf = false ∧ (Instr.mtc yes false 1 0x001).wf = false := by decide +kernel

theorem test_wf_refuses_control :
    (Instr.loop yes 6 1 1).wf = false ∧ (Instr.loop yes 0 1 0).wf = false ∧ (Instr.nest yes 6 0 1 1).wf = false ∧
    (Instr.nest yes 0 0 1 0).wf = false ∧ (Instr.nest yes 0 1 1 1).wf = false ∧ (Instr.nest yes 0 2 1 1).wf = false ∧
    (Instr.nest yes 0 3 1 0).wf = false ∧ (Instr.fmt yes 0x40000).wf = false := by decide +kernel

theorem test_wf_refuses_vector :
    (Instr.vadd { vf with ty := 4 }).wf = false ∧ (Instr.vadd { vf with c := 1 }).wf = false ∧ (Instr.vadd { vf with rnd := 7 }).wf = false ∧
    (Instr.vadd { vf with ty := 2, rnd := 1 }).wf = false ∧ (Instr.vfma { vf with flags := 1 }).wf = false ∧
    (Instr.vabs vf).wf = false ∧ (Instr.vshl vf).wf = false ∧ (Instr.vcmp { vf with flags := 8 }).wf = false ∧
    (Instr.vcmp { vf with ty := 2, flags := 12 }).wf = false ∧ (Instr.vbcast { vf with b := 0, imm := 128 }).wf = false ∧
    (Instr.vbcast { vf with bsel := true }).wf = false ∧ (Instr.viota vf).wf = false ∧ (Instr.vcvt { vf with b := 0 }).wf = false ∧
    (Instr.vqnt { vf with b := 0, imm := 8 }).wf = false ∧ (Instr.vdqt { vf with b := 0, imm := 0x26 }).wf = false ∧
    (Instr.vtopk { vf with b := 0, imm := 0x0705 + 4 }).wf = false ∧ (Instr.vtopk { vf with ty := 1, b := 0, imm := 0x0701 }).wf = false ∧
    (Instr.conft { vf with bsel := true, imm := 43 }).wf = false ∧ (Instr.vext { vf with imm := 5 }).wf = false ∧
    (Instr.vins { vf with a := 0, imm := 5 }).wf = false ∧ (Instr.vexp { vf with ty := 2, b := 0 }).wf = false := by decide +kernel

theorem test_wf_refuses_matrix :
    (Instr.mma { mf with mode := 3 }).wf = false ∧ (Instr.mgv { mf with mode := 4 }).wf = false ∧ (Instr.mrot mf).wf = false ∧
    (Instr.mzero { mf with gA := 0, gB := 0, mode := 1 }).wf = false ∧ (Instr.mdrn { mf with mode := 4 }).wf = false ∧
    (Instr.mpri { mf with tile := 16, gA := 0, gB := 0, gN := 0 }).wf = false := by decide +kernel

theorem test_wf_refuses_memory :
    (Instr.ld { lm with size := 7 }).wf = false ∧ (Instr.lds { lm with scope := 1 }).wf = false ∧ (Instr.ldt { lm with vec := true }).wf = false ∧
    (Instr.lda { lm with scope := 6 }).wf = false ∧ (Instr.ldv lm).wf = false ∧ (Instr.latch { lm with d := 16 }).wf = false ∧
    (Instr.pref lm).wf = false ∧ (Instr.kvad lm).wf = false ∧ (Instr.ldx { lx with land := 0 }).wf = false ∧
    (Instr.ldx { lx with vec := true, size := 4 }).wf = false ∧ (Instr.st { lm with size := 4 }).wf = false ∧
    (Instr.stl { lm with scope := 7 }).wf = false ∧ (Instr.stx { lm with scope := 1 }).wf = false ∧ (Instr.stv { lm with vec := true, size := 4 }).wf = false ∧
    (Instr.stp lm).wf = false ∧ (Instr.aadd { wa with scope := 1 }).wf = false ∧ (Instr.aand { wa with ty := 2 }).wf = false ∧
    (Instr.radd wa).wf = false ∧ (Instr.rmax { wa with d := 0, order := 1, scope := 1 }).wf = false := by decide +kernel

theorem test_wf_refuses_engines :
    (Instr.cpyn { xf with prod := 6 }).wf = false ∧ (Instr.drain xf).wf = false ∧ (Instr.bcast xf).wf = false ∧
    (Instr.send { nf with peer := 8, g3 := 0 }).wf = false ∧ (Instr.recva { nf with g3 := 4 }).wf = false ∧
    (Instr.rtr { nf with tag := 1 }).wf = false ∧ (Instr.cpln { nf with peer := 16 }).wf = false ∧ (Instr.fence 6 0).wf = false ∧
    (Instr.fence 1 3).wf = false ∧ (Instr.acqh 1 6).wf = false ∧ (Instr.lock 1 2 0).wf = false ∧ (Instr.unlock 1 6).wf = false ∧
    (Instr.sleep 1 1).wf = false ∧ (Instr.waitw 1 2 0 0).wf = false := by decide +kernel

theorem test_wf_refuses_records :
    (Instr.gOp { gf with mode := 7 }).wf = false ∧ (Instr.gOp { gf with spec64 := 8 }).wf = false ∧ (Instr.gSpawn { gf with chain := 1 }).wf = false ∧
    (Instr.gLoop { gf with spec16 := 0x1000 }).wf = false ∧ (Instr.gEndloop { gf with flags := 1 }).wf = false ∧
    (Instr.gBr { gf with spec16 := 0x5000 }).wf = false ∧ (Instr.gCall { gf with entry := 1 }).wf = false ∧ (Instr.gRet { gf with spec16 := 1 }).wf = false ∧
    (Instr.gTensor gf).wf = false ∧ (Instr.gView { gf with h0 := 1, flags := 1 }).wf = false ∧ (Instr.gAlloc { gf with entry := 128 }).wf = false ∧
    (Instr.gFree { gf with imm32 := 1 }).wf = false ∧ (Instr.gShard { gf with entry := 1 }).wf = false ∧ (Instr.gJoin { gf with imm32 := 65536 }).wf = false ∧
    (Instr.gScopeOpen { gf with flags := 1 }).wf = false ∧ (Instr.gScopeClose gf).wf = false ∧ (Instr.gCancel { gf with flags := 2 }).wf = false ∧
    (Instr.gExitTest gf).wf = false ∧ (Instr.gExitAdv { gf with flags := 1, h0 := 1, imm32 := 1 }).wf = false ∧
    (Instr.gYield { gf with spec64 := 8 }).wf = false ∧ (Instr.gSetdim { gf with flags := 3 }).wf = false := by decide +kernel

/-! Words of the spec's examples (chapters 14 to 18), decoded in their slots. -/

theorem test_decode_scalar :
    decodeSlot .s 0x000000204301 = some (.add yes false 3 1 2) ∧ decodeSlot .s 0x000080204301 = some (.add yes true 3 1 2) ∧
    decodeSlot .s 0x00030051071E = some (.agen yes false 7 4 5 3) ∧ decodeSlot .s 0x000000204309 = some (.and yes false 3 1 2) ∧
    decodeSlot .s 0x00FF00004329 = some (.andi yes false 3 1 0xFF) ∧ decodeSlot .s 0x00000020430C = some (.andn yes false 3 1 2) ∧
    decodeSlot .s 0xFFFF0001C821 = some (.addi yes false 8 7 0xFFFF) ∧ decodeSlot .s 0x000000004316 = some (.clz yes false 3 1) ∧
    decodeSlot .s 0x00020051021D = some (.cmp yes false 2 4 5 2) ∧ decodeSlot .s 0x00640071813D = some (.cmpi yes false 1 6 7 100) ∧
    decodeSlot .s 0x000000204306 = some (.div yes false 3 1 2) ∧ decodeSlot .s 0x000000204304 = some (.mulh yes false 3 1 2) ∧
    decodeSlot .s 0x123400000530 = some (.movi yes false 5 0x1234) ∧ decodeSlot .s 0x000200300531 = some (.movhi yes false 5 3 2) ∧
    decodeSlot .s 0x000400204315 = some (.sel yes false 3 1 2 4) ∧ decodeSlot .s 0x00080000431B = some (.sext yes false 3 1 8) ∧
    decodeSlot .s 0x00080000431C = some (.zext yes false 3 1 8) ∧ decodeSlot .s 0x00040000432F = some (.sari yes false 3 1 4) ∧
    decodeSlot .s 0x00020051021D ≠ decodeSlot .s 0x00020051021E ∧ decodeSlot .s 0x00000000001F = none := by decide +kernel

theorem test_decode_float_and_control_registers :
    decodeSlot .s 0x000100204340 = some (.sfadd yes 3 1 2 1 0) ∧ decodeSlot .s 0x000100204342 = some (.sffma yes 3 1 2 1 0) ∧
    decodeSlot .s 0x000200510243 = some (.sfcmp yes false 2 4 5 2) ∧ decodeSlot .s 0x000280510243 = some (.sfcmp yes true 2 4 5 2) ∧
    decodeSlot .s 0x008000004344 = some (.sfcvt yes 3 1 0 0 4) ∧ decodeSlot .s 0x000100000550 = some (.mfc yes false 5 1) ∧
    decodeSlot .s 0x00060001C051 = some (.mtc yes false 7 6) := by decide +kernel

theorem test_decode_control :
    decodeSlot .c 0x000050C2 = some (.brc ⟨3, false⟩ 10) ∧ decodeSlot .c 0x000054C2 = some (.brc ⟨3, true⟩ 10) ∧
    decodeSlot .c 0x00004803 = some (.brr yes 9) ∧ decodeSlot .c 0x00080004 = some (.call yes 0x100) ∧
    decodeSlot .c 0x00004805 = some (.callr yes 9) ∧ decodeSlot .c 0x00000086 = some (.ret ⟨2, false⟩) ∧
    decodeSlot .c 0x00415007 = some (.loop yes 2 5 4) ∧ decodeSlot .c 0x07871008 = some (.nest yes 2 0 7 30) ∧
    decodeSlot .c 0x0000D008 = some (.nest yes 2 3 0 0) ∧ decodeSlot .c 0x0000000A = some (.isync yes) ∧
    decodeSlot .c 0x000C400B = some (.fmt yes 0x188) ∧ decodeSlot .c 0x000028CC = some (.trap ⟨3, false⟩ 5) ∧
    decodeSlot .c 0x0000000D = some .sysret ∧ decodeSlot .c 0x0000000E = none := by decide +kernel

theorem test_decode_vector :
    decodeSlot .v0 0x0002000800004519 = some (.vcvt ⟨5, 1, 0, 0, 0, 1, false, yes, 0, 2⟩) ∧
    decodeSlot .v1 0x000500000000C71E = some (.vext ⟨7, 3, 0, 0, 0, 0, false, yes, 0, 5⟩) ∧
    decodeSlot .v0 0x000500400090031F = some (.vins ⟨3, 0, 9, 0, 0, 0, true, yes, 0, 5⟩) ∧
    decodeSlot .v0 0x000B000000031E1A = some (.vqnt ⟨30, 12, 0, 0, 0, 0, false, yes, 0, 11⟩) ∧
    decodeSlot .v0 0x0703004000D2141C = some (.vtopk ⟨20, 8, 13, 0, 0, 0, true, yes, 0, 0x0703⟩) ∧
    decodeSlot .v0 0x002A00401070891D = some (.conft ⟨9, 2, 7, 4, 0, 0, true, yes, 0, 42⟩) ∧
    decodeSlot .v0 0x00204525 = none := by decide +kernel

theorem test_decode_matrix :
    decodeSlot .m 0x000041230A204001 = some (.mma ⟨0x40, 4, 5, 6, 1, 1, 2, 0, 0, 0⟩) ∧
    decodeSlot .m 0x000002230A200002 = some (.mgv ⟨0, 4, 5, 6, 1, 2, 0, 0, 0, 0⟩) ∧
    decodeSlot .m 0x0000232312404005 = some (.mdrn ⟨0x40, 8, 9, 6, 1, 3, 1, 0, 0, 0⟩) ∧
    decodeSlot .m 0x0000010000000C06 = some (.mpri ⟨12, 0, 0, 0, 0, 1, 0, 0, 0, 0⟩) ∧
    decodeSlot .m 0x0000000300004004 = some (.mzero ⟨0x40, 0, 0, 6, 0, 0, 0, 0, 0, 0⟩) ∧ decodeSlot .m 7 = none := by decide +kernel

theorem test_decode_memory :
    decodeSlot .l 0x006FFF810501 = some (.ld ⟨5, 4, 0xFFF8, 6, 0, yes, false⟩) ∧ decodeSlot .l 0x023000010505 = some (.lda ⟨5, 4, 0, 3, 4, yes, false⟩) ∧
    decodeSlot .l 0x003001010904 = some (.lds ⟨9, 4, 0x10, 3, 0, yes, false⟩) ∧ decodeSlot .l 0x003000010508 = some (.ldt ⟨5, 4, 0, 3, 0, yes, false⟩) ∧
    decodeSlot .l 0x803020010C02 = some (.ldv ⟨12, 4, 0x200, 3, 0, yes, true⟩) ∧ decodeSlot .l 0x328004010703 = some (.ldx ⟨7, 4, 0x40, 0x280, 3, false⟩) ∧
    decodeSlot .l 0x002010010206 = some (.latch ⟨2, 4, 0x100, 2, 0, yes, false⟩) ∧ decodeSlot .l 0x001004010007 = some (.pref ⟨0, 4, 0x40, 1, 0, yes, false⟩) ∧
    decodeSlot .w 0x002000810901 = some (.st ⟨9, 4, 8, 2, 0, yes, false⟩) ∧ decodeSlot .w 0x023000010504 = some (.stl ⟨5, 4, 0, 3, 4, yes, false⟩) ∧
    decodeSlot .w 0x803020010C02 = some (.stv ⟨12, 4, 0x200, 3, 0, yes, true⟩) ∧ decodeSlot .w 0x802000010C03 = some (.stx ⟨12, 4, 0, 2, 0, yes, true⟩) ∧
    decodeSlot .w 0x803010010C05 = some (.stp ⟨12, 4, 0x100, 3, 0, yes, true⟩) ∧ decodeSlot .w 0x001040418513 = some (.aand ⟨5, 6, 4, 16, 1, 0, 0⟩) ∧
    decodeSlot .w 0x025040418516 = some (.axch ⟨5, 6, 4, 16, 1, 1, 2⟩) ∧ decodeSlot .w 0x059000418018 = some (.radd ⟨0, 6, 4, 0, 1, 2, 5⟩) ∧
    decodeSlot .w 0x002020418019 = some (.rmax ⟨0, 6, 4, 8, 2, 0, 0⟩) ∧ decodeSlot .w 0x00000000000F = none := by decide +kernel

theorem test_decode_kvad :
    decodeSlot .l 0x000380210909 = some (.kvad ⟨9, 4, 0x3802, 0, 0, yes, false⟩) := by decide +kernel

theorem test_decode_engines :
    decodeSlot .x 0x000224614401 = some (.cpy ⟨4, 5, 6, 1, 2, 1, 0, 0⟩) ∧ decodeSlot .x 0x000024920702 = some (.cpyn ⟨7, 8, 9, 1, 2, 0, 0, 0⟩) ∧
    decodeSlot .x 0x000030614404 = some (.cpyg ⟨4, 5, 6, 0, 3, 0, 0, 0⟩) ∧ decodeSlot .x 0x000044000405 = some (.drain ⟨4, 0, 0, 1, 4, 0, 0, 0⟩) ∧
    decodeSlot .x 0x000008000406 = some (.bcast ⟨4, 0, 0, 2, 0, 0, 0, 0⟩) ∧ decodeSlot .x 0x00002C614407 = some (.mcw ⟨4, 5, 6, 3, 2, 0, 0, 0⟩) ∧
    decodeSlot .x 0x000038614408 = some (.kvcp ⟨4, 5, 6, 2, 3, 0, 0, 0⟩) ∧ decodeSlot .x 0x000038614409 = some (.pfxl ⟨4, 5, 6, 2, 3, 0, 0, 0⟩) ∧
    decodeSlot .x 0x00003861440A = some (.pfxi ⟨4, 5, 6, 2, 3, 0, 0, 0⟩) ∧ decodeSlot .n 0x200401440301 = some (.send ⟨3, 4, 5, 0, 1, 0, 2⟩) ∧
    decodeSlot .n 0x200411440003 = some (.recva ⟨0, 4, 5, 1, 1, 0, 2⟩) ∧ decodeSlot .n 0x000C61440004 = some (.rtr ⟨0, 4, 5, 6, 3, 0, 0⟩) ∧
    decodeSlot .n 0x008C61440005 = some (.put ⟨0, 4, 5, 6, 3, 1, 0⟩) ∧ decodeSlot .n 0x000461440206 = some (.cpln ⟨2, 4, 5, 6, 1, 0, 0⟩) ∧
    decodeSlot .x 11 = none ∧ decodeSlot .n 7 = none := by decide +kernel

theorem test_decode_waits_and_scopes :
    decodeSlot .y 0x00600042 = some (.waitq 1 3) ∧ decodeSlot .y 0x00100003 = some (.fence 4 0) ∧ decodeSlot .y 0x00280003 = some (.fence 2 1) ∧
    decodeSlot .y 0x00540003 = some (.fence 5 2) ∧ decodeSlot .y 0x00100404 = some (.acqh 16 4) ∧ decodeSlot .y 0x00105106 = some (.lock 4 5 4) ∧
    decodeSlot .y 0x02705106 = some (.lockTry 3 4 5 4) ∧ decodeSlot .y 0x00100107 = some (.unlock 4 4) ∧
    decodeSlot .y 0x00405108 = some (.spawnNb 2 4 5) ∧ decodeSlot .y 0x02405108 = some (.spawnB 2 4 5) ∧
    decodeSlot .y 0x00A06109 = some (.cancel 4 6 5) ∧ decodeSlot .y 0x0100014A = some (.scopeOpen 2 5) ∧ decodeSlot .y 0x0020000A = some .scopeClose ∧
    decodeSlot .y 0x0000018B = some (.sleep 6 0) ∧ decodeSlot .y 0x0C80000B = some (.sleep 0 100) ∧ decodeSlot .y 0x0000610D = some (.bfq 4 6) ∧
    decodeSlot .y 0x0020704E = some (.setq 1 7 1) := by decide +kernel

/-- Records of chapters 16 and 19, by their 64-bit words. -/
theorem test_decode_records :
    decodeG (0x0300200101400101 + 0x0000100000050040 * 2 ^ 64 + 4 * 2 ^ 128) = some (.gOp ⟨1, 0, 0x140, 0, 1, 2, 3, 4, 5, 0, 16, 4, 0, 0, 0⟩) ∧
    decodeG (0x000C1009 + 0x0002000000070000 * 2 ^ 128) = some (.gAlloc { gf with flags := 1, entry := 12, spec16 := 7, imm32 := 0x20000 }) ∧
    decodeG (0x0000000700001010 + 0x000240000000 * 2 ^ 192) = some (.gExitAdv { gf with flags := 1, h0 := 7, spec64 := 0x240000000 }) ∧
    decodeG (0x02 + 0x0000000301030000 * 2 ^ 128) = some (.gLoop { gf with spec16 := 0x0103, imm32 := 3 }) ∧
    decodeG (0x03 + 0xFFFFFFFF01030000 * 2 ^ 128) = some (.gEndloop { gf with spec16 := 0x0103, imm32 := 0xFFFFFFFF }) ∧
    decodeG 0x13 = none ∧ decodeG 0 = none := by decide +kernel

/-- The bundle of Table 14-19, and one whose absent slot is not zero. -/
theorem test_decode_bundle :
    decodeBundle (0x00050001C8210885 + 0x0401090100000000 * 2 ^ 256 + 0x30 * 2 ^ 320 + 0x4200000000 * 2 ^ 448) =
      .ok [(.s, .addi yes false 8 7 5), (.l, .ld ⟨9, 4, 0x40, 3, 0, yes, false⟩), (.y, .waitq 1 0)] ∧
    decodeBundle (0x00050001C8210881 + 0x0401090100000000 * 2 ^ 256 + 0x30 * 2 ^ 320 + 0x4200000000 * 2 ^ 448) = .illenc 0 := by decide +kernel

/-! Witnesses: for each statement with hypotheses, a state and operands that meet them, with what the spec gives. -/

theorem witness_ScalarArithmetic :
    A.me.guard yes = true ∧ A.me.guard no = false ∧
    next (exec (.add yes false 8 3 2) A) (A.land 1 (.g 8 4 false)) = true ∧
    next (exec (.add yes true 8 3 2) A) (A.land 1 (.g 8 4 false)) = true ∧
    next (exec (.sub yes false 8 2 1) A) (A.land 1 (.g 8 0xFFFFFFFFFFFFFFF9 false)) = true ∧
    next (exec (.mul yes false 8 1 5) A) (A.land 3 (.g 8 108 true)) = true ∧
    next (exec (.mulh yes false 8 3 3) A) (A.land 3 (.g 8 0 false)) = true ∧
    next (exec (.mulhn yes false 8 3 3) A) (A.land 3 (.g 8 0xFFFFFFFFFFFFFFFE false)) = true ∧
    next (exec (.agen yes false 8 1 2 3) A) (A.land 1 (.g 8 52 false)) = true ∧
    next (exec (.div yes false 8 1 0) A) (A.land 20 (.g 8 0xFFFFFFFFFFFFFFFF false)) = true ∧
    next (exec (.div yes false 8 7 3) A) (A.land 20 (.g 8 0x8000000000000000 false)) = true ∧
    next (exec (.divn yes true 8 3 0) A) (A.land 20 (.g 8 0xFFFFFFFF false)) = true ∧
    next (exec (.rem yes false 8 7 3) A) (A.land 20 (.g 8 0 false)) = true ∧
    next (exec (.rem yes false 8 1 0) A) (A.land 20 (.g 8 12 false)) = true ∧
    next (exec (.add no false 8 1 2) A) A = true := by decide +kernel

theorem witness_ScalarBitsAndSelections :
    A.me.guard yes = true ∧ A.me.guard no = false ∧
    next (exec (.and yes false 8 1 2) A) (A.land 1 (.g 8 4 false)) = true ∧
    next (exec (.andn yes false 8 1 2) A) (A.land 1 (.g 8 8 false)) = true ∧
    next (exec (.shl yes true 8 2 1) A) (A.land 1 (.g 8 0x5000 false)) = true ∧
    next (exec (.shr yes false 8 7 3) A) (A.land 1 (.g 8 1 false)) = true ∧
    next (exec (.sar yes false 8 7 3) A) (A.land 1 (.g 8 0xFFFFFFFFFFFFFFFF false)) = true ∧
    next (exec (.rol yes false 8 7 2) A) (A.land 1 (.g 8 16 false)) = true ∧
    next (exec (.max yes false 8 3 1) A) (A.land 1 (.g 8 12 false)) = true ∧
    next (exec (.maxn yes false 8 3 1) A) (A.land 1 (.g 8 0xFFFFFFFFFFFFFFFF false)) = true ∧
    next (exec (.sel yes false 8 1 2 1) A) (A.land 1 (.g 8 12 false)) = true ∧
    next (exec (.sel yes false 8 1 5 2) A) (A.land 1 (.g 8 9 true)) = true ∧
    next (exec (.sel no false 8 1 2 1) A) A = true := by decide +kernel

theorem witness_ScalarFieldsAndImmediates :
    (Instr.clz yes true 8 1).wf = true ∧ next (exec (.clz yes true 8 1) A) (A.land 1 (.g 8 28 false)) = true ∧
    (Instr.bfx yes false 8 3 0 0).wf = true ∧ next (exec (.bfx yes false 8 3 0 0) A) (A.land 1 (.g 8 0xFFFFFFFFFFFFFFFF false)) = true ∧
    (Instr.bfi yes false 8 1 4 0x3C).wf = true ∧ next (exec (.bfi yes false 3 1 4 12) A) (A.land 1 (.g 3 0xFFFFFFFFFFFF00CF false)) = true ∧
    next (exec (.bfi no false 3 1 4 12) A) A = true ∧
    (Instr.sext yes true 8 3 0).wf = true ∧ next (exec (.sext yes true 8 7 0) A) (A.land 1 (.g 8 0 false)) = true ∧
    next (exec (.sext yes true 8 1 3) A) (A.land 1 (.g 8 0xFFFFFFFC false)) = true ∧
    next (exec (.zext yes false 8 3 8) A) (A.land 1 (.g 8 0xFF false)) = true ∧
    (Instr.shli yes false 8 1 63).wf = true ∧ next (exec (.shli yes false 8 2 63) A) (A.land 1 (.g 8 0x8000000000000000 false)) = true ∧
    next (exec (.sari yes false 8 7 4) A) (A.land 1 (.g 8 0xF800000000000000 false)) = true ∧
    next (exec (.addi yes false 8 1 0xFFFF) A) (A.land 1 (.g 8 11 false)) = true ∧
    next (exec (.movi yes false 8 0xFFFF) A) (A.land 1 (.g 8 0xFFFF false)) = true ∧ next (exec (.movi no false 8 1) A) A = true ∧
    (Instr.movhi yes true 8 1 0).wf = true ∧ next (exec (.movhi yes false 1 3 0x4000) A) (A.land 1 (.g 1 0x400000000000000C false)) = true ∧
    next (exec (.movhi no false 1 3 0) A) A = true := by decide +kernel

theorem witness_Compares :
    A.me.pois 1 = false ∧ A.me.pois 5 = true ∧ (11 : BitVec 4).toNat < 12 ∧
    next (exec (.cmp yes false 2 3 1 2) A) (A.land 1 (.p 2 true)) = true ∧ next (exec (.cmp yes false 2 3 1 11) A) (A.land 1 (.p 2 false)) = true ∧
    next (exec (.cmpi yes false 2 3 7 0xFFFF) A) (A.land 1 (.p 2 true)) = true ∧
    next (exec (.cmp yes false 2 1 5 0) A) (A.raise .poison) = true ∧ next (exec (.cmpi yes false 2 5 0 0) A) (A.raise .poison) = true ∧
    next (exec (.cmp no false 2 1 5 0) A) A = true ∧ next (exec (.cmpi no false 2 5 0 0) A) A = true := by decide +kernel

/-- A token counter at its bounds, and a nest level that runs. -/
def B : State := at_ { strandA with
  q := [(1, ⟨255, 3, true⟩), (31, ⟨2, 0, false⟩)]
  nest := [(5, ⟨true, 2, 9, 0x900, 0x902, 0, [], []⟩)]
  cr := [(0x100, 130), (0x030, 5)] }

theorem witness_ControlRegistersAndFormats :
    next (exec (.mfc yes false 8 0x001) B) (B.land 1 (.g 8 100 false)) = true ∧
    next (exec (.mfc yes false 8 0x004) B) (B.land 1 (.g 8 3 false)) = true ∧
    next (exec (.mfc yes false 8 0x007) B) (B.land 1 (.g 8 0x11 false)) = true ∧
    next (exec (.mfc yes false 8 0x011) B) (B.land 1 (.g 8 0 false)) = true ∧
    next (exec (.mfc yes false 8 0x012) B) (B.land 1 (.g 8 0x900 false)) = true ∧
    next (exec (.mfc yes false 8 0x020) B) (B.land 1 (.g 8 32 false)) = true ∧
    next (exec (.mfc yes false 8 0x080) B) (B.land 1 (.g 8 0 false)) = true ∧
    next (exec (.mfc yes false 8 0x081) B) (B.land 1 (.g 8 0x103FF false)) = true ∧
    next (exec (.mfc yes false 8 0x09F) B) (B.land 1 (.g 8 2 false)) = true ∧
    next (exec (.mfc yes false 8 0x040) B) (B.land 1 (.g 8 0 false)) = true ∧
    next (exec (.mfc yes false 8 0x045) B) (B.land 1 (.g 8 0x900000002 false)) = true ∧
    cregWritable 0x100 = true ∧ next (exec (.mfc yes false 8 0x100) B) (B.land 1 (.g 8 130 false)) = true ∧
    next (exec (.mfc no false 8 0x100) B) B = true ∧
    cregWritable 0x107 = true ∧ next (exec (.mtc yes false 3 0x005) B) (B.land 2 (.creg 0x005 0xFFFFFFFF)) = true ∧
    next (exec (.mtc yes false 3 0x006) B) (B.land 2 (.creg 0x006 0x7FF)) = true ∧
    next (exec (.mtc yes false 3 0x008) B) (B.land 2 (.creg 0x008 1)) = true ∧
    next (exec (.mtc yes false 3 0x009) B) (B.land 2 (.creg 0x009 0xFFFFFFFFFFFFFFC0)) = true ∧
    next (exec (.mtc yes false 3 0x010) B) (B.land 2 (.creg 0x010 0xFFFF)) = true ∧
    next (exec (.mtc yes false 3 0x030) B) (B.land 2 (.creg 0x030 15)) = true ∧
    next (exec (.mtc yes false 3 0x046) B) (B.land 2 (.creg 0x046 0x7F)) = true ∧
    next (exec (.mtc yes false 3 0x105) B) (B.land 2 (.creg 0x105 0xFF)) = true ∧
    next (exec (.mtc yes false 5 0x005) B) (B.raise .poison) = true ∧ next (exec (.mtc no false 5 0x005) B) B = true ∧
    next (exec (.fmt yes 0x188) B) (B.land 4 (.fmtr 0x188)) = true ∧ next (exec (.fmt no 0x188) B) B = true ∧
    ((out (exec (.isync yes) B)).core 0).cs = [] ∧ next (exec (.isync no) B) B = true := by decide +kernel

/-- FP32 1.5 in g1, 2.0 in g2, −0 in g3, a NaN in g4; FMTR.RND reserved in the second state. -/
def C : State := at_ { strandA with g := [(1, ⟨0x3FC00000, false⟩), (2, ⟨0x40000000, false⟩), (3, ⟨0x80000000, false⟩),
  (4, ⟨0x7FC00000, false⟩), (5, ⟨0x40000000, true⟩)] }
def D : State := at_ { strandA with fmtr := 0x1811 }

theorem witness_ScalarFloats :
    next (exec (.sfadd yes 8 1 2 0 0) C) (C.land 4 (.g 8 0x40600000 false)) = true ∧
    next (exec (.sfmul yes 8 1 2 0 0) C) (C.land 4 (.g 8 0x40400000 false)) = true ∧
    next (exec (.sffma yes 3 1 5 0 0) C) (C.land 4 (.g 3 0x40400000 true)) = true ∧
    (rounds D 6 false false 1).isNone = true ∧ next (exec (.sfadd yes 8 1 2 0 6) D) (D.raise .illfmt) = true ∧
    (rounds C 5 false false 1).isSome = true ∧ goes (exec (.sfadd yes 8 1 2 0 5) C) = true ∧
    next (exec (.sfadd no 8 1 2 0 0) C) C = true ∧
    next (exec (.sfcmp yes true 2 1 2 2) C) (C.land 4 (.p 2 true)) = true ∧ next (exec (.sfcmp yes true 2 1 4 1) C) (C.land 4 (.p 2 true)) = true ∧
    next (exec (.sfcmp yes true 2 3 0 0) C) (C.land 4 (.p 2 true)) = true ∧
    next (exec (.sfcmp yes true 2 1 5 0) C) (C.raise .poison) = true ∧ next (exec (.sfcmp no true 2 1 5 0) C) C = true ∧
    next (exec (.sfcvt yes 8 1 0 0 2) C) (C.land 4 (.g 8 2 false)) = true ∧
    next (exec (.sfcvt yes 8 2 3 0 1) C) (C.land 4 (.g 8 0x41D0000000000000 false)) = true ∧
    next (exec (.sfcvt yes 8 1 0 0 4) C) (C.land 4 (.g 8 0x3FC0 false)) = true ∧
    next (exec (.sfcvt yes 8 1 0 1 2) C) (C.land 4 (.g 8 1 false)) = true := by decide +kernel

theorem witness_FloatCodesWriteBack :
    (Fmt.fp16.read 0x3C01).isNan = false ∧ (0xFFFFFFFF : Nat) < 2 ^ Fmt.fp32.width ∧ (Fmt.e4m3.read 0x7E).isNan = false ∧
    Fmt.fp16.write (Rnd.rne false) (Fmt.fp16.read 0x0001) = 0x0001 ∧ Fmt.e5m2.write ⟨1, 0, false, false⟩ (Fmt.e5m2.read 0x7C) = 0x7C := by
  decide +kernel

/-- A strand at call depth 1, one at depth 15, and one in handler mode; g6 holds a bundle index that is too large. -/
def hd : Handler := ⟨0x900, 90, 0, some ⟨1, 0x1FF⟩, none, [], ⟨.poison, 0, 0, ⟨0, 0, 0⟩, true⟩⟩
def E1 : State := at_ { strandA with depth := 1, rstack := [0x905] }
def E15 : State := at_ { strandA with depth := 15, rstack := [0x905], g := [(6, ⟨0x10000, false⟩)] }
def H : State := at_ { strandA with handler := some hd }
/-- Whether an instruction of slot S in handler mode has its task killed, by a trap of whatever class (R316). -/
def dooms (i : Instr) (s : State) : Bool := decide ((out (exec i s)).doomed.map (fun d => (d.task, d.slot)) = [(1, some 0)])

theorem witness_ControlTransfers :
    next (exec (.br 0x1FFFFC) A) (redirected A 0x8FC 0 none true) = true ∧ next (exec (.brc yes 10) A) (redirected A 0x90A 0 none true) = true ∧
    next (exec (.brc no 10) A) A = true ∧ next (exec (.call yes 0x100) A) (redirected A 0xA00 1 (some 0x904) false) = true ∧
    next (exec (.call yes 1) E15) (E15.raise .accv) = true ∧ next (exec (.call no 1) E15) E15 = true ∧
    next (exec (.brr yes 5) A) (A.raise .poison) = true ∧ next (exec (.callr yes 5) A) (A.raise .poison) = true ∧
    next (exec (.brr yes 6) E15) (E15.raise .illshape) = true ∧ next (exec (.callr yes 6) E15) (E15.raise .illshape) = true ∧
    next (exec (.brr yes 4) A) (redirected A 0x1000 0 none true) = true ∧
    next (exec (.callr yes 4) A) (redirected A 0x1000 1 (some 0x904) false) = true ∧ next (exec (.callr yes 0) E15) (E15.raise .accv) = true ∧
    next (exec (.brr no 4) A) A = true ∧ next (exec (.callr no 4) A) A = true ∧
    next (exec (.ret yes) E1) (redirected E1 0x905 0 none false) = true ∧ next (exec (.ret no) E1) E1 = true ∧
    (out (exec (.ret yes) A)).me.ending = true ∧ A.me.handler = none ∧ A.me.depth = 0 ∧
    H.me.handler.isSome = true ∧ dooms (.ret yes) H = true ∧
    next (exec (.chk yes 5 6) A) (redirected A 0x906 0 none true) = true ∧ next (exec (.chk yes 1 6) A) A = true ∧
    next (exec (.chk no 5 6) A) A = true := by decide +kernel

/-- A transfer due at the next step, and one due a step later; a call and a return that take effect. -/
theorem witness_ControlTransfers_bundles :
    (let t := { strandA with redirect := some ⟨101, 0xA00, 1, some 0x904, false⟩ }
     101 ≤ t.vcc + 1 ∧ (t.nextBundle true).mpc = 0xA00 ∧ (t.nextBundle true).depth = 1 ∧ (t.nextBundle true).rstack = [0x904]) ∧
    (let t := { strandA with redirect := some ⟨102, 0xA00, 1, some 0x904, false⟩ }
     t.vcc + 1 < 102 ∧ (t.nextBundle true).mpc = 0x901 ∧ (t.nextBundle true).depth = 0 ∧ (t.nextBundle true).redirect.isSome = true) ∧
    (let t := { strandA with depth := 1, rstack := [7], redirect := some ⟨101, 7, 0, none, false⟩ }
     0 + 1 = t.depth ∧ (t.nextBundle false).rstack = [] ∧ (t.nextBundle false).mpc = 7) ∧
    (let t := { strandA with rstack := [7], redirect := some ⟨101, 9, 0, none, true⟩ }
     0 = t.depth ∧ (t.nextBundle false).rstack = [7] ∧ (t.nextBundle false).vcc = 101) := by decide +kernel

/-- Level 2 with four attachments, level 3 with a length binding of 0, level 4 active, level 5 with a length binding of 5. -/
def N : State := at_ { strandA with
  cr := [(0x005, 12)]
  nest := [(2, { NestLevel.idle with atts := [⟨1, 2, 5, 0⟩, ⟨1, 2, 5, 0⟩, ⟨1, 2, 5, 0⟩, ⟨1, 2, 5, 0⟩] }),
    (3, { NestLevel.idle with atts := [⟨0, 0, 0, 1⟩] }), (4, { NestLevel.idle with active := true }),
    (5, { NestLevel.idle with atts := [⟨0, 2, 5, 1⟩] })] }

theorem witness_NestLevels :
    (N.me.level 1).binding = none ∧ ((out (exec (.loop yes 1 1 4) N)).me.level 1).trip = 12 ∧
    ((out (exec (.loop yes 1 1 4) N)).me.level 1).stop = 0x904 ∧ ((out (exec (.loop yes 1 1 4) N)).me.level 1).active = true ∧
    (N.me.level 5).binding = some 5 ∧ ((out (exec (.loop yes 5 5 4) N)).me.level 5).trip = 3 ∧
    next (exec (.loop yes 1 0 4) N) (N.updMe (fun t => { t with redirect := some ⟨101, 0x905, 0, none, false⟩ })) = true ∧
    next (exec (.loop yes 3 1 4) N) (N.raise .illshape) = true ∧ next (exec (.loop yes 1 5 4) N) (N.raise .poison) = true ∧
    next (exec (.loop yes 4 1 4) N) (N.raise .illenc) = true ∧ dooms (.loop yes 1 1 4) H = true ∧
    next (exec (.loop no 1 1 4) N) N = true ∧
    next (exec (.nest no 1 0 2 8) N) N = true ∧ dooms (.nest yes 1 0 2 8) H = true ∧
    next (exec (.nest yes 1 0 5 8) N) (N.raise .poison) = true ∧ next (exec (.nest yes 4 0 2 8) N) (N.raise .illenc) = true ∧
    ((out (exec (.nest yes 2 3 0 0) N)).me.level 2).atts = [] ∧ next (exec (.nest yes 2 0 2 8) N) (N.raise .illenc) = true ∧
    next (exec (.nest yes 5 1 2 0) N) (N.raise .illenc) = true ∧
    ((out (exec (.nest yes 1 0 2 8) N)).me.level 1).atts = [⟨8, 2, 5, 0⟩] := by decide +kernel

/-- The last bundle of a body: an iteration that goes on, and the last one with its increment and its rewind. -/
theorem witness_NestLevels_iterations :
    (let n : NestLevel := ⟨true, 0, 2, 0x8FE, 0x900, 0, [⟨8, 2, 5, 0⟩, ⟨9, 0, 0, 2⟩], [1, 2]⟩
     let t := { strandA with nest := [(0, n)] }
     t.redirect = none ∧ t.handler = none ∧ (t.level 0).active = true ∧ (t.level 0).depth = t.depth ∧ (t.level 0).stop = t.mpc ∧
     (∀ k, k < 6 → k ≠ 0 → (t.level k).active = false) ∧ (t.nextBundle true).mpc = 0x8FE ∧ ((t.nextBundle true).level 0).counter = 1 ∧
     (t.nextBundle true).nestUpd = [⟨8, false, 5⟩]) ∧
    (let n : NestLevel := ⟨true, 1, 2, 0x8FE, 0x900, 0, [⟨8, 2, 5, 0⟩, ⟨9, 0, 0, 2⟩], [1, 2]⟩
     let t := { strandA with nest := [(5, n)] }
     (t.level 5).trip ≤ (t.level 5).counter + 1 ∧ (t.nextBundle true).mpc = 0x901 ∧ ((t.nextBundle true).level 5).active = false ∧
     (t.nextBundle true).nestUpd = [⟨8, false, 5⟩, ⟨9, true, 2⟩]) := by decide +kernel

/-- Rows in the AM window of strand 0: row r is at amBase + 512 r. Row 1 holds FP32 1.5 and 2.0 in lanes 0 and 1, row 2 holds 2.0 and −1.0;
row 4 holds the integers 7, −1, 3 and row 5 holds 3, 2, −4; word 1 of row 1 is poisoned. -/
def V : State :=
  let s := (((((at_ strandA).writeNat (2 ^ 59 + 512) 4 0x3FC00000).writeNat (2 ^ 59 + 516) 4 0x40000000).writeNat (2 ^ 59 + 1024) 4
    0x40000000).writeNat (2 ^ 59 + 1028) 4 0xBF800000)
  let u := ((((((s.writeNat (2 ^ 59 + 2048) 4 7).writeNat (2 ^ 59 + 2052) 4 0xFFFFFFFF).writeNat (2 ^ 59 + 2056) 4 3).writeNat
    (2 ^ 59 + 2560) 4 3).writeNat (2 ^ 59 + 2564) 4 2).writeNat (2 ^ 59 + 2568) 4 0xFFFFFFFC)
  u.markPoison ((2 ^ 59 + 512) / 8 + 1)

/-- Lane i of the row that an instruction lands, and the poison of its word w. -/
def lastRow (s : State) : List Byte × List Bool :=
  match s.me.latches.getLast?.map Latch.val with
  | some (LandVal.row _ bs ps) => (bs, ps)
  | _ => ([], [])
def laneR (i : Instr) (s : State) (ty n : Nat) : Nat := laneIn (lastRow (out (exec i s))).1 ty n
def poisR (i : Instr) (s : State) (w : Nat) : Bool := (lastRow (out (exec i s))).2.getD (8 * w) false
def vi : VFields := { vf with a := 4, b := 5, ty := 2 }

theorem witness_VectorIntegersAndBits :
    V.me.guard vi.G = true ∧ vi.ty = 2 ∧ laneR (.vadd vi) V 2 0 = 10 ∧ laneR (.vadd vi) V 2 1 = 1 ∧ laneR (.vsub vi) V 2 1 = 0xFFFFFFFD ∧
    laneR (.vmul vi) V 2 2 = 0xFFFFFFF4 ∧ laneR (.vfma { vi with c := 4 }) V 2 0 = 28 ∧ laneR (.vfms { vi with c := 4 }) V 2 0 = 14 ∧
    laneR (.vmax vi) V 2 1 = 2 ∧ laneR (.vmax { vi with ty := 3 }) V 3 1 = 0xFFFFFFFF ∧ laneR (.vmin vi) V 2 2 = 0xFFFFFFFC ∧
    laneR (.vabs { vi with b := 0 }) V 2 1 = 1 ∧ laneR (.vabs { vi with b := 0, ty := 3 }) V 3 1 = 0xFFFFFFFF ∧
    laneR (.vneg { vi with b := 0 }) V 2 0 = 0xFFFFFFF9 ∧
    laneR (.vand vi) V 2 0 = 3 ∧ laneR (.vor vi) V 2 2 = 0xFFFFFFFF ∧ laneR (.vxor vi) V 2 0 = 4 ∧ laneR (.vmov { vi with b := 0 }) V 2 1 = 0xFFFFFFFF ∧
    laneR (.vsel { vi with c := 5 }) V 2 0 = 7 ∧ laneR (.vsel { vi with c := 9 }) V 2 0 = 3 ∧ laneR (.vshl vi) V 2 0 = 56 ∧
    laneR (.vshr vi) V 2 1 = 0xFFFFFFFF ∧ laneR (.vshr { vi with ty := 3 }) V 3 1 = 0x3FFFFFFF ∧ laneR (.vcmp { vi with flags := 2 }) V 2 1 = 0xFFFFFFFF ∧
    laneR (.vcmp { vi with flags := 11 }) V 2 0 = 0 ∧ laneR (.vcmp { vf with flags := 2 }) V 0 0 = 0xFFFFFFFF ∧
    laneR (.vcmp { vf with flags := 7 }) V 0 1 = 0xFFFFFFFF ∧ poisR (.vmov { vf with b := 0 }) V 1 = true ∧ poisR (.vmov { vf with b := 0 }) V 0 = false := by
  decide +kernel

theorem witness_VectorFloatLanes :
    vf.ty = 0 ∧ V.me.guard vf.G = true ∧ (rounds V 0 false false 128).isSome = true ∧ laneR (.vadd vf) V 0 0 = 0x40600000 ∧
    laneR (.vsub vf) V 0 1 = 0x40400000 ∧ laneR (.vmul vf) V 0 1 = 0xC0000000 ∧ laneR (.vfma { vf with c := 1 }) V 0 0 = 0x40900000 ∧
    laneR (.vfms { vf with c := 1 }) V 0 0 = 0x3FC00000 ∧ laneR (.vmax vf) V 0 0 = 0x40000000 ∧ laneR (.vmin vf) V 0 1 = 0xBF800000 ∧
    laneR (.vabs { vf with a := 2, b := 0 }) V 0 1 = 0x3F800000 ∧ laneR (.vneg { vf with b := 0 }) V 0 0 = 0xBFC00000 ∧
    next (exec (.vadd { vf with rnd := 6 }) D) (D.raise .illfmt) = true := by decide +kernel

theorem witness_VectorMovement :
    vi.ty.toNat < 4 ∧ V.me.guard vi.G = true ∧ laneR (.vbcast { vi with a := 0, b := 1, bsel := true }) V 2 127 = 12 ∧
    (2 : BitVec 16).toNat < 128 ∧ laneR (.vbcast { vi with b := 0, imm := 2 }) V 2 0 = 3 ∧
    laneR (.viota { vi with a := 0, b := 0, imm := 0xFFFF }) V 2 0 = 0xFFFFFFFF ∧ laneR (.viota { vf with a := 0, b := 0, imm := 2 }) V 0 1 = 0x40400000 ∧
    laneR (.vperm { vi with b := 5 }) V 2 1 = 3 ∧ laneR (.vperm { vi with bsel := true, b := 1 }) V 2 9 = 0 ∧
    next (exec (.vext { vi with b := 0, imm := 1 }) V) (V.land 2 (.g 3 0xFFFFFFFF false)) = true ∧
    next (exec (.vext { vi with bsel := true, b := 0 }) V) (V.land 2 (.g 3 7 false)) = true ∧
    laneR (.vins { vi with d := 4, a := 0, b := 1, bsel := true, imm := 2 }) V 2 2 = 12 ∧
    laneR (.vins { vi with d := 4, a := 0, b := 1, bsel := true, imm := 2 }) V 2 0 = 7 ∧
    poisR (.vins { vi with d := 4, a := 0, b := 5, bsel := true, imm := 2 }) V 1 = true := by decide +kernel

theorem witness_VectorReductions :
    laneR (.vrsum { vf with b := 0 }) V 0 0 = 0x40600000 ∧ laneR (.vrsum { vf with b := 0 }) V 0 1 = 0 ∧ poisR (.vrsum { vf with b := 0 }) V 0 = true ∧
    laneR (.vrsum { vi with b := 0 }) V 2 0 = 9 ∧ laneR (.vrmax { vi with b := 0 }) V 2 0 = 7 ∧ laneR (.vrmin { vi with b := 0 }) V 2 0 = 0xFFFFFFFF ∧
    laneR (.vrmax { vf with b := 0 }) V 0 0 = 0x40000000 ∧ laneR (.vrmin { vf with a := 2, b := 0 }) V 0 0 = 0xBF800000 ∧
    laneR (.vscan { vi with b := 0 }) V 2 1 = 6 ∧ laneR (.vscan { vi with b := 0 }) V 2 127 = 9 ∧ laneR (.vscan { vf with b := 0 }) V 0 0 = 0x3FC00000 ∧
    laneR (.vrmax { vf with a := 6, b := 0 }) ((V.writeNat (2 ^ 59 + 3072 + 504) 4 0xFFC00001)) 0 0 = 0x7FC00000 := by decide +kernel

/-- FMTR with FP32 operands and SRE set. -/
def Sr : State := { V with strands := [(0, { strandA with fmtr := 0x8011 })] }

theorem witness_VectorConversionsQuantisation :
    (let o : VFields := { vf with b := 0, imm := 2, rnd := 1 }
     (Instr.vcvt o).wf = true ∧ V.me.guard o.G = true ∧ laneR (.vcvt o) V 2 0 = 1 ∧ laneR (.vcvt o) V 2 1 = 2 ∧ poisR (.vcvt o) V 1 = true) ∧
    (let o : VFields := { vf with b := 0, imm := 5 }
     (Instr.vcvt o).wf = true ∧ laneR (.vcvt o) V 1 0 = 0) ∧
    (let o : VFields := { vf with b := 0, imm := 1 }
     laneR (.vcvt o) V 1 0 = 0x3FF8000000000000) ∧
    (let o : VFields := { vf with d := 4, ty := 1, b := 0, imm := 4 }
     (Instr.vcvt o).wf = true ∧ laneR (.vcvt o) V 0 0 = 7 ∧ laneR (.vcvt o) V 0 64 = 0x40000002) := by decide +kernel

/-- A row of the value 1.0 quantises as MXINT8 with the scale 2^0 (code 127) and elements 64, and expands back. -/
theorem witness_VectorQuantisation :
    (let s := V.writeNat (2 ^ 59 + 3072) 4 0x3F800000
     let q : VFields := { vf with d := 7, a := 6, b := 0, imm := 9 }
     (Instr.vqnt q).wf = true ∧ (rounds s 0 true true 128).isSome = true ∧ fieldN (leNat (lastRow (out (exec (.vqnt q) s))).1) 0 8 = 64 ∧
     fieldN (leNat (lastRow (out (exec (.vqnt q) s))).1) (8 * 192) 8 = 127) ∧
    (let s := (V.writeNat (2 ^ 59 + 3072) 4 0x40).writeNat (2 ^ 59 + 3072 + 192) 1 128
     let q : VFields := { vf with a := 6, b := 0, imm := 9 }
     (Instr.vdqt q).wf = true ∧ laneR (.vdqt q) s 0 0 = 0x40000000 ∧ laneR (.vdqt { q with imm := 0x19 }) s 0 64 = 0) ∧
    (let q : VFields := { vf with d := 7, a := 6, b := 0, imm := 9, rnd := 6 }
     next (exec (.vqnt q) D) (D.raise .illfmt) = true) := by decide +kernel

theorem witness_VectorSpecialFunctionsAndSelection :
    (let o : VFields := { vf with b := 0, a := 9 }
     (o.ty.toNat < 2 ∧ V.me.guard o.G = true) ∧ laneR (.vexp o) V 0 5 = 0x3F800000 ∧ laneR (.vlog o) V 0 5 = 0xFF800000 ∧
     laneR (.vrcp o) V 0 5 = 0x7F800000 ∧ laneR (.vrsq o) V 0 5 = 0x7F800000 ∧ laneR (.vtanh o) V 0 5 = 0) ∧
    laneR (.vrcp { vf with b := 0 }) V 0 1 = 0x3F000000 ∧
    (Fmt.fp32.read 0x7FC00000).isNan = true ∧ Fmt.fp64.read 0xFFF0000000000000 = .inf true ∧ Fmt.fp32.read 0x7F800000 = .inf false ∧
    (Fmt.fp32.read 0x80000000).isZero = true ∧ (Fmt.fp32.read 0xBF800000).sign = true ∧ Fmt.fp32.ln false 0xBF800000 = 0x7FC00000 := by
  decide +kernel

theorem witness_VectorSelection :
    (let o : VFields := { vi with a := 4, b := 0, imm := 0x0202 }
     (Instr.vtopk o).wf = true ∧ laneR (.vtopk o) V 2 0 = 7 ∧ laneR (.vtopk o) V 2 1 = 3 ∧ laneR (.vtopk o) V 2 2 = 0 ∧
     laneR (.vtopk o) V 2 64 = 0 ∧ laneR (.vtopk o) V 2 65 = 2) ∧
    (let o : VFields := { vf with a := 2, b := 0, bsel := true, c := 4, imm := 1, d := 9, flags := 1 }
     (Instr.conft o).wf = true ∧ next (exec (.conft { o with b := 5 }) V) (V.raise .poison) = true ∧
     (out (exec (.conft o) V)).me.latches.map (fun l => (l.due, landKey l.val)) = [(102, (2, 9)), (102, (1, 4))] ∧
     (out (exec (.conft o) V)).me.latches.map (fun l => l.val == .p 4 true) = [false, true]) := by decide +kernel

/-- The stores of the strand of M: a tile at row 32 and an A panel row; FMTR is FP32 with strides of 256. -/
def Mx : State := at_ { strandA with
  g := [(1, ⟨0x1000, false⟩), (2, ⟨0x2000, false⟩), (3, ⟨16, false⟩), (4, ⟨0x1001, false⟩), (5, ⟨0x1000, true⟩),
  (6, ⟨17, false⟩), (7, ⟨0x400000, false⟩), (8, ⟨0x100000000, false⟩), (9, ⟨1, false⟩), (10, ⟨32, false⟩), (11, ⟨0x20010, false⟩)]
  q := [(2, ⟨255, 0, false⟩)] }
def MxG : State := { Mx with strands := [(0, { Mx.me with fmtr := 0x100A1, cr := [(0x102, 1024)] })] }
def mq (i : Instr) (s : State) : List MOp := ((out (exec i s)).core 0).mq

theorem witness_MatrixOperations :
    (mq (.mma mf) Mx).map (fun o => (o.id, o.n, o.m, o.base, o.prio, o.prod)) = [(10, 16, 32, 0, 0, 1)] ∧
    ((out (exec (.mma mf) Mx)).me.tok 1).outst = 1 ∧ ((out (exec (.mma mf) Mx)).core 0).busy.get 0 0 = 1 ∧
    next (exec (.mma mf) (at_ { Mx.me with fmtr := 0x21 })) ((at_ { Mx.me with fmtr := 0x21 }).raiseAt .illfmt ⟨0, 0, 0⟩) = true ∧
    next (exec (.mma { mf with gN := 6 }) Mx) (Mx.raiseAt .illshape ⟨0, 0, 0⟩) = true ∧
    next (exec (.mma { mf with tile := 1 }) Mx) (Mx.raiseAt .illshape ⟨0, 0, 0⟩) = true ∧
    next (exec (.mma { mf with gA := 5 }) Mx) (Mx.raiseAt .poison ⟨0, 0, 0⟩) = true ∧
    next (exec (.mma { mf with gA := 4 }) Mx) (Mx.raiseAt .align ⟨0x1001, 0, 0⟩) = true ∧
    next (exec (.mma { mf with gB := 7 }) Mx) (Mx.raiseAt .accv ⟨0x400000, 0, 0⟩) = true ∧
    next (exec (.mma { mf with prod := 2 }) Mx) (Mx.raiseAt .tokovf ⟨0, 0, 0⟩) = true ∧
    (let o : MFields := { mf with gA := 0, gB := 0, gN := 10 }
     (mq (.mrot o) Mx).map (fun o => (o.kind, o.n)) = [(.mrot, 32)] ∧ (mq (.mzero { o with gN := 3 }) Mx).map (·.n) = [16] ∧
     next (exec (.mrot { o with gN := 3 }) Mx) (Mx.raiseAt .illshape ⟨0, 0, 0⟩) = true) ∧
    Mx.me.guard ⟨mf.p, false⟩ = true := by decide +kernel

theorem witness_MatrixOperations_out :
    (let o : MFields := { mf with gA := 1, gB := 8, gN := 3 }
     ((out (exec (.mgv o) MxG)).core 0).gq.map (fun o => (o.kind, o.n, o.m)) = [(.mgv, 16, 1)] ∧
     next (exec (.mgv { o with gB := 2 }) MxG) (MxG.raiseAt .align ⟨0x2000, 0, 0⟩) = true ∧
     next (exec (.mgv o) Mx) (Mx.raiseAt .illfmt ⟨0, 0, 0⟩) = true) ∧
    (let o : MFields := { mf with gA := 1, gB := 9, gN := 3, tile := 32 }
     (mq (.mdrn o) Mx).map (fun o => (o.kind, o.dfmt, o.draws, o.base)) = [(.mdrn, 1, [], 32)] ∧
     next (exec (.mdrn { o with gA := 4 }) Mx) (Mx.raiseAt .align ⟨0x1001, 1, 0⟩) = true) ∧
    (Sr.me.mode? 6 true = some 5) ∧
    (mq (.mpri { mf with gA := 0, gB := 0, gN := 0, tile := 9 }) (out (exec (.mma mf) Mx))).map (fun o => (o.prio, o.turns, o.next)) = [(0, 1, 9)] := by decide +kernel

/-- Core 1 of the first cluster is taken out. -/
def Rm : State := { A with cores := [(1, { Core.idle with removed := true })] }

theorem witness_AddressMap :
    Rm.place 0 0x3FFFFF 1 = .own (2 ^ 58 + 0x3FFFFF) ∧ Rm.place 0 0x3FFFF8 8 = .own (2 ^ 58 + 0x3FFFF8) ∧ Rm.place 0 0x3FFFFC 8 = .none ∧
    Rm.place 0 0x400000 1 = .none ∧ Rm.place 0 0xFFFFFF 1 = .none ∧ Rm.place 0 0x1000000 8 = .own (2 ^ 58) ∧ Rm.place 0 0x1400000 8 = .none ∧
    Rm.place 0 0x1800000 8 = .peer (2 ^ 58 + 0x800000) ∧ Rm.place 0 0x2FFFFF8 8 = .peer (2 ^ 58 + 0x1FFFFF8) ∧ Rm.place 0 0x2FFFFFC 8 = .none ∧
    Rm.place 0 0x3000000 1 = .none ∧ Rm.place 0 0x7FFFFFF 1 = .none ∧ Rm.place 0 0x8000000 8 = .am 0 (2 ^ 59) ∧
    Rm.place 0 0x80FFFFF 1 = .am 2047 (2 ^ 59 + 0xFFFFF) ∧ Rm.place 0 0x80FFFFF 2 = .none ∧ Rm.place 0 0x8100000 1 = .none ∧
    Rm.place 0 0xFFFFFFFF 1 = .none ∧ Rm.place 0 (2 ^ 32) 1 = .translated ∧ Rm.place 0 (2 ^ 57 - 8) 8 = .translated ∧
    Rm.place 0 (2 ^ 57 - 7) 8 = .none ∧ Rm.place (2 ^ 15) 0 8 = .none ∧ Rm.place (2 ^ 15) (2 ^ 32) 8 = .translated ∧
    Rm.place 32767 0 4 = .own (2 ^ 58 + 4095 * 0x400000) := by decide +kernel

/-- g4 = 0x1000 in the own scratchpad, where the word 0x8000000080000001 stands; g1 = a peer's word; g2 an AM address; g3 no address at all;
g6 misaligned; g7 a translated address with a page in the translation cache; g8 one without. -/
def L : State :=
  let s := at_ { strandA with
    g := [(1, ⟨0x1400000, false⟩), (2, ⟨0x8000000, false⟩), (3, ⟨0x500000, false⟩), (4, ⟨0x1000, false⟩), (5, ⟨0x1000, true⟩), (6, ⟨0x1001, false⟩),
      (7, ⟨0x200000040, false⟩), (8, ⟨0x300000000, false⟩), (9, ⟨0x8008000, false⟩), (10, ⟨0x1122334455667788, false⟩)] }
  let u := { s with tlb := [⟨0, 1, 0x200000000, 65536, 0x10000, true, true⟩, ⟨0, 1, 0x200010000, 65536, 0x20000, true, false⟩] }
  ((u.writeNat (2 ^ 58 + 0x1000) 8 0x8000000080000001).writeNat (2 ^ 58 + 0x400000) 8 0x1234).writeNat 0x10040 8 0x5678
def ldF (base : BitVec 6) (size : BitVec 3) : LMFields := ⟨8, base, 0, size, 0, yes, false⟩

theorem witness_ScalarLoadsEverywhere :
    (Instr.ld (ldF 4 6)).wf = true ∧ L.me.guard yes = true ∧ L.place 0 0x1000 4 = .own (2 ^ 58 + 0x1000) ∧ (earlier L).heldRead 0x1001000 4 = false ∧
    (earlier L).behindRead [(2 ^ 58 + 0x1000, 4)] false = false ∧
    next (exec (.ld (ldF 4 6)) L) (L.land 4 (.g 8 0xFFFFFFFF80000001 false)) = true ∧
    next (exec (.ldt (ldF 4 2)) L) (L.land 4 (.g 8 0x80000001 false)) = true ∧
    next (exec (.lda { ldF 4 3 with scope := 5 }) L) (L.land 4 (.g 8 0x8000000080000001 false)) = true ∧
    next (exec (.ld (ldF 1 3)) L) (L.land 10 (.g 8 0x1234 false)) = true ∧ next (exec (.lds (ldF 4 0)) L) (L.land 4 (.g 8 1 false)) = true ∧
    next (exec (.ld (ldF 2 3)) L) (L.landEntry 4 [.g 8 0 false] true .data) = true ∧
    next (exec (.ld (ldF 9 3)) L) (L.raiseVa .accv 0x8008000 .load 0) = true ∧
    next (exec (.lds (ldF 9 3)) L) (L.land 4 (.g 8 0 true)) = true ∧ next (exec (.ldt (ldF 2 3)) L) (L.raiseVa .accv 0x8000000 .load 0) = true ∧
    next (exec (.ld (ldF 5 3)) L) (L.raise .poison) = true ∧ next (exec (.lds (ldF 5 3)) L) (L.land 4 (.g 8 0 true)) = true ∧
    next (exec (.ld (ldF 6 3)) L) (L.raiseVa .align 0x1001 .load 0) = true ∧ next (exec (.lds (ldF 6 3)) L) (L.land 4 (.g 8 0 true)) = true ∧
    next (exec (.ld (ldF 3 3)) L) (L.raiseVa .accv 0x500000 .load 0) = true ∧ next (exec (.lds (ldF 3 3)) L) (L.land 4 (.g 8 0 true)) = true := by
  decide +kernel

/-- The L1 line of the word at 0x2_0000_0040, and the state in which it is there. -/
def L1 : State := { L with cores := [(0, { Core.idle with l1 := [⟨1, 0x200000040, 0x10040, true⟩] })] }
def accL (addr : Nat) : Access := ⟨addr, 8, L.slot, .load 8 (loadForm 3) 104 false false, true⟩

theorem witness_ScalarLoadsEverywhere_translated :
    L1.place 0 0x200000040 8 = .translated ∧ L1.l1Places (accL 0x200000040) = some [(0x10040, 8)] ∧
    next (exec (.ld (ldF 7 3)) L1) (L1.landEntry 4 [.g 8 0x5678 false] false .data) = true ∧
    L.l1Places (accL 0x300000000) = none ∧ L.tlbHit 0 1 0x300000000 = none ∧
    next (exec (.ld (ldF 8 3)) L) (L.updMe (fun t => { t with xlat := [accL 0x300000000] })) = true ∧
    (L.tlbHit 0 1 0x200000040).isSome = true ∧ targetFault L false (accL 0x200000040).op 0x10040 8 = none ∧
    (out (exec (.ld (ldF 7 3)) L)).me.lb.map (fun e => (e.due, e.vals, e.arrived)) = [(104, [.g 8 0x5678 false], false)] ∧
    (out (exec (.ldx { lx with base := 7, d := 8 }) L)).me.lb.map (fun e => (e.due, e.vals, e.arrived)) = [(140, [.g 8 0x5678 false], false)] ∧
    ((out (exec (.ldv ⟨8, 7, 0, 0, 0, yes, true⟩) L)).me.lb.map (fun e => (e.due, e.arrived)) = [(106, false)]) := by decide +kernel

def ldvF (base : BitVec 6) : LMFields := ⟨8, base, 0, 0, 0, yes, true⟩

theorem witness_TimedLoadsLatchesPrefetches :
    (Instr.ldv (ldvF 4)).wf = true ∧ (out (exec (.ldv (ldvF 4)) L)).me.latches.map (fun l => (l.due, landKey l.val)) = [(106, (2, 8))] ∧
    leNat (((lastRow (out (exec (.ldv (ldvF 4)) L))).1).take 8) = 0x8000000080000001 ∧
    (out (exec (.ldv (ldvF 1)) L)).me.latches.map (fun l => l.due) = [112] ∧ next (exec (.ldv (ldvF 5)) L) (L.raise .poison) = true ∧
    next (exec (.ldv (ldvF 6)) L) (L.raiseVa .align 0x1001 .load 0) = true ∧ next (exec (.ldv (ldvF 3)) L) (L.raiseVa .accv 0x500000 .load 0) = true ∧
    next (exec (.ldv (ldvF 9)) L) (L.raiseVa .accv 0x8008000 .load 0) = true ∧
    (out (exec (.ldv (ldvF 2)) L)).me.lb.map (fun e => (e.due, e.arrived)) = [(106, true)] ∧
    (Instr.ldx { lx with land := 3 }).wf = true ∧
    next (exec (.ldx { lx with land := 3, d := 8 }) L) (L.landEntry 3 [.g 8 0x8000000080000001 false] false .data) = true ∧
    next (exec (.ldx { lx with land := 4, d := 8 }) L) (L.landEntry 4 [.g 8 0x8000000080000001 false] true .data) = true ∧
    next (exec (.ldx { lx with base := 1, land := 10, d := 8 }) L) (L.landEntry 10 [.g 8 0x1234 false] true .data) = true ∧
    next (exec (.ldx { lx with base := 5 }) L) (L.raise .poison) = true ∧ next (exec (.ldx { lx with base := 6 }) L) (L.raiseVa .align 0x1001 .load 0) = true ∧
    next (exec (.ldx { lx with base := 3 }) L) (L.raiseVa .accv 0x500000 .load 0) = true ∧
    next (exec (.ldx { lx with base := 9 }) L) (L.raiseVa .accv 0x8008000 .load 0) = true := by decide +kernel

/-- The strand in a braid whose broadcast of step 100 stands on the lanyard. -/
def Br : State := { at_ { strandA with braid := some 1, member := 2 } with
  braids := [(1, ⟨1, [0, 8], [], none, [⟨100, 0, [1, 2, 3], [false, false, false]⟩]⟩)] }

theorem witness_TimedLoadsLatchesPrefetches_latch :
    (let o : LMFields := ⟨2, 4, 0, 0, 0, yes, false⟩
     (Instr.latch o).wf = true ∧ next (exec (.latch o) A) (A.land 3 (.p 2 false)) = true ∧
     next (exec (.latch o) Br) (Br.land 3 (.latch 2 0x1000 (2 ^ 58 + 0x1000) 64 1 100)) = true ∧
     next (exec (.latch { o with base := 5 }) L) (L.raise .poison) = true ∧
     next (exec (.latch { o with base := 6 }) L) (L.raiseVa .align 0x1001 .store 0) = true ∧
     next (exec (.latch { o with base := 1 }) L) (L.raiseVa .accv 0x1400000 .store 0) = true) ∧
    (let o : LMFields := ⟨0, 4, 0, 0, 0, yes, false⟩
     (Instr.pref o).wf = true ∧ next (exec (.pref o) L) L = true ∧ next (exec (.pref { o with base := 5 }) L) (L.raise .poison) = true ∧
     (out (exec (.pref { o with base := 7 }) L)).mem = L.mem) ∧
    (let u := Br.applyVal 0 (.latch 2 0x1000 (2 ^ 58 + 0x1000) 2 1 100)
     u.peek (2 ^ 58 + 0x1001) = 2 ∧ u.peek (2 ^ 58 + 0x1002) = 0 ∧ u.me.pred 2 = true) ∧
    (Br.applyVal 0 (.latch 1 0x1000 (2 ^ 58 + 0x1000) 2 1 99)).me.pred 1 = false ∧
    (let f := Br.updMe (fun t => { t with wq := [⟨9, .order .acq 4 0 0, false⟩] })
     let u := f.applyVal 0 (.latch 2 0x1000 (2 ^ 58 + 0x1000) 2 1 100)
     f.me.heldWrite 0x1001000 2 = true ∧ u.mem = f.mem ∧ u.me.pred 2 = true ∧
     u.me.wq.map (·.what) = [.order .acq 4 0 0, .write 0x1001000 [(2 ^ 58 + 0x1000, 2)] (.latch [1, 2] [false, false])]) := by decide +kernel

/-- The address space 1 with tables that map 2^33 to 2^33 + 2^30 onto the physical addresses from 2^30 on. -/
def paged (s : State) : State :=
  let c := s.ctx 0
  (((({ s with ctxs := s.ctxs.set 0 { c with walker := { c.walker with troot := 0x100000 } } } : State).writeNat 0x100000 8 0x101001).writeNat
    0x101000 8 0x102001).writeNat 0x102040 8 0x4000000F)

/-- A sequence of one layer with records of 64 bytes at 2^33 + 0x1000: one extent of 64 positions, of which 0 is VALID, 1 PENDING, 2
DROPPED; the high-water mark is 3. The KV pool is the 1 GiB at 2^33. -/
def seqOf (s : State) : State :=
  ((((((paged { s with dev := (s.dev.set 0x400 0x200000000).set 0x408 1 }).writeNat 0x40001000 8 0x0100000100000003).writeNat 0x40001008 8 192).writeNat 0x40001010 8 0x200002000).writeNat
    0x40001018 8 0x200003000).writeNat 0x40001040 16 (0x200010000 + 2 ^ 64 * 64 + 2 ^ 96 * 192)).writeNat 0x40002000 4 3
def Sq : State :=
  let s := seqOf (at_ { strandA with
    g := [(1, ⟨0, false⟩), (2, ⟨1, false⟩), (3, ⟨64, false⟩), (4, ⟨0x100000000, false⟩), (5, ⟨9, true⟩), (6, ⟨0x2000, false⟩), (7, ⟨0x2001, false⟩),
      (8, ⟨0x8000000, false⟩), (10, ⟨63, false⟩)]
    cr := [(9, 0x200001000)] })
  (((s.writeNat 0x40010080 8 1).writeNat 0x40010140 8 2).writeNat 0x40010200 8 3)
def kv (base : BitVec 6) : LMFields := ⟨8, base, 0x2000, 0, 0, yes, false⟩
/-- The bits of a BFQ job of the sequence for a position and layer. -/
def job (pos layer entry : Nat) : Nat := 0x200001000 * 2 ^ 192 + 77 * 2 ^ 128 + pos * 2 ^ 96 + layer * 2 ^ 84 + entry * 2 ^ 72 + 5 * 2 ^ 68
def withJob (pos layer entry : Nat) : State := Sq.writeNat (2 ^ 58 + 0x2000) 32 (job pos layer entry)
def statusOf (s : State) : List (List LandVal) := (out (exec (.bfq 6 9) s)).me.lb.map (·.vals)

theorem witness_RecordsAndBackfill :
    (Instr.kvad (kv 1)).wf = true ∧ Sq.me.guard yes = true ∧
    next (exec (.kvad (kv 1)) Sq) (Sq.landEntry 4 [.g 8 0x200010000 false, .p 2 true] true .data) = true ∧
    next (exec (.kvad { kv 10 with off := 0x2800 }) Sq) (Sq.landEntry 4 [.g 8 0x200012F80 false, .p 2 false] true .data) = true ∧
    next (exec (.kvad { kv 10 with size := 1 }) Sq) (Sq.landEntry 4 [.g 8 0x200012F40 false, .p 2 true] true .data) = true ∧
    next (exec (.kvad (kv 3)) Sq) (Sq.raiseVa .accv 0x200001000 .load 0) = true ∧
    next (exec (.kvad { kv 3 with off := 0x2001 }) Sq) (Sq.raise .illshape) = true ∧
    next (exec (.kvad (kv 4)) Sq) (Sq.raise .illshape) = true ∧ next (exec (.kvad (kv 5)) Sq) (Sq.raise .poison) = true ∧
    next (exec (.kvad (kv 1)) A) (A.raiseVa .accv 0 .load 0) = true ∧
    (let s := Sq.writeNat 0x40001008 8 128
     next (exec (.kvad (kv 1)) s) (s.raiseVa .illshape 0x200001000 .load 0) = true) ∧
    (let t := out (exec (.kvad (kv 2)) Sq)
     t.me.lb.map (fun e => (e.due, e.vals, e.arrived)) = [(104, [.g 8 0x2000100C0 false], false)] ∧ t.mem = Sq.mem) ∧
    (let s := Sq.updMe (fun t => { t with base := 16, wq := [⟨9, .order .full 4 0 0, false⟩] })
     (earlier s).heldRead 0x200001000 320 = true ∧
     (out (exec (.kvad (kv 1)) s)).me.lb = [⟨16, 104, [.g 8 0x200010000 false], false, false, .kvad 0x200001000 0 0 false 2, []⟩]) := by decide +kernel

theorem witness_RecordsAndBackfill_jobs :
    Sq.inScratch 0 0x2000 32 = true ∧ next (exec (.bfq 5 9) Sq) (Sq.raise .poison) = true ∧
    next (exec (.bfq 7 9) Sq) (Sq.raiseVa .align 0x2001 .load 0) = true ∧ next (exec (.bfq 8 9) Sq) (Sq.raiseVa .accv 0x8000000 .load 0) = true ∧
    statusOf { withJob 1 0 5 with scopes := [(3, ⟨2, false, true, 0, 0, 0⟩)] } = [[.g 9 2 false]] ∧
    statusOf Sq = [[.g 9 3 false]] ∧ statusOf (withJob 1 1 5) = [[.g 9 3 false]] ∧ statusOf (withJob 0 0 5) = [[.g 9 3 false]] ∧
    statusOf ((withJob 1 0 5).writeNat 0x40001008 8 128) = [[.g 9 3 false]] ∧
    statusOf { withJob 1 0 5 with backfill := [(0, List.replicate 4096 1)] } = [[.g 9 1 false]] ∧
    (let t := out (exec (.bfq 6 9) (withJob 1 0 5))
     t.me.lb.map (·.vals) = [[.g 9 0 false]] ∧ t.backfill = [(0, [10])] ∧ (t.task 10).prio = 5 ∧ (t.task 10).home = 3 ∧
     (State.microOf (t.task 10)).entry = 5 ∧ (State.microOf (t.task 10)).origin = [77, 1, 0, 0, 0, 0]) := by decide +kernel

/-- g10 holds the word to store; the rows of AM begin with 7; row 9 is poisoned. -/
def W : State := { (L.writeNat (2 ^ 59 + 512 * 8) 4 7) with poison := [(2 ^ 59 + 512 * 9) / 8] }
def stF (base : BitVec 6) (size : BitVec 3) : LMFields := ⟨10, base, 8, size, 0, yes, false⟩
def stvF (base : BitVec 6) : LMFields := ⟨8, base, 0, 0, 0, yes, true⟩

theorem witness_StoresEverywhere :
    (Instr.st (stF 4 3)).wf = true ∧ W.place 0 0x1008 8 = .own (2 ^ 58 + 0x1008) ∧ (earlier W).heldWrite 0x1001008 8 = false ∧
    (earlier W).behind [(2 ^ 58 + 0x1008, 8)] = false ∧ W.me.pausedBefore W.slot = false ∧
    next (exec (.st (stF 4 3)) W) (W.writePieces [(2 ^ 58 + 0x1008, 8)] [0x88, 0x77, 0x66, 0x55, 0x44, 0x33, 0x22, 0x11]) = true ∧
    next (exec (.st (stF 1 0)) W) (W.writePieces [(2 ^ 58 + 0x400008, 1)] [0x88]) = true ∧
    (Instr.stx (stF 4 2)).wf = true ∧ next (exec (.stx (stF 4 2)) W) (W.writePieces [(2 ^ 58 + 0x1008, 4)] [0x88, 0x77, 0x66, 0x55]) = true ∧
    (Instr.stl { stF 4 1 with scope := 4 }).wf = true ∧
    (out (exec (.stl { stF 4 1 with scope := 4 }) W)).me.wq =
      [⟨0, .write 0x1001008 [(2 ^ 58 + 0x1008, 2)] (.store [0x88, 0x77] true 4), false⟩] ∧
    next (exec (.stl (stF 4 1)) W) (W.writePieces [(2 ^ 58 + 0x1008, 2)] [0x88, 0x77]) = true ∧
    next (exec (.st (stF 5 3)) W) (W.raise .poison) = true ∧ next (exec (.st { stF 4 3 with d := 5 }) W) (W.raise .poison) = true ∧
    next (exec (.st (stF 6 1)) W) (W.raiseVa .align 0x1009 .store 0) = true ∧ next (exec (.st (stF 2 3)) W) (W.raiseVa .accv 0x8000008 .store 0) = true ∧
    next (exec (.st (stF 3 3)) W) (W.raiseVa .accv 0x500008 .store 0) = true ∧
    (Instr.stv (stvF 4)).wf = true ∧ (out (exec (.stv (stvF 4)) W)).natAt (2 ^ 58 + 0x1000) 8 = 7 ∧ (Instr.stx (stvF 4)).wf = true ∧
    (out (exec (.stx (stvF 4)) W)).natAt (2 ^ 58 + 0x1000) 8 = 7 ∧ next (exec (.stv { stvF 4 with d := 9 }) W) (W.raise .poison) = true ∧
    next (exec (.stv (stvF 5)) W) (W.raise .poison) = true ∧ next (exec (.stv (stvF 6)) W) (W.raiseVa .align 0x1001 .store 0) = true ∧
    next (exec (.stv (stvF 2)) W) (W.raiseVa .accv 0x8000000 .store 0) = true ∧ next (exec (.stv (stvF 3)) W) (W.raiseVa .accv 0x500000 .store 0) = true ∧
    (W.writePieces [(0x40, 2)] [1, 2]).bytesAt 0x3F 4 = [0, 1, 2, 0] ∧ targetOf (0x40 % 2 ^ 48) = .hbm := by decide +kernel

theorem witness_StoresEverywhere_translated :
    (let ps := [(0x10048, 8)]
     let s := { W with cores := L1.cores }
     s.place 0 0x200000048 8 = .translated ∧
     next (exec (.st (stF 7 3)) s) (s.writePieces ps [0x88, 0x77, 0x66, 0x55, 0x44, 0x33, 0x22, 0x11]) = true ∧
     next (exec (.stv (stvF 7)) s) (s.writePieces [(0x10040, 64)] (s.bytesAt (2 ^ 59 + 512 * 8) 64)) = true ∧
     (out (exec (.stl { stF 7 3 with scope := 4 }) s)).me.wq.map (·.id) = [0]) ∧
    next (exec (.st (stF 7 3)) W) (W.writePieces [(0x10048, 8)] [0x88, 0x77, 0x66, 0x55, 0x44, 0x33, 0x22, 0x11]) = true ∧
    (let s := W.updMe (fun t => { t with g := t.g.set 7 ⟨0x200010000, false⟩ })
     next (exec (.st (stF 7 3)) s) (s.raiseVa .accv 0x200010008 .store 1) = true) ∧
    (out (exec (.st (stF 8 3)) W)).me.xlat.map (·.addr) = [0x300000008] := by decide +kernel

/-- STP with FP32 lanes stored as BF16 (code 2): 1.0 in lane 0. -/
def P : State := { ((W.updMe (fun t => { t with fmtr := 0x2 })).writeNat (2 ^ 59 + 512 * 8) 4 0x3F800000) with poison := W.poison }

theorem witness_StoresEverywhere_packed :
    (Instr.stp (stvF 4)).wf = true ∧ P.place 0 0x1000 32 = .own (2 ^ 58 + 0x1000) ∧ (rounds P 6 true false 16).isSome = true ∧
    P.slotFailed = false ∧ (out (exec (.stp (stvF 4)) P)).natAt (2 ^ 58 + 0x1000) 4 = 0x3F80 ∧
    next (exec (.stp { stvF 4 with d := 9 }) P) (P.raise .poison) = true ∧ next (exec (.stp (stvF 6)) P) (P.raiseVa .align 0x1001 .store 0) = true ∧
    (let s := P.updMe (fun t => { t with fmtr := 0x30002 })
     next (exec (.stp (stvF 4)) s) (s.raise .illfmt) = true) ∧
    (let s := P.updMe (fun t => { t with fmtr := 0x0 })
     next (exec (.stp (stvF 4)) s) (s.raise .illfmt) = true) ∧
    (let s := P.updMe (fun t => { t with fmtr := 0x1802 })
     rounds s 6 true false 16 = none ∧ next (exec (.stp (stvF 4)) s) (s.raise .illfmt) = true) := by decide +kernel

/-- An atomic on the word in the own scratchpad: 0x80000001, with g10 = 0x1122334455667788 as its operand. -/
def at1 (base : BitVec 6) (ty : BitVec 2) : WAFields := ⟨8, 10, base, 0, ty, 0, 0⟩
def afterA (i : Instr) : Nat := (out (exec i W)).natAt (2 ^ 58 + 0x1000) 4

theorem witness_AtomicsAndReductions :
    (Instr.aadd (at1 4 0)).wf = true ∧ W.natAt (2 ^ 58 + 0x1000) 4 = 0x80000001 ∧
    next (exec (.aadd (at1 4 0)) W) ((W.writeNat (2 ^ 58 + 0x1000) 4 0xD5667789).landEntry 6 [.g 8 0x80000001 false] true .data) = true ∧
    afterA (.amin (at1 4 0)) = 0x80000001 ∧ afterA (.amax (at1 4 0)) = 0x55667788 ∧ afterA (.aand (at1 4 0)) = 0 ∧
    afterA (.aor (at1 4 0)) = 0xD5667789 ∧ afterA (.axor (at1 4 0)) = 0xD5667789 ∧ afterA (.axch (at1 4 0)) = 0x55667788 ∧
    (Instr.acas (at1 4 0)).wf = true ∧ afterA (.acas (at1 4 0)) = 0x80000001 ∧
    (let s := W.updMe (fun t => { t with g := t.g.set 8 ⟨0xF80000001, false⟩ })
     (out (exec (.acas (at1 4 0)) s)).natAt (2 ^ 58 + 0x1000) 8 = 0x8000000055667788) ∧
    (Instr.radd { at1 4 1 with d := 0 }).wf = true ∧ (out (exec (.radd { at1 4 1 with d := 0 }) W)).natAt (2 ^ 58 + 0x1000) 8 = 0x91223344D5667789 ∧
    (Instr.rmax { at1 4 1 with d := 0 }).wf = true ∧ (out (exec (.rmax { at1 4 1 with d := 0 }) W)).natAt (2 ^ 58 + 0x1000) 8 = 0x1122334455667788 ∧
    next (exec (.aadd (at1 1 1)) W) ((W.writeNat (2 ^ 58 + 0x400000) 8 0x11223344556689BC).landEntry 12 [.g 8 0x1234 false] true .data) = true ∧
    next (exec (.aadd { at1 4 0 with d := 0 }) W) (W.writeNat (2 ^ 58 + 0x1000) 4 0xD5667789) = true ∧
    next (exec (.aadd (at1 5 0)) W) (W.raise .poison) = true ∧ next (exec (.aadd (at1 6 0)) W) (W.raiseVa .align 0x1001 .atomic 0) = true ∧
    next (exec (.aadd (at1 2 0)) W) (W.raiseVa .accv 0x8000000 .atomic 0) = true ∧ next (exec (.aadd (at1 3 0)) W) (W.raiseVa .accv 0x500000 .atomic 0) = true ∧
    (let s := { W with poison := [(2 ^ 58 + 0x1000) / 8] }
     next (exec (.aadd (at1 4 0)) s) (s.landEntry 6 [.g 8 0x80000001 true] true .data) = true) ∧
    (let t := out (exec (.aadd { at1 4 0 with order := 2, scope := 3 }) W)
     t.mem = W.mem ∧ t.me.wq.map (fun i => (i.id, i.gathered)) = [(0, false)]) ∧
    afterA (.aadd { at1 4 2 with s := 0 }) = 0x80000001 := by decide +kernel

/-- A copy channel operation on g1 to g3 of channel 1 that counts in q2. -/
def x3 (a b c : BitVec 6) : XFields := ⟨a, b, c, 1, 2, 0, 0, 0⟩
/-- g1 = 0x1000, g2 = 0x2000, g3 = 8192, g4 a token list, g5 poisoned, g6 a store with its index and cluster, g7 a count of 3, g8 a misaligned
list, g9 too much. -/
def Cq : State :=
  let s := at_ { strandA with
    g := [(1, ⟨0x1000, false⟩), (2, ⟨0x2000, false⟩), (3, ⟨8192, false⟩), (4, ⟨0x1000000001000, false⟩ ), (5, ⟨9, true⟩), (6, ⟨0x30800, false⟩),
      (7, ⟨3, false⟩), (8, ⟨0x200000001002, false⟩), (9, ⟨0x8000000000000001, false⟩), (10, ⟨0x0000200000001000, false⟩), (11, ⟨0x600100500000, false⟩),
      (12, ⟨0x307FF, false⟩)]
    q := [(3, ⟨255, 0, false⟩)]
    cnest := [(6, ⟨2, 64, 128⟩), (7, ⟨3, 1, 1⟩)] }
  s
def chan1 (i : Instr) : List (Nat × XKind × Nat × Nat) :=
  (((out (exec i Cq)).core 0).chans.get [] 1).map (fun o => (o.id, o.kind, o.total, o.prod))
def traps (i : Instr) (s : State) (c : TrapClass) (va : Nat) : Bool := next (exec i s) (s.raiseAt c ⟨va, 0, 0⟩)

theorem witness_CopyOperations :
    chan1 (.cpy (x3 1 2 3)) = [(10, .copy, 2, 2)] ∧ ((out (exec (.cpy (x3 1 2 3)) Cq)).me.tok 2).outst = 1 ∧
    traps (.cpy (x3 5 2 3)) Cq .poison 0 = true ∧ traps (.cpy (x3 1 2 9)) Cq .illshape 0 = true ∧
    traps (.cpy { x3 1 2 3 with prod := 3 }) Cq .tokovf 0 = true ∧
    chan1 (.cpygo (x3 1 2 7)) = [(10, .copy, 6, 2)] ∧ traps (.cpygo (x3 1 2 0)) Cq .illshape 0 = true ∧ traps (.cpygo (x3 1 2 3)) Cq .illshape 0 = true ∧
    chan1 (.cpyg (x3 1 2 10)) = [(10, .copy, 0, 2)] ∧ chan1 (.cpyg (x3 1 2 4)) = [(10, .copy, 0, 2)] ∧ traps (.cpyg (x3 1 2 9)) Cq .illshape 0 = true ∧
    traps (.cpyg (x3 1 2 8)) Cq .align 0x1002 = true ∧ traps (.cpyg (x3 1 2 11)) Cq .accv 0x500000 = true := by
  decide +kernel

theorem witness_CopyOperations_more :
    chan1 (.drain { x3 4 0 0 with prod := 0 }) = [(10, .drain 4, 0, 0)] ∧ (Instr.drain (x3 4 0 0)).wf = true ∧
    chan1 (.mcw (x3 1 6 7)) = [(10, .mcw, 3, 2)] ∧ traps (.mcw (x3 1 12 7)) Cq .accv 0 = true ∧ traps (.mcw (x3 1 6 0)) Cq .illshape 0 = true ∧
    traps (.mcw (x3 7 6 7)) Cq .align 3 = true := by
  decide +kernel

theorem witness_CopyOperations_unit :
    chan1 (.kvcp (x3 1 2 3)) = [(10, .kvcp, 0, 2)] ∧ chan1 (.kvcp (x3 1 0 9)) = [(10, .kvcp, 0, 2)] ∧
    traps (.kvcp (x3 1 2 9)) Cq .illshape 0 = true ∧ chan1 (.pfxl (x3 1 2 3)) = [(10, .pfxl, 0, 2)] ∧ chan1 (.pfxi (x3 1 2 3)) = [(10, .pfxi, 0, 2)] ∧
    traps (.pfxi (x3 1 2 9)) Cq .illshape 0 = true ∧ (Instr.cpyn { x3 7 2 3 with prod := 5 }).wf = true ∧
    (out (exec (.cpyn { x3 7 2 3 with prod := 5 }) Cq)).me.cnest.get ⟨1, 0, 0⟩ 11 = ⟨3, 0x2000, 8192⟩ ∧ traps (.cpyn (x3 9 2 3)) Cq .illshape 0 = true := by
  decide +kernel

theorem witness_CopyOperations_broadcast :
    (let o : XFields := ⟨4, 0, 0, 0, 0, 0, 0, 0⟩
     let s := Br.setStrand 0 { Br.me with g := L.me.g, vcc := 100, member := 1 }
     (Instr.bcast o).wf = true ∧ (out (exec (.bcast o) s)).bcastAt 1 100 = Br.bcastAt 1 100 ∧
     (let t := s.updMe (fun t => { t with vcc := 101 })
      (out (exec (.bcast o) t)).bcastAt 1 101 = some ⟨101, 1, t.bytesAt (2 ^ 58 + 0x1000) 64, List.replicate 64 false⟩) ∧
     next (exec (.bcast o) L) L = true ∧ traps (.bcast { o with g1 := 5 }) L .poison 0 = true ∧ traps (.bcast { o with g1 := 6 }) L .align 0x1001 = true ∧
     traps (.bcast { o with g1 := 1 }) L .accv 0x1400000 = true) := by decide +kernel

/-- The operands of Cq and Sq meet the conditions of each form of O60, and the form then answers the state that it says. -/
theorem witness_ChannelAndCacheFormsComplete :
    (Cq.me.pois 1 = false ∧ Cq.me.pois 2 = false ∧ Cq.me.pois 3 = false ∧ (Cq.me.tok 2).outst = 0 ∧ (Cq.me.val 3).toNat = 8192 ∧
      (Cq.me.val 7).toNat = 3 ∧ (Cq.me.val 10).toNat < 2 ^ 49 ∧ (Cq.me.val 6).toNat = 0x30800) := by
  decide +kernel

theorem witness_ChannelAndCacheFormsComplete_channel :
    chan1 (.drain (x3 4 0 0)) = [(10, .drain 4, 0, 2)] ∧ chan1 (.cpy (x3 1 2 3)) = [(10, .copy, 2, 2)] ∧
    chan1 (.cpygo (x3 1 2 7)) = [(10, .copy, 6, 2)] ∧ chan1 (.cpyg (x3 1 2 10)) = [(10, .copy, 0, 2)] ∧
    chan1 (.mcw (x3 1 6 7)) = [(10, .mcw, 3, 2)] := by
  decide +kernel

theorem witness_ChannelAndCacheFormsComplete_unit :
    chan1 (.kvcp (x3 1 2 3)) = [(10, .kvcp, 0, 2)] ∧
    chan1 (.pfxl (x3 1 2 3)) = [(10, .pfxl, 0, 2)] ∧ chan1 (.pfxi (x3 1 2 3)) = [(10, .pfxi, 0, 2)] ∧
    next (exec (.cpyn (x3 1 2 3)) Cq) (Cq.setStrand 0 { Cq.me with cnest := Cq.me.cnest.set 8 ⟨0x1000, 0x2000, 8192⟩ }) = true := by
  decide +kernel

theorem witness_ChannelAndCacheFormsComplete_cache :
    (let s := Br.setStrand 0 { Br.me with g := L.me.g, vcc := 101 }
     s.me.braid = some 1 ∧ (s.braids.get? 1).isSome = true ∧
     next (exec (.bcast ⟨4, 0, 0, 0, 0, 0, 0, 0⟩) s) { s with braids := s.braids.set 1 ⟨1, [0, 8], [], none,
       [⟨100, 0, [1, 2, 3], [false, false, false]⟩, ⟨101, 2, s.bytesAt (2 ^ 58 + 0x1000) 64, List.replicate 64 false⟩]⟩ } = true) ∧
    next (exec (.kvad (kv 1)) Sq) (Sq.landEntry 4 [.g 8 0x200010000 false, .p 2 true] true .data) = true ∧
    next (exec (.kvad (kv 2)) Sq)
      ((Sq.landEntry 4 [.g 8 0x2000100C0 false] false (.kvad 0x200001000 1 0 false 2)).enqueue (.order .acqLoad 0 0 0)) = true ∧
    (let s := withJob 1 0 5
     next (exec (.bfq 6 9) s) (((s.nameSeqOf 0 0x200001000).addJob 0 0 0 [] [] 3 0x200001000 77 1 0 5 5).landEntry 4 [.g 9 0 false] true .data) = true) := by
  decide +kernel

/-- A braid of the strands 0 and 8; the strand 8, on core 1, has a SEND to member 0 waiting, of its step 100. -/
def sendOp : NOp := ⟨7, 7, .send, 8, 1, ⟨0, 0, 0, 0, 0⟩, 0, 0, 8, 0, 0, [], 0, 0, 100, [1, 2, 3, 4, 5, 6, 7, 8], List.replicate 8 false, 8, 0, false, none,
  true, false⟩
def Nb : State := { at_ { strandA with
    braid := some 1
    g := [(1, ⟨0x1000, false⟩), (2, ⟨8, false⟩), (3, ⟨6, false⟩), (4, ⟨0x3FFFFC, false⟩), (5, ⟨9, true⟩), (6, ⟨0x1002, false⟩), (7, ⟨2 ^ 32, false⟩),
      (8, ⟨100, false⟩)]
    q := [(3, ⟨255, 0, false⟩)] } with
  braids := [(1, ⟨1, [0, 8], [], none, []⟩)]
  cores := [(1, { Core.idle with nq := [sendOp] })] }
def nx (peer : BitVec 8) (a b c : BitVec 6) : NFields := ⟨peer, a, b, c, 2, 0, 0⟩
def queued (i : Instr) : List (NKind × Nat × Bool) := ((out (exec i Nb)).core 0).nq.map (fun o => (o.kind, o.lat, o.paired))

theorem witness_CommunicationOperations :
    (Instr.recv (nx 1 1 2 0)).wf = true ∧ Nb.peerOf 1 = some 8 ∧ Nb.peerOf 0 = none ∧ Nb.peerOf 7 = none ∧
    queued (.recv (nx 1 1 2 0)) = [(.recv, 8, true)] ∧ ((out (exec (.recv (nx 1 1 2 0)) Nb)).commAt 1 7).map (·.paired) = some true ∧
    ((out (exec (.recv (nx 1 1 2 0)) Nb)).core 0).nq.map (·.data) = [[1, 2, 3, 4, 5, 6, 7, 8]] ∧ (Instr.send (nx 1 1 2 0)).wf = true ∧
    queued (.send (nx 1 1 2 0)) = [(.send, 8, false)] ∧ queued (.recv (nx 7 1 2 0)) = [(.recv, 8, false)] ∧ (Instr.recva (nx 1 1 2 1)).wf = true ∧
    queued (.recva (nx 1 1 2 1)) = [(.recva 1, 8, true)] := by
  decide +kernel

theorem witness_CommunicationOperations_tests :
    traps (.send (nx 1 5 2 0)) Nb .poison 0 = true ∧ traps (.send (nx 1 1 3 0)) Nb .illshape 0 = true ∧
    traps (.send (nx 1 6 2 0)) Nb .align 0x1002 = true ∧ traps (.send (nx 1 4 2 0)) Nb .accv 0x3FFFFC = true ∧
    next (exec (.recv (nx 1 6 2 0)) Nb) (Nb.raiseAt .align ⟨0x1002, 1, 0⟩) = true ∧ traps (.send { nx 1 1 2 0 with prod := 3 }) Nb .tokovf 0 = true ∧
    (Instr.rtr (nx 0 7 2 8)).wf = true ∧ queued (.rtr (nx 0 7 2 8)) = [(.rtr, 8, false)] ∧ queued (.put (nx 0 1 2 8)) = [(.put, 8, false)] ∧
    next (exec (.rtr (nx 0 1 2 8)) Nb) (Nb.raiseAt .accv ⟨0x1000, 1, 0⟩) = true ∧ traps (.put (nx 0 1 0 8)) Nb .illshape 0 = true ∧
    (Instr.cpln (nx 3 1 2 8)).wf = true ∧ queued (.cpln (nx 3 1 2 8)) = [(.cpln 3, 8, false)] ∧ traps (.cpln (nx 3 1 5 8)) Nb .poison 0 = true := by
  decide +kernel

/-- A strand whose q1 counts 3 and that holds numbers for the waits. -/
def Wt : State :=
  let s := at_ { strandA with
    q := [(1, ⟨3, 0, false⟩)]
    g := [(1, ⟨7, false⟩), (2, ⟨0x1000, false⟩), (3, ⟨2 ^ 32, false⟩), (4, ⟨0x1004, false⟩), (5, ⟨9, true⟩), (6, ⟨255, false⟩), (7, ⟨256, false⟩),
      (8, ⟨0x200000040, false⟩), (9, ⟨0x1040, false⟩), (10, ⟨0x200000000, false⟩), (11, ⟨0, false⟩)] }
  let u := { s with tlb := [⟨0, 1, 0x200000000, 65536, 0x10000, true, true⟩] }
  (u.writeNat (2 ^ 58 + 0x1000) 8 7).writeNat 0x10011 1 8
def Hn : State := Wt.updMe (fun t => { t with handler := some ⟨0, 0, 0, none, none, [], ⟨.trap, 0, 0, {}, true⟩⟩ })
def waitsAs (i : Instr) (w : Wait) : Bool :=
  let r := Wt.waitTest i
  !r.1 && decide (r.2 = Wt.updMe (fun t => { t with wait := w }))
def passes (i : Instr) : Bool := decide (Wt.waitTest i = (true, Wt)) && next (exec i Wt) Wt

theorem witness_WaitsAndOrdering :
    [Instr.knot, .waitq 1 0, .sleep 1 0, .waitw 2 1 0 0].all (fun i => dooms i Hn) = true ∧
    next (exec .knot Wt) Wt = true ∧ passes (.waitq 1 3) = true ∧ waitsAs (.waitq 1 2) (.counter 1 2) = true ∧ passes (.sleep 0 0) = true ∧
    waitsAs (.sleep 0 5) (.sleep 5) = true ∧ waitsAs (.sleep 1 5) (.sleep 7) = true ∧ next (exec (.sleep 5 0) Wt) (Wt.raise .poison) = true ∧
    next (exec (.sleep 3 0) Wt) (Wt.raise .illshape) = true ∧ passes (.waitw 2 1 0 0) = true ∧ waitsAs (.waitw 2 1 0 1) (.word (2 ^ 58 + 0x1000) 0x1000 7 1) = true ∧
    passes (.waitw 2 1 0 2) = true ∧ waitsAs (.waitw 2 1 0 3) (.word (2 ^ 58 + 0x1000) 0x1000 7 3) = true ∧
    next (exec (.waitw 5 1 0 0) Wt) (Wt.raise .poison) = true ∧ next (exec (.waitw 4 1 0 0) Wt) (Wt.raiseVa .align 0x1004 .load 0) = true ∧
    next (exec (.setq 4 6 9) Wt) (Wt.updMe (fun t => t.setTok 4 ⟨255, 9, false⟩)) = true ∧ next (exec (.setq 4 7 9) Wt) (Wt.raise .illshape) = true ∧
    next (exec (.setq 4 5 9) Wt) (Wt.raise .poison) = true ∧ next (exec (.setq 0 6 9) Wt) (Wt.updMe (fun t => t)) = true ∧
    (let d := Wt.updMe (fun t => { t with pass := .done })
     d.waitTest (.sleep 0 5) = (true, d) ∧ d.waitTest (.waitw 2 1 0 1) = (true, d)) := by decide +kernel

def queueIs (i : Instr) (q : List WqKind) : Bool := decide ((out (exec i Wt)).me.wq.map (·.what) = q)

theorem witness_WaitsAndOrdering_events :
    next (exec (.fence 0 0) Wt) Wt = true ∧ queueIs (.fence 4 0) [.order .full 4 0 0] = true ∧ queueIs (.fence 3 1) [.order .acq 3 0 0] = true ∧
    queueIs (.fence 5 2) [.order .rel 5 0 0] = true ∧ next (exec (.acqh 11 3) Wt) Wt = true ∧ next (exec (.acqh 5 3) Wt) (Wt.raise .poison) = true ∧
    next (exec (.relh 4 3) Wt) (Wt.raiseVa .align 0x1004 .load 0) = true ∧ next (exec (.relh 9 3) Wt) (Wt.raiseVa .accv 0x1040 .load 0) = true ∧
    (handleOf (leNat (Wt.bytesAt 0x10000 64))).layout = 4 ∧ next (exec (.acqh 10 3) Wt) (Wt.raise .illshape) = true ∧
    (handleOf (leNat (Wt.bytesAt 0x10040 64))).layout = 0 ∧ next (exec (.relh 8 0) Wt) Wt = true ∧
    (out (exec (.relh 8 3) Wt)).me.wq.map (fun i => (i.id, i.gathered)) = [(0, false)] ∧
    ((Wt.reachNow 0x200000040 64 (.loadRow 0 64 0)).2.toOption = some [(0x10040, 64)]) ∧
    ((Wt.reachNow 0x300000040 64 (.loadRow 0 64 0)).2.toOption = none) := by decide +kernel

/-- g1 names a free lock word with ABANDONED set, g2 one that strand 77 holds, g3 one of our own, g4 misaligned, g5 poisoned. -/
def Lk : State :=
  let s := at_ { strandA with
    g := [(1, ⟨0x1000, false⟩), (2, ⟨0x1008, false⟩), (3, ⟨0x1010, false⟩), (4, ⟨0x1004, false⟩), (5, ⟨0, true⟩)] }
  ((s.writeNat (2 ^ 58 + 0x1000) 8 (2 ^ 62 + 5)).writeNat (2 ^ 58 + 0x1008) 8 (2 ^ 63 + 77)).writeNat (2 ^ 58 + 0x1010) 8 (2 ^ 63)

theorem witness_LocksAndUnlocks :
    (let t := out (exec (.lock 1 8 4) Lk)
     t.natAt (2 ^ 58 + 0x1000) 8 = 2 ^ 63 + 2 ^ 62 ∧ t.me.latches.map (·.val) = [.g 8 0x4000000000000005 false] ∧
     (t.lockUnit (2 ^ 58 + 0x1000)).holder = some (0, 1)) ∧
    (out (exec (.lockTry 3 1 8 4) Lk)).me.latches.map (·.val) = [.g 8 0x4000000000000005 false, .p 3 true] ∧
    next (exec (.lockTry 3 2 8 4) Lk) ((Lk.land 1 (.g 8 0x800000000000004D false)).land 1 (.p 3 false)) = true ∧
    (let r := Lk.waitTest (.lock 2 8 4)
     r.1 = false ∧ r.2.me.wait = .lock (2 ^ 58 + 0x1008) ∧ (r.2.lockUnit (2 ^ 58 + 0x1008)).waiters = [⟨0, 10⟩] ∧ r.2.mem = Lk.mem) ∧
    next (exec (.lock 3 8 4) Lk) (Lk.raise .lockself) = true ∧ next (exec (.lockTry 3 3 8 4) Lk) (Lk.raise .lockself) = true ∧
    next (exec (.lock 4 8 4) Lk) (Lk.raiseVa .align 0x1004 .atomic 0) = true ∧ next (exec (.lock 5 8 4) Lk) (Lk.raise .poison) = true ∧
    (let h := Lk.updMe (fun t => { t with handler := Hn.me.handler })
     dooms (.lock 1 8 4) h = true) ∧
    (let s := Lk.updMe (fun t => { t with pass := .lock 9 false })
     next (exec (.lockTry 3 2 8 4) s) ((s.land 1 (.g 8 9 false)).land 1 (.p 3 false)) = true) ∧
    (out (exec (.unlock 3 4) Lk)).me.wq.map (fun i => (i.id, i.what)) = [(0, .write 0x1001010 [(2 ^ 58 + 0x1010, 8)] (.unlock 4))] ∧
    next (exec (.unlock 2 4) Lk) (Lk.raiseVa .accv 0x1008 .atomic 0) = true ∧ next (exec (.unlock 1 4) Lk) (Lk.raiseVa .accv 0x1000 .atomic 0) = true ∧
    (let s := (out (exec (.unlock 3 4) Lk)).updMe (fun t => { t with base := 16 })
     next (exec (.unlock 3 4) s) (s.raiseVa .accv 0x1010 .atomic 0) = true) ∧
    next (exec (.unlock 4 4) Lk) (Lk.raiseVa .align 0x1004 .atomic 0) = true ∧ next (exec (.unlock 5 4) Lk) (Lk.raise .poison) = true := by decide +kernel

/-- Entry 6 of the cluster's store starts at 0x900; g1 spawns it with priority 5; its record counts one task. -/
def Sp : State := { (at_ { strandA with
    g := [(1, ⟨0x5006, false⟩), (2, ⟨99, false⟩), (3, ⟨0x20000, false⟩), (4, ⟨7, false⟩), (5, ⟨9, true⟩), (13, ⟨4, false⟩), (6, ⟨0, false⟩), (7, ⟨65536, false⟩),
      (8, ⟨0x1004, false⟩), (9, ⟨0x1008, false⟩), (10, ⟨2 ^ 32, false⟩), (11, ⟨3, false⟩), (12, ⟨4, false⟩)]
    q := [(3, ⟨255, 0, false⟩)] }).writeNat (ucodeBase 0 0 + 32 * 6) 8 0x80900 with
  records := [(5, ⟨5, 0, 0, false, none, false, false, 0, 1, 0, 0, 0, 0, []⟩)] }

theorem witness_SpawnsCancelsScopes_spawn :
    (Sp.entryAt 0 6).bad = false ∧ (Sp.entryAt 0 7).bad = true ∧ Sp.canSpawn 0 = true ∧ Sp.deadAt 0 3 = false ∧
    (let t := out (exec (.spawnNb 4 1 2) Sp)
     t.me.latches.map (·.val) = [.p 4 true] ∧ (t.task 10).kind = .child ∧ (t.task 10).status = .pool ∧ (t.task 10).prio = 5 ∧
     (State.microOf (t.task 10)).entry = 6 ∧ (State.microOf (t.task 10)).origin = [99, 0, 0, 0, 0, 0] ∧ (13, 4) ∈ (t.task 10).args ∧
     (t.records.get? 5).map (fun r => (r.total, r.spawned)) = some (2, true)) ∧
    (out (exec (.spawnB 4 1 2) Sp)).me.latches.map (·.val) = [.p 4 true] ∧ next (exec (.spawnNb 4 5 2) Sp) (Sp.raise .poison) = true ∧
    next (exec (.spawnNb 4 3 2) Sp) (Sp.raise .illshape) = true ∧ next (exec (.spawnB 4 4 2) Sp) (Sp.raise .illenc) = true ∧
    (let s := { Sp with scopes := [(3, ⟨2, false, true, 0, 0, 0⟩)] }
     s.deadAt 0 3 = true ∧ (out (exec (.spawnNb 4 1 2) s)).me.latches.map (·.val) = [.p 4 false]) ∧
    (let s := Sp.updMe (fun t => { t with handler := Hn.me.handler })
     dooms (.spawnB 4 1 2) s = true) := by decide +kernel

theorem witness_SpawnsCancelsScopes :
    (let t := out (exec (.cancel 11 10 2) Sp)
     (t.scopes.get? 3).map (·.cancelled) = some true ∧ (t.me.tok 2).outst = 1 ∧
     (t.cancels.get? 10).map (fun c => (c.target, c.void, c.word)) = some (3, false, 2 ^ 32)) ∧
    ((out (exec (.cancel 12 6 0) Sp)).cancels.get? 10).map (fun c => (c.target, c.void)) = some (4, true) ∧
    traps (.cancel 5 6 0) Sp .poison 0 = true ∧ traps (.cancel 7 6 0) Sp .illshape 0 = true ∧
    next (exec (.cancel 11 8 0) Sp) (Sp.raiseAt .align ⟨0x1004, 1, 0⟩) = true ∧ next (exec (.cancel 11 9 0) Sp) (Sp.raiseAt .accv ⟨0x1008, 1, 0⟩) = true ∧
    traps (.cancel 6 6 0) Sp .accv 0 = true ∧ traps (.cancel 11 6 3) Sp .tokovf 0 = true ∧
    (let s := { Sp with scopes := [(3, ⟨2, false, false, 0, 9, 0⟩)] }
     traps (.cancel 11 6 0) s .accv 0 = true) ∧
    Sp.freeScope = some 1 ∧
    (let t := out (exec (.scopeOpen 4 8) Sp)
     t.scopes.get? 1 = some ⟨0, false, false, 1, 0, 3⟩ ∧ (t.scopes.get? 3).map (·.live) = some 3 ∧ t.me.opened = 1 ∧
     t.me.lb.map (·.vals) = [[.g 8 1 false, .p 4 true, .scope 1]]) ∧
    (let s := { Sp with scopes := [(3, ⟨2, false, false, 15, 0, 0⟩)] }
     next (exec (.scopeOpen 4 8) s) (s.landEntry 4 [.g 8 0 false, .p 4 false] true .data) = true) ∧
    next (exec .scopeClose Sp) (Sp.raise .accv) = true ∧
    (let s := { Sp.updMe (fun t => { t with opened := 1 }) with scopes := [(2, ⟨1, false, false, 0, 0, 0⟩), (3, ⟨1, false, false, 1, 0, 2⟩)] }
     let t := out (exec .scopeClose s)
     t.me.lb.map (·.vals) = [[.scope 2]] ∧ t.me.opened = 0 ∧ (t.scopes.get? 3).map (·.closed) = some true) := by decide +kernel

/-- A context at record 1 of a graph at 2^33 + 0x100000, with handles at 2^33 + 0x200000: d1 = 5, d2 = d3 = 6, d5 = 3. -/
def ctxG : Ctx := { ctxA with
  walker := { ctxA.walker with
    gbase := 0x200100000, gpc := 0x200100020, htva := 0x200200000
    d := [(1, 5), (2, 6), (3, 6), (5, 3), (7, 65536), (8, 4), (9, 0x102000)] } }
def Gs : State := (paged { A with ctxs := [(0, ctxG)] }).writeNat 0x40000008 8 0x123
def wg : Walker := Gs.wk
def regs (a b : Nat) : GFields := { gf with spec16 := BitVec.ofNat 16 (a + 64 * b) }
def onGs (i : Instr) (t : State) : Bool := next (exec i Gs) t
def wtrap (i : Instr) (s : State) (c : TrapClass) : Bool := next (exec i s) (s.walkerTrap c 0)

theorem witness_GraphControl :
    onGs (.gLoop { regs 1 2 with imm32 := 10 }) (recordOver Gs (withDim wg 1 0) 1) = true ∧
    onGs (.gLoop { regs 1 4 with imm32 := 10 }) (recordOver Gs (withDim wg 1 0) 10) = true ∧
    onGs (.gLoop { regs 1 1 with imm32 := 10 }) (recordOver Gs (withDim wg 1 0) 10) = true ∧
    onGs (.gEndloop { regs 1 2 with imm32 := -3 }) (recordOver Gs (withDim wg 1 6) 1) = true ∧
    onGs (.gEndloop { regs 5 2 with imm32 := -3 }) (recordOver Gs (withDim wg 5 4) (-3)) = true ∧
    (recordOver Gs wg (-3)).wk.gpc = 0x2000FFFC0 ∧ (Instr.gBr { regs 2 3 with spec16 := 0x10C2 }).wf = true ∧
    (let br (cond a b : Nat) : Instr := .gBr { gf with spec16 := BitVec.ofNat 16 (4096 * cond + a + 64 * b), imm32 := 7 }
     onGs (br 0 1 2) (recordOver Gs wg 7) = true ∧ onGs (br 1 2 3) (recordOver Gs wg 7) = true ∧ onGs (br 2 2 3) (recordOver Gs wg 1) = true ∧
     onGs (br 3 1 2) (recordOver Gs wg 7) = true ∧ onGs (br 3 2 3) (recordOver Gs wg 1) = true ∧ onGs (br 4 2 3) (recordOver Gs wg 7) = true) ∧
    onGs (.gCall { gf with imm32 := 7 }) (recordOver Gs { wg with stack := [0x200100040] } 7) = true ∧
    (let s := Gs.updWk (fun w => { w with stack := List.replicate 15 0 })
     wtrap (.gCall gf) s .accv = true) ∧
    (Instr.gSetdim { regs 4 0 with imm32 := -1 }).wf = true ∧
    onGs (.gSetdim { regs 4 0 with imm32 := -1 }) (recordOver Gs (withDim wg 4 0xFFFFFFFF) 1) = true ∧
    onGs (.gSetdim { regs 4 1 with imm32 := -1, flags := 1 }) (recordOver Gs (withDim wg 4 4) 1) = true ∧
    onGs (.gSetdim { regs 4 0 with imm32 := 1, flags := 2, spec64 := 0x200000008 }) (recordOver Gs (withDim wg 4 0x124) 1) = true ∧
    wtrap (.gSetdim { regs 4 0 with flags := 2, spec64 := 0x200000009 }) Gs .align = true ∧
    wtrap (.gSetdim { regs 4 0 with flags := 2, spec64 := 0x300000000 }) Gs .pgflt = true := by decide +kernel

/-- The same with an operator record of the context left, and the join counter 2 at 1. -/
def Gw : State := { Gs.updWk (fun w => { w with j := [(2, 1)] }) with records := [(5, ⟨5, 0, 0, false, none, false, false, 0x200004000, 1, 0, 0, 0, 0, []⟩)] }

theorem witness_GraphControl_waits :
    onGs (.gJoin gf) (recordOver Gs wg 1) = true ∧ next (exec (.gJoin gf) Gw) (recordWaits Gw .record) = true ∧
    next (exec (.gJoin { gf with imm32 := 4 }) Gw) (recordWaits Gw .record) = true ∧
    next (exec (.gJoin { gf with imm32 := 2 }) Gw) (recordOver Gw Gw.wk 1) = true ∧ wtrap (.gRet { gf with spec64 := 4 }) Gs .align = true ∧
    (let s := Gw.updWk (fun w => { w with stack := [0x200100080] })
     next (exec (.gRet gf) s) (recordOver s { s.wk with stack := [], gpc := 0x200100080 } 0) = true) ∧
    next (exec (.gRet gf) Gw) (recordWaits Gw .record) = true ∧ wtrap (.gRet { gf with spec64 := 0x300000000 }) Gs .pgflt = true ∧
    (let t := out (exec (.gRet { gf with spec64 := 0x200000010, imm32 := 9 }) Gs)
     (t.ctx 0).state = 0 ∧ t.natAt 0x40000010 8 = 9 ∧ t.scopes.get? 3 = none ∧ t.tasks = Gs.tasks) ∧
    onGs (.gYield { gf with imm32 := 2 }) (recordWaits Gs (.timer 2400)) = true ∧ wtrap (.gYield { gf with flags := 1, spec64 := 4 }) Gs .align = true ∧
    wtrap (.gYield { gf with flags := 1, spec64 := 0x300000000 }) Gs .pgflt = true ∧ (Instr.gYield { regs 4 0 with flags := 1 }).wf = true ∧
    onGs (.gYield { regs 4 0 with flags := 1, spec64 := 0x200000000 }) (recordWaits Gs (.bell 0x200000000 4)) = true ∧
    onGs (.gYield { regs 4 0 with flags := 1, spec64 := 0x200000008 }) (recordOver Gs (withDim wg 4 0x123) 1) = true := by decide +kernel

theorem witness_GraphScopesAndCancels :
    (let s := { Gs with scopes := [] }
     wtrap (.gScopeOpen gf) s .accv = true ∧ wtrap (.gScopeClose gf) s .accv = true) ∧
    wtrap (.gScopeClose gf) Gs .accv = true ∧
    (let s := { Gs with scopes := [(3, ⟨2, false, false, 15, 0, 0⟩)] }
     wtrap (.gScopeOpen gf) s .accv = true) ∧
    Gs.freeScope = some 1 ∧
    (let t := out (exec (.gScopeOpen { regs 6 0 with flags := 2 }) Gs)
     t.wk.wscope = 1 ∧ t.wk.wopen = 1 ∧ dimOf t 6 = 1 ∧ t.wk.gpc = 0x200100040 ∧ t.scopes.get? 1 = some ⟨0, false, false, 1, 0, 3⟩ ∧
     (t.scopes.get? 3).map (·.live) = some 3) ∧
    (let s := { Gs.updWk (fun w => { w with wopen := 1, wscope := 4 }) with scopes := [(3, ⟨2, false, false, 0, 0, 0⟩), (4, ⟨1, false, false, 1, 0, 3⟩)] }
     let t := out (exec (.gScopeClose gf) s)
     t.wk.wscope = 3 ∧ t.wk.wopen = 0 ∧ t.scopes.get? 4 = some ⟨1, true, false, 1, 0, 3⟩) ∧
    (let s := { Gs.updWk (fun w => { w with wopen := 1, wscope := 4 }) with scopes := [(3, ⟨2, false, false, 0, 0, 0⟩), (4, ⟨0, false, false, 1, 0, 3⟩)] }
     let t := out (exec (.gScopeClose gf) s)
     t.scopes.get? 4 = none ∧ (t.scopes.get? 3).map (·.live) = some 1) := by decide +kernel

theorem witness_GraphScopesAndCancels_cancel :
    wtrap (.gCancel (regs 7 0)) Gs .illshape = true ∧ wtrap (.gCancel { regs 3 0 with spec64 := 4 }) Gs .align = true ∧
    wtrap (.gCancel { regs 3 0 with spec64 := 8 }) Gs .accv = true ∧ wtrap (.gCancel (regs 4 0)) Gs .accv = true ∧
    (let s := { Gs with scopes := [(6, ⟨2, false, false, 0, 9, 0⟩)] }
     wtrap (.gCancel (regs 3 0)) s .accv = true) ∧
    (let s := { Gs with scopes := [(6, ⟨2, false, false, 0, 0, 0⟩)] }
     let t := out (exec (.gCancel { regs 3 0 with flags := 1 }) s)
     (t.scopes.get? 6).map (·.cancelled) = some true ∧ (t.ctx 0).wait = .quiescent 10 ∧ (t.cancels.get? 10).map (·.target) = some 6 ∧
     (out (exec (.gCancel (regs 3 0)) s)).wk.gpc = 0x200100040) := by decide +kernel

theorem witness_GraphRegionsAndHandles :
    (let r : GFields := { regs 6 0 with entry := 2, imm32 := 4097 }
     (Instr.gAlloc r).wf = true ∧ (Gs.cluster 2).allocWait = [] ∧
     (let s := Gs.writeNat (2 ^ 58 + 16 * 2 ^ 22 + 0x1FF8) 8 9
      let t := out (exec (.gAlloc r) s)
      dimOf t 6 = 2 ^ 20 + 2 * 2 ^ 13 ∧ (t.cluster 2).regions.used = [(1, 0)] ∧ (t.cluster 2).owners = [(0x104000, 0)] ∧
      t.natAt (2 ^ 58 + 16 * 2 ^ 22 + 0x1FF8) 8 = 0) ∧
     wtrap (.gAlloc { r with entry := 80 }) Gs .accv = true ∧ wtrap (.gAlloc { r with imm32 := 0 }) Gs .illshape = true ∧
     wtrap (.gAlloc { r with imm32 := 0x400001 }) Gs .illshape = true ∧
     (let s := { Gs with clusters := [(2, { Cluster.idle with regions := ⟨[(0, 5)], []⟩ })] }
      next (exec (.gAlloc { r with flags := 1 }) s) (recordOver s (withDim wg 6 0) 1) = true ∧
      (out (exec (.gAlloc r) s)).clusters.map (fun c => c.2.allocWait) = [[(0, 1)]] ∧ ((out (exec (.gAlloc r) s)).ctx 0).wait = .alloc)) ∧
    (let used := { Gs with clusters := [(1, { Cluster.idle with regions := ⟨[(0, 1)], [(0, 0)]⟩, owners := [(0x102000, 0)] })] }
     let t := out (exec (.gFree (regs 9 0)) used)
     used.regionNamed 0x102000 = false ∧ (t.cluster 1).regions = ⟨[(1, 0)], []⟩ ∧ (t.cluster 1).owners = [] ∧
     wtrap (.gFree (regs 9 0)) Gs .accv = true ∧ wtrap (.gFree (regs 3 0)) used .accv = true ∧
     (let held := { used with tasks := [(1, { taskA with boxes := [⟨1, 2 ^ 64 + 0x102000, 0, 1, true, false⟩] })] }
      next (exec (.gFree (regs 9 0)) held) (recordWaits held .rewrite) = true)) := by decide +kernel

/-- A template in the attribute pool at 16: base 0x1234, FP32, rank 1, layout 0, one dimension of 4; the descriptor 2 is valid with
base 0x5000. A malformed one, of rank 0, lies at 32. -/
def tmpl : Nat := 0x1234 + 2 ^ 130 + 2 ^ 134 + 4 * 2 ^ 152
def Gt : State := (((Gs.writeNat 0x40100080 64 tmpl).writeNat 0x40200080 64 (0x5000 + 2 ^ 128)).writeNat 0x40100100 64 0x1234).writeNat 0x402000C0 64
  (2 ^ 64 + 2 ^ 128)

theorem witness_GraphRegionsAndHandles_descriptors :
    (let r : GFields := { gf with attr := 16, h0 := 1 }
     (Gt.attrWord 16 64).toOption = some tmpl ∧ templateFault tmpl = none ∧ (Gt.vplaces 0x100000 .store [(0x200200040, 64)]).toOption = some [(0x40200040, 64)] ∧
     (out (exec (.gTensor r) Gt)).natAt 0x40200040 64 = tmpl + 2 ^ 128 ∧ (out (exec (.gTensor { r with flags := 1, spec16 := 1 }) Gt)).natAt 0x40200040 8 = 5 ∧
     (Instr.gView { r with h1 := 2, imm32 := -0x1000 }).wf = true ∧
     (out (exec (.gView { r with h1 := 2, imm32 := -0x1000 }) Gt)).natAt 0x40200040 8 = 0x4000 ∧
     next (exec (.gTensor { r with attr := 32 }) Gt) (Gt.walkerTrap .illshape 0) = true ∧ wtrap (.gView { r with h1 := 4 }) Gt .illenc = true ∧
     next (exec (.gTensor { r with h0 := 3 }) Gt) (recordWaits Gt .rewrite) = true ∧
     next (exec (.gView { r with h0 := 3, h1 := 2 }) Gt) (recordWaits Gt .rewrite) = true ∧
     (let s := Gt.writeNat 0x40200080 64 (0x5000 + 2 ^ 128 + 2 ^ 129)
      wtrap (.gView { r with h1 := 2, imm32 := 1 }) s .illshape = true ∧
      (out (exec (.gView { r with h1 := 2 }) s)).natAt 0x40200040 8 = 0x5000)) ∧
    (let r : GFields := { gf with attr := 64, imm32 := 1 }
     let s := Gs.writeNat 0x40100200 24 (0x4010040100401 + 1 * 2 ^ 50 + 2 ^ 64 * 2 ^ 16)
     (s.attrWord 64 24).toOption = some (0x4010040100401 + 1 * 2 ^ 50 + 2 ^ 64 * 2 ^ 16) ∧
     (out (exec (.gShard r) s)).wk.mesh.map BitVec.toNat = [0x4010040100401 + 1 * 2 ^ 50, 2 ^ 16, 0] ∧
     wtrap (.gShard { r with imm32 := 0 }) s .illshape = true ∧ wtrap (.gShard { r with imm32 := 2048 }) s .illshape = true ∧
     wtrap (.gShard r) Gs .illshape = true ∧
     (let u := s.writeNat 0x40100208 2 1
      wtrap (.gShard r) u .accv = true) ∧
     (let u := { s with records := Gw.records }
      next (exec (.gShard r) u) (recordWaits u .record) = true)) := by decide +kernel

/-- Operator entry 6 with a grid along its output h0, in tiles of 3; the handle 1 is a vector of 4; the cluster mask at 16 holds the
clusters 1 and 2. -/
def Go : State := (((Gs.writeNat (ucodeBase 0 0 + 32 * 6) 32 (0x900 + 2 ^ 19 + 2 ^ 20 + 32 * 2 ^ 36 + 3 * 2 ^ 64)).writeNat 0x40200040 64
  (tmpl + 2 ^ 128)).writeNat 0x40100080 16 6)
def opR : GFields := { gf with entry := 6, h0 := 1, attr := 16, sched := 5 }
def Go1 : State := out (exec (.gOp opR) Go)

theorem witness_GraphOperators :
    coordsOf 5 [2, 3] = [1, 2] ∧ coordsOf 0 [2, 3] = [0, 0] ∧
    ((Go.partOf opR).toOption.map (fun p => (p.dims, p.tiles))) = some ([4, 1, 1, 1, 1, 1], [3, 1, 1, 1, 1, 1]) ∧
    (Go.clusterSet opR).toOption = some [1, 2] ∧ (Go.partsOf [opR]).toOption.map (fun ps => Go.groupBad ps [1, 2]) = some none ∧
    Go.deadAt 88 3 = false ∧ (Go.chainRest Go.wk.gpc 0).toOption = some [] ∧
    (let x := Go1.task 11
     x.kind = .op ∧ x.status = .pool ∧ x.cluster = 1 ∧ x.record = 10 ∧ x.ordinal = 0 ∧ x.prio = 5 ∧ (State.microOf x).origin = [0, 0, 0, 0, 0, 0] ∧
     (State.microOf x).extent = [3, 1, 1, 1, 1, 1] ∧ (State.microOf x).recIdx = 1) ∧
    (Go1.ctx 0).issued = 10 ∧ (Go1.ctx 0).progress = 1 ∧ Go1.wk.gpc = 0x200100020 ∧
    (let t := out (exec (.gOp opR) Go1)
     let x := t.task 12
     x.cluster = 2 ∧ x.ordinal = 1 ∧ (State.microOf x).origin = [3, 0, 0, 0, 0, 0] ∧ (State.microOf x).extent = [1, 1, 1, 1, 1, 1] ∧
     t.wk.gpc = 0x200100040 ∧ (t.ctx 0).issued = 0) := by decide +kernel

theorem witness_GraphOperators_rest :
    (let t := out (exec (.gSpawn { opR with spec16 := 0x2000 }) Go)
     t.wk.j.get 0 2 = 1) ∧
    (let s := Go.updWk (fun w => { w with j := [(2, 65535)] })
     next (exec (.gSpawn { opR with spec16 := 0x2000 }) s) (recordWaits s .record) = true) ∧
    (let s := { Go with scopes := [(3, ⟨2, false, true, 0, 0, 0⟩)] }
     s.deadAt 88 3 = true ∧ (out (exec (.gOp opR) s)).wk.gpc = 0x200100040) ∧
    (let s := Go.writeNat 0x40200053 3 0
     (out (exec (.gOp opR) s)).wk.gpc = 0x200100040 ∧ (out (exec (.gOp opR) s)).records = []) ∧
    next (exec (.gOp { opR with entry := 7 }) Go) (Go.walkerTrap .illenc 7) = true ∧
    next (exec (.gOp { opR with mode := 2 }) Go) (Go.walkerTrap .illenc 6) = true := by decide +kernel

/-- A chained record that would lie before GBASE is past the end of every program. -/
theorem witness_GraphOperators_past :
    let s := Go.updWk (fun w => { w with gbase := 0x200100060 })
    s.deadAt 88 s.wk.wscope = false ∧
      (Config.programRecords s.wk.gbase).toNat ≤ (((s.wk.gpc : Int) + 32 - s.wk.gbase) % 2 ^ 64).toNat / 32 :=
  ⟨by decide +kernel, Nat.le_trans (Nat.le_of_lt (BitVec.isLt _)) (by decide +kernel)⟩

/-- A mesh with two stage modules and a stage queue of one place, and an output that is split over the stage axis. -/
def St : State := (Go.updWk (fun w => { w with mesh := [1 + 2 ^ 10 + 2 * 2 ^ 20 + 2 ^ 30 + 2 ^ 40 + 2 ^ 50, 0, 3] }))

/-- The sequence of Sq, with two layers, its position 3 EMPTY at CUR, EXREQ set, and EXITS at 2^33 + 0x3000; the table at 2^33 + 0x4000
names it alone, and the grid handle 1 has one row. -/
def seq2 (st : Nat) : State :=
  let s := ((((((Gs.writeNat 0x40001000 8 (0x0100010100000003 + st)).writeNat 0x40001008 8 320).writeNat 0x40001010 8 0x200002000).writeNat
    0x40001018 8 0x200003000).writeNat 0x40001020 8 64).writeNat 0x40001040 16 (0x200010000 + 2 ^ 64 * 32 + 2 ^ 96 * 320)).writeNat 0x40002000 8 0x300000003
  let u := (s.writeNat 0x40004000 8 0x200001000).writeNat 0x40200040 64 (0x9000 + 2 ^ 128 + 2 ^ 130 + 2 ^ 134 + 2 ^ 152)
  { u with dev := (u.dev.set 0x400 0x200010000).set 0x408 1 }
def Ex : State := seq2 (2 ^ 62)
def exR : GFields := { gf with h0 := 1, spec64 := 0x200004000, entry := 6, sched := 7 }
def exited (s : State) : Nat × Nat := (s.natAt 0x40001000 8 / 2 ^ 62, s.natAt 0x40003006 2)

theorem witness_GraphExits :
    ((Ex.namedHandle 1).toOption.map (fun h => h.sizes Ex.wk.d) = some [1]) ∧ ((Ex.seqEntry 0x200004000 0).toOption.map (fun x => (x.1, x.2.layers, x.2.exreq))) =
      some (0x200001000, 2, true) ∧
    (let t := out (exec (.gExitTest exR) Ex)
     exited t = (2, 0) ∧ t.backfill = [(0, [10])] ∧ (t.task 10).prio = 7 ∧ (t.task 10).seq = some ⟨0x200001000, 1, 1, 3, false⟩ ∧
     t.natAt 0x40002004 4 = 4 ∧ t.natAt (0x40010000 + 3 * 320 + 256) 8 = 8 ∧ t.wk.gpc = 0x200100040) ∧
    (let t := out (exec (.gExitTest { exR with spec16 := 1 }) Ex)
     exited t = (2, 5) ∧ t.backfill = [] ∧ (t.ctx 0).seqs = [0x200001000]) ∧
    (let t := out (exec (.gExitTest { exR with imm32 := 5 }) (seq2 0))
     t.mem = (seq2 0).mem ∧ (t.ctx 0).seqs = [0x200001000] ∧ t.wk.gpc = 0x200100040) ∧
    (out (exec (.gExitTest { exR with imm32 := 5 }) (seq2 (2 ^ 63)))).wk.gpc = 0x2001000C0 ∧
    (let s := (seq2 (2 ^ 63)).writeNat 0x40002000 8 0x700000005
     let t := out (exec (.gExitAdv exR) s)
     t.natAt 0x40001000 4 = 5 ∧ exited t = (0, 0) ∧ t.wk.gpc = 0x200100040) ∧
    next (exec (.gExitTest { exR with h0 := 9 }) Ex) (Ex.walkerTrap .illenc 6) = true ∧
    (let s := { Ex with records := Gw.records }
     next (exec (.gExitTest exR) s) (recordWaits s .record) = true) ∧
    (let s := Ex.writeNat 0x40200053 1 0
     (out (exec (.gExitAdv exR) s)).wk.gpc = 0x200100040) := by decide +kernel

theorem witness_WordsRoundTrip :
    (let i : Instr := .ld ⟨63, 63, 0xFFFF, 6, 0, ⟨0, true⟩, false⟩
     i.wf = true ∧ i.isRecord = false ∧ i.slot? = some .l ∧ decodeSlot .l (encodeWord i) = some i) ∧
    (let r : Instr := .gOp { gf with chain := 15, entry := 0xFFF, h5 := 0xFFF, imm32 := 0, spec64 := 0 }
     r.wf = true ∧ r.isRecord = true ∧ decodeG (encodeWord r) = some r) := by decide +kernel

theorem witness_DecodedWordsAreCanonical :
    decodeSlot .s 0x00050001C821 = some (.addi ⟨0, false⟩ false 8 7 5) ∧ encodeWord (.addi ⟨0, false⟩ false 8 7 5) = 0x00050001C821 ∧
    decodeG (encodeWord (.gJoin { gf with imm32 := 3 })) = some (.gJoin { gf with imm32 := 3 }) ∧
    decodeBundle (bundleOfSlot .s 0x00050001C821 0) = .ok [(.s, .addi ⟨0, false⟩ false 8 7 5)] ∧
    slotPresent (bundleOfSlot .s 0x00050001C821 0) .c = false := by decide +kernel

/-- The machine after reset with an ADDI placed where it is fetched next. -/
def R1 : State := State.reset.withFetchWord 48 0x00050001C821
def R1s : State := { R1 with agenda := [] }

theorem witness_StepRunsDecodedInstruction :
    R1.service.removed = false ∧ R1.agenda = [.strand 0] ∧ (R1.strand 0).braid = none ∧ (R1.strand 0).trap = none ∧ (R1.strand 0).wait.idle = false ∧
    R1s.mayRun 0 = true ∧ ((R1s.transfers 0).prepare 0).2 = .go (bundleOfSlot .s 0x00050001C821 0) [(.s, .addi ⟨0, false⟩ false 8 7 5)] ∧
    (let s1 := ((R1s.transfers 0).prepare 0).1
     let s2 := s1.openBundle (0, .go (bundleOfSlot .s 0x00050001C821 0) [(.s, .addi ⟨0, false⟩ false 8 7 5)])
     let s4 : State := { s2 with cur := 0, slot := 0 }
     (s1.strand 0).mpc ≠ 0 ∧ (s1.strand 0).wait.idle = false ∧ next (step R1) ((out (exec (.addi ⟨0, false⟩ false 8 7 5) s4)).closeGang 0 [0]) = true) ∧
    (out (step R1)).me.mpc = 0x801 ∧ (out (step R1)).me.vcc = 1 ∧ (out (step R1)).me.latches.map (fun l => (l.due, l.val)) = [(1, .g 8 5 false)] ∧
    (let h := { R1s with strands := [(0, { R1s.me with replay := some ⟨bundleOfSlot .s 0x00050001C821 0, 0x1FF⟩ })] }
     (h.prepare 0).2 = .go (bundleOfSlot .s 0x00050001C821 0) [(.s, .addi ⟨0, false⟩ false 8 7 5)]) := by decide +kernel

theorem witness_StepRunsDecodedInstruction_records :
    (let s : State := { Gs with agenda := [.walker 0], mem := (Gs.writeNat 0x40100020 32 (encodeWord (.gJoin gf))).mem }
     let s1 : State := { s with agenda := [], curCtx := 0 }
     (s.ctx 0).state = 1 ∧ (s.ctx 0).leaving = false ∧ s1.wk.gpc % 32 = 0 ∧ (s1.wread s1.wk.gpc 32).toOption.bind decodeG = some (.gJoin gf) ∧
     next (step s) (recordOver s1 s1.wk 1) = true) ∧
    (let s : State := { Gs with agenda := [.walker 0] }
     next (step s) ({ Gs with agenda := [] }.walkerTrap .illenc 0) = true) ∧
    (let s : State := { Gs.updWk (fun w => { w with gpc := w.gpc + 8 }) with agenda := [.walker 0] }
     next (step s) ({ s with agenda := [] }.walkerTrap .align 0) = true) ∧
    (let s : State := { Gs.updWk (fun w => { w with gpc := 0x300000000 }) with agenda := [.walker 0] }
     next (step s) ({ s with agenda := [] }.walkerTrap .pgflt 0) = true) ∧
    (let s : State := { Wt.updMe (fun t => { t with wait := .stall }) with agenda := [.event (.groupStart 0)] }
     (Instr.groupStart 0).isEvent = true ∧ (out (step s)).agenda = [.strand 0]) := by decide +kernel

theorem witness_FalseGuardsDoNothing :
    (usesOf A.me (.addi no false 8 7 5)).guard = some no ∧ A.me.guard no = false ∧ next (exec (.addi no false 8 7 5) A) A = true ∧
    (usesOf A.me (.stv ⟨8, 4, 0, 0, 0, no, true⟩)).guard = some no ∧ next (exec (.stv ⟨8, 4, 0, 0, 0, no, true⟩) A) A = true := by decide +kernel

theorem witness_RegistersAndMemory :
    Memory.wf A.mem = true ∧ ((A.write 0x10 [1, 0, 3, 4, 5, 6, 7, 8] [false, true]).bytesAt 0xF 4 = [0, 1, 0, 3]) ∧
    (A.write 0x10 [1, 0, 3, 4, 5, 6, 7, 8] [false, true]).poison = [2] ∧
    (({ A with poison := [2, 3] } : State).write 0x10 [1, 0, 3, 4, 5, 6, 7, 8, 9] []).poison = [3] ∧
    (A.writeNat 0x20 4 0x1_0000_0102).natAt 0x20 4 = 0x102 ∧ A.me.reg 0 = ⟨0, false⟩ ∧ (A.me.setReg 9 4 true).reg 9 = ⟨4, true⟩ := by decide +kernel

/-- Results for g8 due at 99, 100 and 101, the middle one twice, one frozen, and an entry whose data is late. -/
def Ld : State := A.updMe (fun t => { t with
  latches := [⟨3, 0, 100, false, .g 8 30 false⟩, ⟨2, 0, 100, false, .g 8 20 false⟩, ⟨1, 0, 99, false, .g 8 10 false⟩, ⟨4, 0, 101, false, .g 8 40 false⟩,
    ⟨5, 0, 100, true, .g 9 50 false⟩, ⟨6, 0, 100, false, .p 3 true⟩]
  lb := [⟨7, 100, [.g 10 70 true], true, false, .data, []⟩, ⟨8, 100, [.g 11 80 false], false, false, .data, []⟩]
  nestUpd := [⟨2, false, 4⟩] })

theorem witness_LandingsTakeEffect :
    (let u := (Ld.deliver 0).strand 0
     u.reg 8 = ⟨30, false⟩ ∧ u.reg 9 = ⟨0, false⟩ ∧ u.reg 10 = ⟨70, true⟩ ∧ u.reg 11 = ⟨0, false⟩ ∧ u.pred 3 = true ∧ u.latches.map (·.id) = [4, 5] ∧
     u.lb.map (·.id) = [8]) ∧
    ((Ld.applyNest 0).strand 0).reg 2 = ⟨9, false⟩ := by decide +kernel

theorem witness_StepKeepsMemoryCanonical :
    Memory.wf R1.mem = true ∧ goes (step R1) = true ∧ Memory.wf (out (step R1)).mem = true := by decide +kernel

/-- The device's own tables in control core 0's space: save areas at 2^33 and the report ring at 2^33 + 2^20. -/
def Tp : State := { paged A with
  ctrl := [(0, (1, 0x100000))]
  dev := (A.dev.set 0x508 0x200000000).set 0x510 0x20010000A }

theorem witness_TakingATrap :
    isCtrl Tp.cur = false ∧ Tp.me.handler = none ∧ Tp.me.braid = none ∧ (Tp.task 1).kind = .op ∧ Tp.frqFull = false ∧ Tp.sysPa 0x200000000 .store = some 0x40000000 ∧
    (let u := Tp.raiseAt .align ⟨0x1001, 1, 0⟩
     u.me.trap = some ⟨.align, 0, 0, ⟨0x1001, 1, 0⟩, true⟩ ∧ u.me.replay = some ⟨0, 0x1FF⟩ ∧ u.me.trapRec = 0x200000000 ∧ u.devReg 0x518 = 1 ∧
     u.natAt 0x40000000 128 = Tp.trapRecord 0 Tp.me ⟨.align, 0, 0, ⟨0x1001, 1, 0⟩, true⟩ 0x1FF 0 ∧
     fieldN (u.natAt 0x40000000 128) 48 8 = 8 ∧ fieldN (u.natAt 0x40000000 128) 192 16 = 0x900 ∧ fieldN (u.natAt 0x40000000 128) 448 57 = 0x1001 ∧
     fieldN (u.natAt 0x40100000 32) 48 8 = 8) ∧
    (let u := out (exec (.trap yes 7) Tp)
     u.me.trap = some ⟨.trap, 7, 0, {}, true⟩ ∧ u.me.replay = some ⟨0, 0x3FF⟩) ∧
    next (exec (.trap no 7) Tp) Tp = true ∧
    (let s := { Tp with dev := Tp.dev.set 0x518 1024 }
     s.frqFull = true ∧ (s.raiseAt .accv {}).frqHeld.map (·.kind) = [0]) ∧
    (let s := { Tp.raiseAt .align {} with slot := 5 }
     (s.raiseAt .accv {}).me.trap = some ⟨.align, 0, 0, {}, true⟩ ∧ (s.raiseAt .accv {}).me.replay = some ⟨0, 0x1EF⟩) ∧
    (let s := { { Tp with slot := 5 }.raiseAt .align {} with slot := 2 }
     (s.raiseAt .accv {}).me.trap = some ⟨.accv, 0, 2, {}, true⟩) ∧
    (let s := { Tp.updMe (fun t => { t with handler := Hn.me.handler }) with slot := 5 }
     let d := s.raiseAt .accv {}
     d = { s with doomed := [⟨1, 0, .accv, some 5⟩] } ∧ ({ d with slot := 2 }.raiseAt .align {}).doomed = [⟨1, 0, .align, some 2⟩] ∧
     ({ d with slot := 7 }.raiseAt .align {}).doomed = [⟨1, 0, .accv, some 5⟩] ∧ d.reap.tasks = [] ∧ d.reap.devReg 0x518 = 1) ∧
    (let s := { Tp.updMe (fun t => { t with xlat := [accL 0x300000000] }) with slot := 8 }
     let u := s.raiseAt .align {}
     u.me.trap = some ⟨.align, 0, 8, {}, false⟩ ∧ u.me.replay = some ⟨0, 0x3FD⟩ ∧ u.frqHeld = [] ∧ u.devReg 0x518 = 0) := by decide +kernel

def waiting (w : Wait) : State := A.updMe (fun t => { t with wait := w })

theorem witness_WaitsEnd :
    [Wait.stall, .late, .queueFull, .counter 1 2].all (fun w => decide ((out (exec (.groupStart 0) (waiting w))).agenda = [.strand 0])) = true ∧
    [Instr.groupStart 0, .sleepExpire 0, .wordWaitRecheck 0].all (fun i => next (exec i A) A) = true ∧
    (out (exec (.sleepExpire 0) (waiting (.sleep 0)))).me.pass = .done ∧ next (exec (.sleepExpire 0) (waiting (.sleep 1))) (waiting (.sleep 1)) = true ∧
    (out (exec (.wordWaitRecheck 0) (waiting (.word 0 0 0 0)))).me.pass = .done ∧
    next (exec (.wordWaitRecheck 0) (waiting (.word 0 0 0 1))) (waiting (.word 0 0 0 1)) = true ∧
    (let k := { waiting .knot with
       strands := [(0, { strandA with braid := some 1, wait := .knot }), (8, { strandA with braid := some 1, wait := .knot })]
       braids := [(1, ⟨1, [0, 8], [], none, []⟩)] }
     let d := k.setDepart 0
     d.braids.get? 1 = some ⟨1, [0, 8], [], some 102, []⟩ ∧ next (exec (.knotDepart 1) k) k = true ∧ (out (exec (.knotDepart 1) d)).agenda = [.braid 1] ∧
     d.departKnot 0 = d ∧ (({ d with braids := [(1, ⟨1, [0, 8], [], some 100, []⟩)] } : State).departKnot 0).strands.map (fun e => (e.2.wait, e.2.pass)) =
       [(.none, .done), (.none, .done)]) ∧
    (let f := waiting (.fill 0x120)
     f.poisonIn (ucodeBase 0 0 + 512 * 0x120) 512 = false ∧ ((out (exec (.controlStoreFill 0 0x120) f)).core 0).cs.map (·.1) = [0x120] ∧
     (out (exec (.controlStoreFill 0 0x120) f)).me.wait = .none) := by decide +kernel

theorem witness_WaitsEnd_grants :
    (let x := (waiting .xlat).updMe (fun t => { t with xlat := [⟨0x300000000, 8, 5, .load 8 (loadForm 3) 104 false false, true⟩] })
     x.tlbHit 0 1 0x300000000 = none ∧ x.walk 0 0x300000000 .load = .fail .pgflt 5 ∧
     (out (exec (.translationResolve 0) x)).me.trap = some ⟨.pgflt, 0, 5, ⟨0x300000000, 0, 5⟩, true⟩) ∧
    (let x := L.updMe (fun t => { t with wait := .xlat, xlat := [accL 0x200000040] })
     (out (exec (.translationResolve 0) x)).me.mpc = 0x901 ∧ (out (exec (.translationResolve 0) x)).me.lb.map (·.vals) = [[.g 8 0x5678 false]]) ∧
    (let l := { (waiting (.lock 0x2000)).writeNat 0x2000 8 (2 ^ 62) with locks := [(0x2000, ⟨none, none, [⟨0, 7⟩], true⟩)] }
     let u := out (exec (.lockGrant 0x2000) l)
     u.natAt 0x2000 8 = 2 ^ 63 + 2 ^ 62 ∧ u.me.pass = .lock (2 ^ 62) true ∧ (u.lockUnit 0x2000).holder = some (0, 1) ∧ (u.lockUnit 0x2000).waiters = []) ∧
    (out (exec .emptyBundle A)).me.mpc = 0x901 ∧ (out (exec .emptyBundle A)).me.vcc = 101 := by decide +kernel

theorem witness_HeldAccessesPerform :
    (let e (r : LbReq) : State := A.updMe (fun t => { t with lb := [⟨7, 104, [.g 8 5 false], false, false, r, []⟩] })
     (out (exec (.landingDataArrive 0 7) (e .data))).me.lb.map (fun x => (x.vals, x.arrived)) = [([.g 8 5 false], true)] ∧
     next (exec (.landingDataArrive 0 7) (e .queued)) (e .queued) = true ∧
     (let h := (e (.held ⟨0x2000, 8, 5, .load 8 ⟨8, false⟩ 104 false false, false⟩ [(0x2000, 8)])).writeNat 0x2000 8 9
      (out (exec (.landingDataArrive 0 7) h)).me.lb.map (·.vals) = [[.g 8 9 false]] ∧
      (let f := h.updMe (fun t => { t with wq := [⟨3, .order .full 4 0 0, false⟩] })
       next (exec (.landingDataArrive 0 7) f) f = true))) ∧
    (let k := Sq.updMe (fun t => { t with lb := [⟨7, 104, [.g 8 5 false], false, false, .kvad 0x200001000 1 0 false 2, []⟩] })
     next (exec (.landingDataArrive 0 7) k) k = true ∧
     (out (exec (.landingDataArrive 0 7) (k.writeNat 0x40010140 8 1))).me.lb.map (·.vals) = [[.g 8 5 false, .p 2 true]] ∧
     (out (exec (.landingDataArrive 0 7) (k.writeNat 0x40001008 8 128))).me.lb.map (·.vals) = [[.g 8 5 false, .p 2 false]]) ∧
    (let w (i : WqItem) : State := A.updMe (fun t => { t with wq := [i] })
     next (exec (.heldWritePerform 0) A) A = true ∧ next (exec (.orderingEventPerform 0) A) A = true ∧
     (w ⟨3, .write 0x2000 [(0x2000, 1)] (.store [7] false 0), false⟩).mayPerform 0 ⟨3, .write 0x2000 [(0x2000, 1)] (.store [7] false 0), false⟩ = true ∧
     (w ⟨3, .order .full 4 0 0, false⟩).mayPerform 0 ⟨3, .order .full 4 0 0, false⟩ = true ∧
     (w ⟨3, .order .rel 5 0 0, false⟩).mayPerform 0 ⟨3, .order .rel 5 0 0, false⟩ = false ∧
     (out (exec (.podFlushGather 0) (w ⟨3, .order .rel 5 0 0, false⟩))).me.wq = [⟨3, .order .rel 5 0 0, true⟩]) ∧
    (let r := { A.writeNat 0x2000 4 5 with swRed := [⟨0, 0, 1, 0x2000, 0x800000002000, 0x18, 0, 7⟩, ⟨8, 0, 1, 0x2000, 0x800000002000, 0x18, 0, 8⟩, ⟨8, 0, 1, 0x2000, 0x800000002000, 0x19, 0, 8⟩] }
     (out (exec (.reductionApply 0x800000002000 2) r)).natAt 0x2000 4 = 20 ∧ (out (exec (.reductionApply 0x800000002000 2) r)).swRed.length = 1 ∧
     (let p := { r with poison := [0x400] }
      (out (exec (.reductionApply 0x800000002000 1) p)).mem = p.mem ∧ (out (exec (.reductionApply 0x800000002000 1) p)).swRed.length = 2)) := by
  decide +kernel

/-- An operation of the matrix engine or of the MGV queue of strand 0, as captured at cycle 0. -/
def mop (k : MKind) (id n : Nat) : MOp where
  id := id
  pos := id
  kind := k
  sid := 0
  task := 1
  stamp := ⟨5, 6, 3, 0, 0⟩
  vcc := 100
  base := 0
  n := n
  m := 1
  mode := 1
  fmtr := 0x11
  aAddr := 0x1000
  bAddr := 0x200000000
  aStride := 256
  bStride := 256
  dStride := 256
  dfmt := 1
  ascale := 127
  bscale := 127
  dscale := 127
  r := 1
  draws := []
  prod := 2
  cons := [0, 0, 0]
  prio := 0
  turns := 0
  next := 0
  waited := 0
  started := false
  running := false
  passes := 0
  since := 0
  pages := []
  fail := none
  cut := false

/-- A module at cycle 100 whose core 0 holds matrix operations and MGVs, with the address space 1 mapped and a page of 64 KiB of it cached. -/
def mat (mq gq : List MOp) : State := { paged (at_ { strandA with q := [(2, ⟨3, 0, false⟩)] }) with
  now := 100, cores := [(0, { Core.idle with mq := mq, gq := gq, busy := [(0, 1), (1, 0)] })]
  tlb := [⟨0, 1, 0x200000000, 65536, 0x40000000, true, true⟩] }
def run2 (passes since : Nat) : MOp := { mop .mrot 7 64 with running := true, started := true, passes := passes, since := since }
def mqOf (s : State) : List (Nat × Bool × Nat) := (s.core 0).mq.map (fun o => (o.id, o.running, o.passes))
def poisoned (s : State) (w : Nat) : State := { s with poison := [w] }

theorem witness_MatrixEngineEvents :
    (let s := mat [mop .mzero 7 16, { mop .mrot 8 64 with prio := 3, next := 3, base := 512 }] []
     s.matEligible (mop .mzero 7 16) = true ∧ mqOf (out (exec (.matrixOpStart 0) s)) = [(7, false, 0), (8, true, 0)] ∧
     (let h := { s with power := { s.power with hold := true } }
      next (exec (.matrixOpStart 0) h) h = true ∧ next (exec (.mgvStart 0) h) h = true)) ∧
    next (exec (.matrixOpStart 0) (mat [] [])) (mat [] []) = true := by decide +kernel

theorem witness_MatrixEngineEvents_passes :
    next (exec (.matrixOpStart 0) (mat [run2 0 112] [])) (mat [run2 0 112] []) = true ∧
    next (exec (.matrixPassEnd 0) (mat [run2 0 112] [])) (mat [run2 0 112] []) = true ∧
    mqOf (out (exec (.matrixPassEnd 0) (mat [run2 0 12] []))) = [(7, true, 1)] ∧
    mqOf (out (exec (.matrixPassEnd 0) (poisoned (mat [run2 0 12] []) (2 ^ 59 / 8)))) = [] := by decide +kernel

theorem witness_MatrixEngineEvents_completion :
    mqOf (out (exec (.matrixOpComplete 0) (poisoned (mat [run2 1 28] []) (2 ^ 59 / 8 + 16)))) = [] ∧
    (let t := out (exec (.matrixOpComplete 0) (mat [run2 1 28] []))
     mqOf t = [] ∧ (t.me.tok 2).outst = 2 ∧ (t.core 0).busy.get 0 0 = 0) ∧
    (let t := (mat [run2 1 28] []).endMat { run2 1 28 with task := 9 } 2 none false
     (t.me.tok 2).outst = 3) := by decide +kernel

/-- An MGV of one row of A in BF16 by one panel row of MXFP8: the vector 1, 0, … by rows whose first element is 1. -/
def gop : MOp := { mop .mgv 7 16 with fmtr := 0x62 }
def gready : MOp := { gop with started := true, pages := [(0x200000000, 65536, 0x40000000)] }

theorem witness_MatrixEngineEvents_mgv :
    (let s := mat [] [gop]
     s.mgvHead 0 = some gop ∧ (s.panelWalk gop (State.panelPages gop)).2.toOption = some [(0x200000000, 65536, 0x40000000)] ∧
     ((out (exec (.mgvStart 0) s)).core 0).gq.map (fun o => (o.started, o.pages)) = [(true, [(0x200000000, 65536, 0x40000000)])]) ∧
    (let s := mat [] [{ gop with bAddr := 0x300000000 }]
     (s.panelWalk { gop with bAddr := 0x300000000 } [0x300000000]).2.toOption = none ∧ ((out (exec (.mgvStart 0) s)).core 0).gq = []) ∧
    (let s := mat [] [gready]
     (s.core 0).gq.filter (fun o => o.started) = [gready] ∧ s.firstPoison (State.mgvReads gready) = none ∧ gready.base % 32 = 0 ∧ gready.m ≤ 32 ∧
     gready.n ≤ 512 ∧ (((s.writeNat (2 ^ 58 + 0x1000) 2 0x3F80).writeNat 0x40000000 1 0x38).writeNat 0x400000C0 1 127).mgvElem gready 0 0 = 0x3F800000) ∧
    ((mat [] [{ gready with cut := true }]).core 0).gq.map (·.cut) = [true] := by decide +kernel

/-- A copy channel operation of strand 0, as captured at cycle 0. -/
def xop (k : XKind) (p : XPlan) (a b c : Nat) : XOp :=
  ⟨7, 7, k, 0, 1, ⟨5, 6, 3, 0, 0⟩, 100, BitVec.ofNat 64 a, BitVec.ofNat 64 b, BitVec.ofNat 64 c, p, p.total, 0, none, 0, [], 2, [0, 0, 0], false, 0, none, false⟩
def onChan (ops : List XOp) : State := { paged (at_ { strandA with q := [(2, ⟨3, 0, false⟩)] }) with
  now := 100, cores := [(0, { Core.idle with chans := [(1, ops)] })] }
def chanIs (s : State) : List (Nat × Bool × Nat × Nat × Bool) :=
  ((s.core 0).chans.get [] 1).map (fun o => (o.id, o.started, o.next, o.written, o.fail.isSome))
/-- An overlapping copy of 300 bytes, from 0x1000 to 0x1004 of the own scratchpad. -/
def lin : XOp := { xop .copy (.linear 0x1000 0x1004 300) 0 0 0 with started := true }

theorem witness_CopyEngineEvents :
    (let s := onChan [xop .copy (.linear 0x1000 0x1004 300) 0 0 0]
     chanIs (out (exec (.copyOpStart 0 1) s)) = [(7, true, 0, 0, false)] ∧
     (let h := { s with power := { s.power with hold := true } }
      next (exec (.copyOpStart 0 1) h) h = true) ∧
     (let e := { s with now := 0 }
      next (exec (.copyOpStart 0 1) e) e = true) ∧
     next (exec (.copyBeatWrite 0 1 7) s) s = true ∧ next (exec (.copyOpComplete 0 1 7) s) s = true) := by decide +kernel

theorem witness_CopyEngineEvents_beats :
    (let s := (onChan [lin]).writeNat (2 ^ 58 + 0x1000) 4 0x04030201
     Memory.wf s.mem = true ∧
     (let t := out (exec (.copyBeatWrite 0 1 7) s)
      chanIs t = [(7, true, 0, 252, false)] ∧ t.bytesAt (2 ^ 58 + 0x1000) 13 = [1, 2, 3, 4, 1, 2, 3, 4, 1, 2, 3, 4, 1] ∧
      (let u := out (exec (.copyBeatWrite 0 1 7) t)
       chanIs u = [(7, true, 1, 0, false)] ∧ u.bytesAt (2 ^ 58 + 0x112C) 5 = [1, 2, 3, 4, 0] ∧
       (let v := out (exec (.copyOpComplete 0 1 7) u)
        chanIs v = [] ∧ v.me.tok 2 = ⟨2, 0, false⟩))) ∧
     next (exec (.copyOpComplete 0 1 7) s) s = true) := by decide +kernel

theorem witness_CopyEngineEvents_ends :
    (let s := onChan [{ xop .copy (.linear 0x500000 0x1004 300) 0 0 0 with started := true }]
     chanIs (out (exec (.copyBeatWrite 0 1 7) s)) = [(7, true, 0, 0, true)]) ∧
    (let s := onChan [{ lin with fail := some ⟨.accv, 0x500000, 0, 0⟩ }]
     let t := out (exec (.copyOpComplete 0 1 7) s)
     chanIs t = [] ∧ t.me.tok 2 = ⟨2, 0, true⟩ ∧ t.me.fails = [⟨.accv, 0x500000, 0, 0⟩]) ∧
    (let s := onChan [{ lin with cut := true }]
     next (exec (.copyBeatWrite 0 1 7) s) s = true ∧ (out (exec (.copyOpComplete 0 1 7) s)).me.tok 2 = ⟨2, 0, true⟩) ∧
    (let d : XOp := { xop (.drain 4) .none 0 0 0 with id := 8, started := true }
     chanIs (out (exec (.drainComplete 0 1) (onChan [d]))) = [] ∧ next (exec (.drainComplete 0 1) (onChan [lin, d])) (onChan [lin, d]) = true ∧
     next (exec (.drainComplete 0 1) (onChan [{ d with started := false }])) (onChan [{ d with started := false }]) = true) := by decide +kernel

/-- The sequence of Sq beside a second descriptor at 2^33 + 0x5000 with no extents, a token list of zeros at 0x3000, and an operation of
the unit on channel 1; EN of PFXVA set, and a pool of 1 GiB at 2^33. -/
def unit (k : XKind) (a b c : Nat) : State :=
  let s := onChan [{ xop k .none a b c with started := true }]
  let u := (((((seqOf s).writeNat 0x40005000 8 0x0000000100000000).writeNat 0x40005008 8 192).writeNat 0x40005010 8 0x200006000).writeNat
    0x40005018 8 0x200007000)
  { u with dev := (((u.dev.set 0x400 0x200000000).set 0x408 1).set 0x410 0x210000000).set 0x418 1 }
def ended (s : State) (canc : Bool) : Bool :=
  let t := out (exec (.copyOpComplete 0 1 7) s)
  decide (chanIs t = [] ∧ t.me.tok 2 = ⟨2, 0, canc⟩)
def after (s : State) : State := out (exec (.copyOpComplete 0 1 7) s)
def node : PfxNode := ⟨4, [List.replicate 16 0], 0x200020000, 192, 3⟩

theorem witness_SequenceUnitOperations :
    (let s := unit .kvcp 0x200001000 0 (2 ^ 63)
     ended s false = true ∧ (after s).natAt 0x40001000 8 = 0x0000000100000000 ∧ (after s).natAt 0x40002000 4 = 0) ∧
    (let s := unit .kvcp 0x200001000 0x200005000 2
     ended s false = true ∧ (after s).natAt 0x40005000 8 = 0x0100000100000002 ∧ (after s).natAt 0x40006000 4 = 2 ∧
     (after s).natAt 0x40005040 16 = 0x200010000 + 2 ^ 64 * 64 + 2 ^ 96 * 192 ∧ (after s).natAt 0x50000008 8 = 1) ∧
    (let s := unit .kvcp 0x200001000 0x200005000 65
     ended s true = true ∧ (after s).me.fails = [⟨.illshape, 0x200005000, 0, 0⟩]) ∧
    ((after (unit .kvcp 0x300000000 0x200005000 2)).me.fails = [⟨.pgflt, 0x300000000, 0, 3⟩]) ∧
    ((after (unit .kvcp 0x200001000 0x300000000 2)).me.fails = [⟨.pgflt, 0x300000000, 0, 3⟩]) := by decide +kernel

theorem witness_SequenceUnitOperations_prefix :
    (let s := { unit .pfxl 0x3000 0x200005000 (4 * 2 ^ 32 + 40) with pfx := [node] }
     ended s false = true ∧ (after s).natAt 0x40005000 8 = 0x0100000100000010 ∧
     (after s).natAt 0x40005040 16 = 0x200020000 + 2 ^ 64 * 16 + 2 ^ 96 * 192 ∧ (after s).natAt 0x40006000 4 = 16 ∧
     (s.pfxChain 0 ⟨5, 6, 3, 0, 0⟩ 0x3000 4 1 0 [] []).toOption.map (·.1) = some [List.replicate 16 0] ∧
     (let z := { s with dev := s.dev.set 0x418 0 }
      ended z true = true ∧ (after z).mem = z.mem)) ∧
    ((after (unit .pfxl 0x3000 0x300000000 40)).me.fails = [⟨.pgflt, 0x300000000, 0, 3⟩]) ∧
    ((after (unit .pfxl 0x3000 0x200001000 40)).me.fails = [⟨.illshape, 0x200001000, 0, 0⟩]) ∧
    (let s := (List.range 16).foldl (fun s p => s.writeNat (0x40010080 + 192 * p) 8 1) ((unit .pfxi 0x3000 0x200001000 (4 * 2 ^ 32 + 16)).writeNat 0x40002000 4 16)
     ended s false = true ∧ (after s).pfx.map (fun n => (n.ns, n.path, n.base, n.stride)) = [(4, [List.replicate 16 0], 0x200010000, 192)]) ∧
    ((after (unit .pfxi 0x3000 0x300000000 16)).me.fails = [⟨.pgflt, 0x300000000, 0, 3⟩]) := by decide +kernel

/-- A communication unit operation of strand 0 that was issued at its step 90, and a module whose core 0 holds some. -/
def nop (k : NKind) (id : Nat) : NOp :=
  ⟨id, id, k, 0, 1, ⟨5, 6, 3, 0, 0⟩, 0, 0x1000, 8, 0, 0, [], 2, 0, 90, [], [], 8, 0, false, none, true, false⟩
def comm (ops : List NOp) : State := { paged (at_ { strandA with q := [(2, ⟨3, 0, false⟩)] }) with
  now := 200, cores := [(0, { Core.idle with nq := ops })] }
def nqIs (s : State) : List (Nat × Nat × Bool × Bool) := (s.core 0).nq.map (fun o => (o.id, o.beats, o.started, o.post.isSome))
def beat (s : State) : State := out (exec (.transferBeat 0) s)
def came (k : NKind) (bs : List Byte) : NOp := { nop k 7 with paired := true, len := bs.length, data := bs, dataPo := List.replicate bs.length false }
def fresh (k : NKind) (id : Nat) : NOp := { nop k id with started := false }
def toHbm (o : NOp) : NOp := { o with addr := 0x200001000 }
def far (o : NOp) : NOp := { o with key := 5 }
def buffer (len : Nat) : Post := ⟨0, 0, false, 0, 8, 0, 0x200001000, len, 1, 0x100000, none⟩
def Rz (put : NOp) (len : Nat) : State :=
  (comm [{ put with post := some (buffer len) }, { toHbm (nop .rtr 8) with post := some (buffer len) }]).writeNat (2 ^ 58 + 0x1000) 8 0x1122334455667788
def meet (s : State) : State := out (exec (.rendezvousComplete 0 7) s)

theorem witness_TransfersAndRendezvous :
    (nop .send 7).due = 98 ∧ next (exec (.transferBeat 0) (comm [])) (comm []) = true ∧
    next (exec (.transferBeat 0) (comm [nop .put 7])) (comm [nop .put 7]) = true ∧
    (let t := beat (comm [nop .send 7])
     nqIs t = [] ∧ t.me.tok 2 = ⟨2, 0, true⟩) ∧
    (let t := beat (comm [came .send [1, 2, 3, 4]])
     nqIs t = [] ∧ t.me.tok 2 = ⟨2, 0, false⟩) ∧
    (let t := beat (comm [{ nop .send 7 with cut := true }])
     nqIs t = [] ∧ t.me.tok 2 = ⟨2, 0, true⟩ ∧ t.dev.get 0 0x518 = 1) := by decide +kernel

theorem witness_TransfersAndRendezvous_beats :
    (let s := comm [came .recv (List.replicate 300 7)]
     let t := beat s
     Memory.wf s.mem = true ∧ nqIs t = [(7, 1, true, false)] ∧ t.bytesAt (2 ^ 58 + 0x10FE) 4 = [7, 7, 0, 0] ∧
     (let u := beat t
      nqIs u = [] ∧ u.bytesAt (2 ^ 58 + 0x112A) 4 = [7, 7, 0, 0] ∧ u.me.tok 2 = ⟨2, 0, false⟩)) ∧
    (beat ((comm [came (.recva 2) [3, 0, 0, 0]]).writeNat (2 ^ 58 + 0x1000) 4 0xFFFFFFFF)).natAt (2 ^ 58 + 0x1000) 4 = 2 ∧
    (beat ((comm [came (.recva 0) [0, 0, 0x80, 0x3F]]).writeNat (2 ^ 58 + 0x1000) 4 0x3F800000)).natAt (2 ^ 58 + 0x1000) 4 = 0x40000000 ∧
    (beat ((comm [came (.recva 1) [0, 0, 0, 0, 0, 0, 0xF0, 0x3F]]).writeNat (2 ^ 58 + 0x1000) 8 0x3FF0000000000000)).natAt (2 ^ 58 + 0x1000) 8 =
      0x4000000000000000 := by decide +kernel

theorem witness_TransfersAndRendezvous_match :
    (let s := comm [far (fresh .rtr 7)]
     s.commFree (far (fresh .rtr 7)) = true  ∧
     nqIs (out (exec (.putMatch 0 7) s)) = [(7, 0, true, false)] ∧ (out (exec (.putMatch 0 7) s)).posts = []) ∧
    (let t := out (exec (.putMatch 0 7) (comm [toHbm (fresh .rtr 7)]))
     nqIs t = [(7, 0, true, false)] ∧ t.posts = [⟨0, 0, false, 0, 7, 0, 0x200001000, 8, 1, 0x100000, none⟩]) := by decide +kernel

theorem witness_TransfersAndRendezvous_posts :
    (let s := { comm [toHbm (fresh .rtr 7)] with posts := List.replicate 1024 (buffer 9) }
     next (exec (.putMatch 0 7) s) s = true) ∧
    nqIs (out (exec (.putMatch 0 7) (comm [far (fresh .put 7)]))) = [(7, 0, true, false)] ∧
    nqIs (out (exec (.putMatch 0 7) (comm [fresh .put 7]))) = [(7, 0, true, false)] ∧
    (let s := { comm [fresh .put 7, nop .rtr 8] with posts := [{ buffer 8 with tag := 3 }, buffer 8] }
     s.putBehind (fresh .put 7) = false ∧
     (let t := out (exec (.putMatch 0 7) s)
      nqIs t = [(7, 0, true, true), (8, 0, true, true)] ∧ t.posts = [{ buffer 8 with tag := 3 }])) := by decide +kernel

theorem witness_TransfersAndRendezvous_meeting :
    (let t := meet (Rz (nop .put 7) 8)
     nqIs t = [] ∧ t.natAt 0x40001000 8 = 0x1122334455667788 ∧ t.me.tok 2 = ⟨1, 0, false⟩) ∧
    (let t := meet (Rz (nop .put 7) 7)
     nqIs t = [] ∧ t.natAt 0x40001000 8 = 0 ∧ t.me.tok 2 = ⟨1, 0, true⟩ ∧ t.me.fails = [⟨.accv, 0x1000, 1, 0⟩]) ∧
    (meet (Rz { nop .put 7 with addr := 0x300000000 } 8)).me.fails = [⟨.pgflt, 0x300000000, 0, 3⟩] ∧
    (let s := comm [{ nop .put 7 with post := some { buffer 8 with addr := 0x300000000 } }, nop .rtr 8]
     (meet s).me.fails = [⟨.pgflt, 0x300000000, 1, 3⟩] ∧ (meet s).me.tok 2 = ⟨1, 0, true⟩) ∧
    (let t := meet (comm [{ nop .put 7 with cut := true }])
     nqIs t = [] ∧ t.me.tok 2 = ⟨2, 0, true⟩ ∧ t.dev.get 0 0x518 = 1) ∧
    (let s := { comm [far (nop .put 7)] with service := { State.reset.service with absent := [5] } }
     (s.copyPlaces 0 ⟨5, 6, 3, 0, 0⟩ 0x1000 8 false).2.toOption = some [(2 ^ 58 + 0x1000, 8)] ∧ (meet s).me.fails = [⟨.mchk, 0, 0, 0⟩]) ∧
    next (exec (.rendezvousComplete 0 7) (comm [fresh .rtr 7])) (comm [fresh .rtr 7]) = true ∧
    (let o := { far (toHbm (nop .rtr 7)) with len := 0 }
     nqIs (meet (comm [o])) = [] ∧ (meet (comm [o])).me.tok 2 = ⟨2, 0, true⟩) := by decide +kernel

/-- A PUT of one byte to another module lands there, whatever the free numbers are. -/
theorem witness_TransfersAndRendezvous_away :
    (((comm []).putAway 5 [(2 ^ 58 + 0x1000, 1)] 1).2.toOption = some ()) := by
  simp [State.putAway, show (comm []).service.absent = [] from rfl, Except.toOption]

/-- A walk of pages that one translation cache entry maps. -/
theorem transAll_hit (s : State) (die asid root : Nat) (k : Kind) (e : TlbEntry) (hp : permits k e.rd e.wr = true) :
    ∀ ps : List (Nat × Nat), (∀ p ∈ ps, s.tlbHit die asid p.1 = some e) →
      State.transAll die asid root k ps s = (s, .ok (ps.map (fun p => (e.pa + (p.1 - e.va), p.2, p.1, sizeLevel e.size))))
  | [], _ => rfl
  | p :: ps, h => by
    have ht : s.translate die asid root p.1 k = (.page e.va e.size e.pa e.rd e.wr, s) := by
      simp [State.translate, h p (List.mem_cons_self ..), hp]
    simp only [State.transAll, ht, transAll_hit s die asid root k e hp ps (fun q hq => h q (List.mem_cons_of_mem _ hq)), List.map_cons]

theorem span_ge : ∀ (n lo x : Nat), x ∈ span lo n → lo ≤ x ∧ x < lo + n
  | 0, _, _, h => by cases h
  | n + 1, lo, x, h => by
    rcases List.mem_cons.1 h with rfl | h
    · omega
    · have := span_ge n (lo + 1) x h; omega

/-- Where the pieces of a range begin. -/
theorem pageCut_within (va n : Nat) : ∀ p ∈ pageCut va n, va ≤ p.1 ∧ p.1 < va + n := by
  intro p hp
  unfold pageCut at hp
  split at hp
  · cases hp
  · rcases List.mem_cons.1 hp with rfl | hp
    · exact ⟨Nat.le_refl _, by simp only; omega⟩
    · obtain ⟨i, hi, rfl⟩ := List.mem_map.1 hp
      have hi := span_ge _ _ _ hi
      simp only [ceilDiv, Nat.min_def] at hi ⊢
      revert hi
      split <;> intro hi <;> constructor <;> omega

theorem tlbHit_one (s : State) (e : TlbEntry) (va : Nat) (h : s.tlb = [e]) (hl : e.va ≤ va) (hh : va < e.va + e.size) :
    s.tlbHit e.die e.asid va = some e := by
  simp [State.tlbHit, h, hl, hh]

theorem copyFault_low (s : State) (store : Bool) (pa : Nat) (h : s.service = State.reset.service) (hp : pa < 2 ^ 40) :
    copyFault s false store pa = none := by
  have h1 : pa / 2 ^ 48 = 0 := by omega
  have h2 : pa % 2 ^ 48 = pa := by omega
  have hr : s.reachable pa = true := by
    unfold State.reachable
    rw [h1, h]
    simp [State.reset]
  unfold copyFault targetOf
  rw [hr, h2, if_pos hp]
  rfl

/-- A PUT of another module into a post of 2^30 bytes succeeds, whatever the free numbers are. -/
theorem witness_TransfersAndRendezvous_remote :
    ((({ comm [] with tlb := [⟨0, 1, 2 ^ 33, 2 ^ 30, 2 ^ 30, true, true⟩] } : State).remotePut { buffer (2 ^ 30) with addr := 2 ^ 33 }).2.toOption =
      some true) := by
  simp only [State.remotePut]
  generalize hx : ({ comm [] with tlb := [⟨0, 1, 2 ^ 33, 2 ^ 30, 2 ^ 30, true, true⟩] } : State).takeFree = f
  have hs : f.2.tlb = [⟨0, 1, 2 ^ 33, 2 ^ 30, 2 ^ 30, true, true⟩] ∧ f.2.service = State.reset.service := by subst hx; exact ⟨rfl, rfl⟩
  have hn : f.1 % 2 ^ 30 < 2 ^ 30 := Nat.mod_lt _ (by decide)
  generalize f.1 % 2 ^ 30 = n at hn
  have ha : ¬2 ^ 57 < 2 ^ 33 + (n + 1) := by omega
  have hb : ∀ p ∈ pageCut (2 ^ 33) (n + 1), 2 ^ 33 ≤ p.1 ∧ p.1 < 2 ^ 33 + 2 ^ 30 := fun p hp => by
    have := pageCut_within _ _ p hp; omega
  have ht := transAll_hit f.2 0 1 0x100000 .store ⟨0, 1, 2 ^ 33, 2 ^ 30, 2 ^ 30, true, true⟩ rfl (pageCut (2 ^ 33) (n + 1)) (fun p hp => by
    have := hb p hp
    exact tlbHit_one f.2 _ _ hs.1 this.1 this.2)
  simp only [State.postPlaces, buffer, if_neg ha, show dieOf 0 = 0 from rfl, ht]
  have hc : (((pageCut (2 ^ 33) (n + 1)).map (fun p => (2 ^ 30 + (p.1 - 2 ^ 33), p.2, p.1, sizeLevel (2 ^ 30)))).findSome?
      (fun x => (copyFault f.2 false true x.1).map (fun c => (c, x.2.2.1, x.2.2.2)))) = none := by
    refine List.findSome?_eq_none_iff.2 (fun x hx => ?_)
    obtain ⟨p, hp, rfl⟩ := List.mem_map.1 hx
    have := hb p hp
    exact Option.map_eq_none_iff.2 (copyFault_low f.2 true _ hs.2 (by omega))
  simp only [hc, if_neg (show ¬2 ^ 30 < n + 1 by omega)]
  rfl

/-- A plan entry's bits: operation, need, wait and signal counters, tag, module, and 64-byte units of its length. -/
def pe (op need wait sig tag module units : Nat) : BitVec 128 :=
  BitVec.ofNat 128 (op + 32 + 2 ^ 9 * sig + 2 ^ 15 * need + 2 ^ 23 * wait + 2 ^ 29 * tag + 2 ^ 39 * module + 2 ^ 48 * units)
/-- A CPLN of slot 3 (entries 0 and 1: a NOP that raises counter 1, and a copy of 64 bytes that waits for it), and its launch. -/
def planOp (n : Nat) : NOp := { nop (.cpln n) 7 with addr := 0, len := 0, bases := [0x1000, 0x2000, 0x200001000], started := false }
def launchOf (slot first count : Nat) (started : Map Nat) (finished : List Nat) (counters : Map Nat) : Launch :=
  ⟨7, 0, slot, first, count, [0x1000, 0x2000, 0x200001000], counters, started, finished, none⟩
def planned (o : NOp) (ls : List Launch) : State := { comm [o] with
  clusters := [(0, { Cluster.idle with
    plan := [(0, pe 0 0 0 1 0 0 0), (1, pe 4 1 1 2 0 0 1), (2, pe 2 0 0 3 9 0 1 - 32), (3, pe 1 0 0 4 9 0 1 - 32), (4, pe 5 0 0 0 0 0 0),
      (5, pe 1 0 0 4 9 5 1 - 32), (6, pe 3 0 0 3 9 0 1 - 32 + 2 ^ 8)]
    slots := [(3, 2), (4, 0x20002), (5, 0x40001), (6, 0x50001), (7, 0x50002)]
    launches := ls })] }
def startIt (s : State) : State := out (exec (.planEntryStart 0 7) s)
def doneIt (e : Nat) (s : State) : State := out (exec (.planEntryComplete 0 7 e) s)
def launches (s : State) (ls : List (List Nat × List Nat × Map Nat)) : Bool :=
  decide ((s.cluster 0).launches.map (fun l => (l.started.map (·.1), l.finished, l.counters)) = ls)
def going (n : Nat) : NOp := { planOp n with started := true }
def post9 (e : Nat) (red : Option Nat) : Post := ⟨0, 4 * 1024 + 9, true, 0, 7, e, 0x200001000, 64, 1, 0x100000, red⟩

theorem witness_CollectivePlans :
    (planned (planOp 3) []).commAt 0 7 = some (planOp 3) ∧ (planned (planOp 3) []).commFree (planOp 3) = true ∧
    (let t := startIt (planned (planOp 3) [])
     (t.cluster 0).launches = [launchOf 3 0 2 [] [] []] ∧ nqIs t = [(7, 0, true, false)]) ∧
    (let s := planned (planOp 3) (List.replicate 4 { launchOf 3 0 2 [] [] [] with id := 9 })
     next (exec (.planEntryStart 0 7) s) s = true) ∧
    (startIt (planned (planOp 5) [])).me.fails = [⟨.illenc, 0, 0, 0⟩] ∧ (startIt (planned (planOp 9) [])).me.fails = [⟨.illenc, 0, 0, 0⟩] ∧
    next (exec (.planEntryStart 0 7) (planned (going 3) [])) (planned (going 3) []) = true := by decide +kernel

theorem witness_CollectivePlans_entries :
    launches (startIt (planned (going 3) [launchOf 3 0 2 [] [] []])) [([0], [], [])] = true ∧
    (let s := planned (going 3) [launchOf 3 0 2 [(0, 1)] [] []]
     next (exec (.planEntryStart 0 7) s) s = true ∧ next (exec (.planEntryComplete 0 7 1) s) s = true ∧
     launches (doneIt 0 s) [([0], [0], [(1, 1)])] = true ∧ launches (startIt (doneIt 0 s)) [([0, 1], [0], [(1, 1)])] = true) := by decide +kernel

theorem witness_CollectivePlans_copy :
    (let s := (planned (going 3) [{ launchOf 3 0 2 [(0, 1), (1, 2)] [0] [(1, 1)] with bases := [0x1000, 0x200001000] }]).writeNat (2 ^ 58 + 0x1000) 8 77
     let t := doneIt 1 s
     (s.copyAll (going 3) 0x1000 0x200001000 1 64).2 = none ∧ launches t [] = true ∧ nqIs t = [] ∧ t.natAt 0x40001000 8 = 77 ∧
     t.me.tok 2 = ⟨2, 0, false⟩) := by decide +kernel

theorem witness_CollectivePlans_posts :
    (let s := planned { going 4 with bases := [0x200001000] } [{ launchOf 4 2 2 [] [] [] with bases := [0x200001000] }]
     (startIt s).posts = [post9 2 none] ∧ launches (startIt s) [([2], [], [])] = true ∧
     (let h := { s with posts := List.replicate 1024 (post9 3 none) }
      next (exec (.planEntryStart 0 7) h) h = true)) ∧
    (let s := planned (going 4) [launchOf 4 2 2 [(2, 1), (3, 2)] [] []]
     next (exec (.planEntryComplete 0 7 2) s) s = true ∧ next (exec (.planEntryComplete 0 7 3) s) s = true ∧
     (let m := { s with posts := [post9 2 none] }.writeNat (2 ^ 58 + 0x1000) 8 77
      let t := doneIt 3 m
      launches t [] = true ∧ t.posts = [] ∧ t.natAt 0x40001000 8 = 77 ∧ t.me.tok 2 = ⟨2, 0, false⟩) ∧
     (let m := ({ s with posts := [post9 2 (some 2)] }.writeNat (2 ^ 58 + 0x1000) 8 77).writeNat 0x40001000 8 5
      (doneIt 3 m).natAt 0x40001000 8 = 82)) := by decide +kernel

theorem witness_CollectivePlans_away :
    (let s := planned (going 6) [launchOf 6 5 1 [(5, 1)] [] []]
     (s.copyPlaces 0 ⟨5, 6, 3, 0, 0⟩ 0x1000 64 false).2.toOption = some [(2 ^ 58 + 0x1000, 64)]) ∧
    launches (startIt (planned (going 6) [launchOf 6 5 1 [] [] []])) [([5], [], [])] = true ∧
    launches (startIt (planned (going 7) [launchOf 7 5 2 [(5, 1)] [] []])) [([5, 6], [], [])] = true := by decide +kernel

/-- A pool entry of the record 5, of one strand and 64 AM rows, by the operator entry 4 of cluster 0; and modules in which tasks wait. -/
def waitsK (id prio : Nat) : Task := { Task.empty with
  id := id, ctx := 0, record := 5, home := 3, scopeId := 3, prio := prio, width := 1, amRows := 64, ordinal := 7, status := .pool, weight := 4
  micros := [⟨5, 4, [1, 2, 3, 4, 5, 6], [11, 12, 13, 14, 15, 16], [21, 22, 23, 24, 25, 26], [], []⟩] }
def pool (ks : List Task) : State := ({ State.reset with
  now := 100, nextId := 30, tasks := ks.map (fun (k : Task) => (k.id, k)), ctxs := [(0, ctxA)], scopes := [(3, ⟨5, false, false, 0, 0, 0⟩)],
  records := [(5, ⟨5, 0, 5, false, none, false, false, 0, 3, 0, 12, 0, 0, []⟩)] }).writeNat (ucodeBase 0 0 + 128) 8 0x80900
def seatsOf (s : State) (id : Nat) : TaskStatus × List Nat := ((s.task id).status, (s.task id).strands)
def runs (s : State) : State := out (exec (.taskDispatch 0) s)
def resumes (s : State) : State := out (exec (.taskResume 0) s)
/-- A task that yields on strand 0, and one saved from there with a row of sevens. -/
def yielded : State := { pool [{ waitsK 11 2 with status := .yielded, strands := [0] }] with
  strands := [(0, { Strand.idle with task := 11, wait := .idleYield, mpc := 0x905 })] }
def savedK : Task := { waitsK 11 2 with status := .evicted, strands := [0]
                                        saved := [⟨0, { Strand.idle with task := 11, wait := .idleYield, mpc := 0x905, amBase := 32, amRows := 1 },
                                          List.replicate 512 7, List.replicate 512 false⟩] }

theorem witness_TasksDispatchAndResume :
    (let s := pool [waitsK 11 2, waitsK 12 3]
     s.taken 0 = some (waitsK 12 3) ∧ s.resourcesFree (waitsK 11 2) = true ∧ s.place4 (waitsK 12 3) 0 = some ([(0, 0)], none) ∧
     (let t := runs s
      seatsOf t 12 = (.running, [0]) ∧ seatsOf t 11 = (.pool, []) ∧ (t.strand 0).mpc = 0x900 ∧ (t.strand 0).reg 1 = ⟨1, false⟩ ∧
      (t.strand 0).reg 12 = ⟨16, false⟩ ∧ (t.strand 0).reg 16 = ⟨21, false⟩ ∧ (t.strand 0).reg 13 = ⟨7, false⟩ ∧
      (t.strand 0).cw 0x106 = BitVec.ofNat 64 ((0x6A09E667 + 0x9E3779B9 * 7) % 2 ^ 32))) ∧
    next (exec (.taskDispatch 0) (pool [])) (pool []) = true ∧ next (exec (.taskResume 0) (pool [waitsK 11 2])) (pool [waitsK 11 2]) = true ∧
    (let h := { pool [waitsK 11 2] with power := { State.reset.power with hold := true } }
     next (exec (.taskDispatch 0) h) h = true) := by decide +kernel

theorem witness_TasksDispatchAndResume_braid :
    (let s := pool [{ waitsK 11 2 with width := 3 }]
     s.place4 { waitsK 11 2 with width := 3 } 0 = some ([(0, 0), (8, 0), (16, 0)], some 0) ∧
     (let t := runs s
      seatsOf t 11 = (.running, [0, 8, 16]) ∧ (t.braids.get? 0).map (·.members) = some [0, 8, 16] ∧ (t.strand 16).member = 2 ∧
      (t.strand 16).reg 14 = ⟨2, false⟩)) ∧
    (pool [{ waitsK 11 2 with age := 3, nextAge := 90 }]).entryPrio { waitsK 11 2 with age := 3, nextAge := 90 } = 6 := by decide +kernel

theorem witness_TasksDispatchAndResume_resume :
    (let t := resumes yielded
     seatsOf t 11 = (.running, [0]) ∧ (t.strand 0).wait = .none ∧ (t.strand 0).mpc = 0x905) ∧
    (let s := pool [savedK]
     Memory.wf s.mem = true ∧ s.taken 0 = some savedK ∧
     (let t := resumes s
      seatsOf t 11 = (.running, [0]) ∧ (t.task 11).saved = [] ∧ (t.strand 0).mpc = 0x905 ∧
      t.bytesAt (2 ^ 59 + 512 * 33 - 2) 4 = [7, 7, 0, 0] ∧ t.bytesAt (2 ^ 59 + 512 * 32 - 2) 4 = [0, 0, 7, 7])) := by decide +kernel

def withMe (s : State) (k : Task) (t : Strand) : State := { s with tasks := s.tasks.set k.id k, strands := s.strands.set 0 t }
def runningK (id prio : Nat) : Task := { waitsK id prio with status := .running, strands := [0], started := 5 }
/-- A core's eight strands and its whole accumulator taken by other tasks, but for what runs on strand 0. -/
def crowd (ks : List Task) (k : Task) (t : Strand) : State :=
  let s := withMe (pool ks) k t
  { s with strands := s.strands ++ (span 1 63).map (fun n => (n, { Strand.idle with task := 99, amBase := 64 * (n % 8), amRows := 64 })) }
def busyA : State := crowd [waitsK 11 9] (runningK 10 2) { Strand.idle with task := 10, amRows := 64 }
def cl0 (s : State) (f : Cluster → Cluster) : State := { s with clusters := [(0, f Cluster.idle)] }
def evict (s : State) : State := out (exec (.eviction 10) s)
def marked (f : Task → Task) : State :=
  crowd [waitsK 11 9] (f { runningK 10 2 with marked := some 50, victimOf := 11 }) { Strand.idle with task := 10, amRows := 64 }

theorem witness_AgeingReservationsEvictionBallast :
    (let s := pool [waitsK 11 2]
     s.ready (waitsK 11 2) = true ∧ ((out (exec (.ageTick 11) s)).task 11).age = 1 ∧ ((out (exec (.ageTick 11) s)).task 11).nextAge = 4096) ∧
    (let s := pool [{ waitsK 11 2 with nextAge := 101 }, { waitsK 12 2 with status := .running }]
     next (exec (.ageTick 11) s) s = true ∧ next (exec (.ageTick 12) s) s = true ∧ next (exec (.eviction 11) s) s = true ∧
     next (exec (.ballastKill 11) s) s = true) := by decide +kernel

theorem witness_AgeingReservationsEvictionBallast_eviction :
    busyA.starved 0 = some (waitsK 11 9) ∧
    ((evict (marked (fun k => { k with victimOf := 12 }))).task 10).marked = none ∧
    next (exec (.eviction 10) (marked (fun k => k))) (marked (fun k => k)) = true ∧
    ((evict { marked (fun k => k) with now := 16434 }).task 10).saving = some .evicted ∧
    ((evict (marked (fun k => { k with status := .yielded }))).task 10).saving = some .evicted := by decide +kernel

theorem witness_AgeingReservationsEvictionBallast_marks :
    (let s := cl0 busyA (fun c => { c with top := some (11, 100) })
     next (exec (.evictionMark 0) s) s = true ∧ (s.victims 0 (waitsK 11 9)).map (·.id) = [10] ∧
     s.victimRun (waitsK 11 9) [] (s.victims 0 (waitsK 11 9)) = some [runningK 10 2] ∧
     (((out (exec (.evictionMark 0) { s with now := 4196 })).task 10).marked = some 4196)) := by decide +kernel

theorem witness_AgeingReservationsEvictionBallast_braids :
    (let b := { waitsK 11 2 with width := 3 }
     let s := cl0 (pool [b]) (fun c => { c with oldest := some (11, 100) })
     s.oldestBraid 0 = some b ∧ next (exec (.braidReservation 0) s) s = true ∧
     (let t := out (exec (.braidReservation 0) { s with now := 65637 })
      (t.cluster 0).reserve = some 11 ∧ t.reservedCores 0 = [0, 1, 2] ∧ next (exec (.braidReservation 0) t) t = true ∧
      (t.place4 (waitsK 12 2) 0).map (·.1) = some [(24, 0)])) := by decide +kernel

/-- Ballast asked for in cluster 0, by the operator entry 4; and one that runs on strand 0. -/
def asked (ks : List Task) (entry : Nat) : State :=
  cl0 { pool ks with dev := [(0x200, BitVec.ofNat 64 (2 ^ 35 + 2 ^ 36 * entry))] } (fun c => { c with demand := 1 })
def ballastK : Task := { runningK 10 0 with kind := .ballast, home := 0, scopeId := 0 }

theorem witness_AgeingReservationsEvictionBallast_ballast :
    (let t := out (exec (.ballastDispatch 0) (asked [] 4))
     (t.task 30).kind = .ballast ∧ (t.task 30).strands = [0] ∧ (t.strand 0).mpc = 0x900 ∧ (t.strand 0).task = 30) ∧
    (out (exec (.ballastDispatch 0) (asked [] 5))).telem.ballast = 1 ∧
    next (exec (.ballastDispatch 0) (pool [])) (pool []) = true ∧
    next (exec (.ballastDispatch 0) (asked [waitsK 11 2] 4)) (asked [waitsK 11 2] 4) = true ∧
    (let s := withMe (pool []) ballastK { Strand.idle with task := 10 }
     (s.cluster 0).demand = 0 ∧ (out (exec (.ballastKill 10) s)).tasks = [] ∧ (out (exec (.ballastKill 10) s)).strand 0 = Strand.idle) ∧
    (let s := cl0 (withMe (pool []) ballastK { Strand.idle with task := 10 }) (fun c => { c with demand := 1 })
     next (exec (.ballastKill 10) s) s = true) := by decide +kernel

/-- A backfill job for an entry of a sequence (positions 0 VALID, 1 PENDING, 2 DROPPED), queued on die 0 or running. -/
def jobK (pos layer entry : Nat) : Task := { waitsK 11 2 with
  kind := .backfill, status := .queued, micros := [⟨5, entry, [1, 2, 3], [1, 1, 1], [], [], []⟩], seq := some ⟨0x200001000, layer, 1, pos, false⟩, amRows := 0 }
def jobs (ks : List Task) : State :=
  let s := (((seqOf (pool ks)).writeNat 0x40010080 8 1).writeNat 0x40010140 8 2).writeNat 0x40010200 8 3
  { s with backfill := [(0, ks.map (·.id))] }
def doJob (s : State) : State := out (exec (.backfillDispatch 0) s)
def retireJ (s : State) : State := out (exec (.backfillRetire 11) s)
def retireK (s : State) : State := out (exec (.taskRetire 10) s)
def ran (k : Task) : Task := { k with status := .ended, strands := [0] }
def endedOn (k : Task) : State := withMe (jobs [k]) k { Strand.idle with task := k.id, wait := .idleEnd }
/-- A module after the sequence side of a task's retirement. -/
def seqDone (s : State) (k : Task) : State :=
  match s.retireSeq k with
  | .ok u => u
  | _ => s
def reportsOut (s : State) : Nat := s.dev.get 0 0x518 |>.toNat

theorem witness_JobsTasksAndRecordsRetire :
    (let s := jobs [jobK 1 0 4]
     s.jobCluster 0 = 0 ∧ s.jobsOf 0 = [jobK 1 0 4] ∧ s.jobFault (jobK 1 0 4) 0 = none ∧ s.taken 0 = some (s.jobSeat (jobK 1 0 4) 0) ∧
     (let t := doJob s
      seatsOf t 11 = (.running, [0]) ∧ t.backfill.get [] 0 = [] ∧ (t.strand 0).mpc = 0x900 ∧ (t.strand 0).reg 2 = ⟨2, false⟩ ∧
      (t.strand 0).amRows = 0)) ∧
    next (exec (.backfillDispatch 0) (pool [])) (pool []) = true ∧
    (let h := { jobs [jobK 1 0 4] with power := { State.reset.power with hold := true } }
     next (exec (.backfillDispatch 0) h) h = true) := by decide +kernel

theorem witness_JobsTasksAndRecordsRetire_faults :
    (let s := jobs [jobK 1 1 4]
     s.jobFault (jobK 1 1 4) 0 = some .illshape ∧ (doJob s).backfill.get [] 0 = [] ∧ ((doJob s).task 11).failed = some .illshape) ∧
    (jobs [jobK 1 0 5]).jobFault (jobK 1 0 5) 0 = some .illenc ∧
    (let k := { jobK 1 0 4 with seq := some ⟨0x200001010, 0, 1, 1, false⟩ }
     (jobs [k]).jobFault k 0 = some .illshape) := by decide +kernel

theorem witness_JobsTasksAndRecordsRetire_jobs :
    (let k := { ran (jobK 1 0 4) with failed := some .pgflt }
     let t := retireJ (endedOn k)
     t.tasks = [] ∧ t.natAt 0x40010140 8 = 3 ∧ reportsOut t = 1 ∧ (t.scopes.get? 3).map (·.live) = some 4) ∧
    (let t := retireJ (endedOn (ran (jobK 1 0 4)))
     t.tasks = [] ∧ t.natAt 0x40010140 8 = 1 ∧ t.strand 0 = Strand.idle) ∧
    (let s := jobs [jobK 1 0 4]
     next (exec (.backfillRetire 11) s) s = true ∧ next (exec (.taskRetire 11) s) s = true) ∧
    (let s := endedOn (ran (waitsK 10 2))
     next (exec (.backfillRetire 10) s) s = true) := by decide +kernel

theorem witness_JobsTasksAndRecordsRetire_tasks :
    (let k := { ran (waitsK 10 2) with line := some 0 }
     let t := retireK { endedOn k with braids := [(0, ⟨10, [0], [], none, []⟩)] }
     t.tasks = [] ∧ t.strand 0 = Strand.idle ∧ t.braids = [] ∧ (t.records.get? 5).map (fun r => (r.returned, r.wBack)) = some (1, 4) ∧
     (t.scopes.get? 3).map (·.live) = some 4) ∧
    (let k := { ran (waitsK 10 2) with seq := some ⟨0x200001000, 0, 1, 3, true⟩ }
     let s := withMe (jobs [k]) k { Strand.idle with task := 10, wait := .idleEnd, cr := [(8, 1)] }
     (seqDone s k).natAt 0x40001000 8 = 0x4100000100000003 ∧ (seqDone s k).natAt 0x40002000 4 = 4 ∧
     (seqDone (endedOn k) k).natAt 0x40001000 8 = 0x0100000100000003 ∧ (seqDone (endedOn k) k).natAt 0x400102C0 8 = 1) := by decide +kernel

theorem witness_JobsTasksAndRecordsRetire_records :
    (let s := pool []
     next (exec (.recordRetire 5) s) s = true ∧
     (let r := fun (r : OpRecord) => { s with records := [(5, r)] }
      (out (exec (.recordRetire 5) (r ⟨5, 0, 5, false, none, false, false, 0, 3, 3, 12, 12, 0, []⟩))).records = [] ∧
      (let j := { r ⟨5, 0, 5, false, some 2, true, true, 0, 3, 3, 12, 12, 0, []⟩ with ctxs := [(0, { ctxA with walker := { ctxA.walker with j := [(2, 1)] } })] }
       (out (exec (.recordRetire 5) j)).records = [] ∧ ((out (exec (.recordRetire 5) j)).ctx 0).walker.j.get 0 2 = 0))) := by decide +kernel

/-- A module whose record 5 has spawned and is not declared over, with samples of its context; work stealing on, LOW 2 and HIGH 4. -/
def spawning (weighted declared : Bool) (xs : List (Nat × Bool × Nat × Nat)) : State := { pool [] with
  dev := [(0x200, 0x400004002), (0x208, if weighted then 1 else 0)]
  records := [(5, ⟨5, 0, 5, false, none, true, declared, 0, 3, 1, 12, 4, 0, []⟩)]
  steal := { State.reset.steal with sent := [(0, 2)], done := [(0, 2)], samples := [(0, xs)] } }
def sampled (s : State) : List (Nat × Bool × Nat × Nat) := s.steal.samples.get [] 0
def spare (n : Nat) (req : Option Nat) : State :=
  let s := pool ((span 10 n).map (fun i => { waitsK i 2 with steal := true }))
  { s with dev := [(0x200, 0x400004002)], steal := { s.steal with request := req } }
def token (m n : Nat) (s : State) : State := out (exec (.stealTokenPass m n) s)

theorem witness_TerminationAndStealing :
    (let s := spawning false false []
     s.quietCtx 0 = true ∧ sampled (out (exec (.terminationSample 0) s)) = [(100, true, 2, 2)] ∧ next (exec (.terminationDeclare 0) s) s = true) ∧
    (let s := spawning true false []
     next (exec (.terminationSample 0) s) s = true) ∧
    (let s := spawning false true []
     next (exec (.terminationSample 0) s) s = true) ∧
    (pool [waitsK 11 2]).quietCtx 0 = false ∧
    (let s := spawning false false [(36, true, 2, 2), (100, true, 2, 2)]
     let t := out (exec (.terminationDeclare 0) s)
     (t.records.get? 5).map (·.declared) = some true ∧ sampled t = []) := by decide +kernel

theorem witness_TerminationAndStealing_tasks :
    (let s := { pool [{ waitsK 11 2 with weight := 1 }] with dev := [(0x208, 1)] }
     let t := out (exec (.weightFetch 11) s)
     (t.task 11).weight = 2147483649 ∧ (t.records.get? 5).map (·.wTotal) = some 2147483660) ∧
    (let s := pool [waitsK 11 2]
     next (exec (.weightFetch 11) s) s = true ∧ next (exec (.stolenTaskCompletion 11) s) s = true) ∧
    (let t := out (exec (.stolenTaskCompletion 11) (pool [{ waitsK 11 2 with status := .away }]))
     t.tasks = [] ∧ t.steal.done.get 0 0 = 1 ∧ (t.records.get? 5).map (fun r => (r.returned, r.wBack)) = some (1, 4) ∧
     (t.scopes.get? 3).map (·.live) = some 4) := by decide +kernel

theorem witness_TerminationAndStealing_token :
    (spare 1 none).stealable.length = 1 ∧ (token 0 0 (spare 1 none)).steal.request = some 0 ∧ (token 0 0 (spare 2 none)).steal.request = none ∧
    (token 0 0 (spare 1 (some 0))).steal.request = none ∧ (token 0 0 (spare 4 (some 3))).steal.request = some 3 ∧
    (let t := token 0 0 (spare 7 (some 3))
     t.steal.request = none ∧ (t.task 10).status = .away ∧ (t.task 11).status = .pool ∧ t.steal.sent.get 0 0 = 1) ∧
    (token 3 9 (spare 1 (some 3))).steal.request = none ∧ (token 3 9 (spare 1 (some 3))).steal.counts.get 0 3 = 9 ∧
    next (exec (.stealTokenPass 0 0) (pool [])) (pool []) = true := by decide +kernel

/-- A CANCEL of scope 3 by a strand of context 0, its word at 2^33 + 0x1000, in a module with one task, and an operation in flight. -/
def cancelOf (target word : Nat) (void : Bool) (taken : List Nat) : CancelOp := ⟨9, target, void, word, ⟨5, 6, 3, 0, 0⟩, some 0, 1, 2, 0, 1, 2, taken⟩
def felling (c : CancelOp) (k : Task) : State :=
  let s := withMe (paged (pool [k])) k { Strand.idle with task := k.id }
  { s with cancels := [(9, c)] }
def takes (u : Nat) (s : State) : State := out (exec (.cancelTakeEffect 9 u) s)
def tally (s : State) : Option (List Nat × Nat × Nat) := (s.cancels.get? 9).map (fun c => (c.taken, c.killed, c.removed))
def completing (c : CancelOp) : State := { paged (at_ { strandA with q := [(2, ⟨3, 0, false⟩)] }) with cancels := [(9, c)] }
def completes (s : State) : State := out (exec (.cancelComplete 9) s)

theorem witness_CancelsAndSaves :
    (let c := cancelOf 3 0 false [2]
     let s := felling c (waitsK 11 2)
     s.scopeUnder 3 3 = true ∧ next (exec (.cancelTakeEffect 9 2) s) s = true ∧ next (exec (.cancelTakeEffect 9 152) s) s = true ∧
     tally (takes 90 s) = some ([2, 90], 1, 2) ∧ tally (takes 0 s) = some ([2, 0], 1, 3) ∧ (takes 0 s).tasks = []) ∧
    tally (takes 0 (felling (cancelOf 3 0 true []) (waitsK 11 2))) = some ([0], 1, 2) ∧
    (let s := felling (cancelOf 3 0 false []) (runningK 11 2)
     tally (takes 0 s) = some ([0], 2, 2) ∧ (takes 0 s).tasks = [] ∧ (takes 0 s).strand 0 = Strand.idle) := by decide +kernel

theorem witness_CancelsAndSaves_states :
    (let k := { savedK with strands := [] }
     tally (takes 0 (felling (cancelOf 3 0 false []) k)) = some ([0], 1, 3)) ∧
    (let s := felling (cancelOf 3 0 false []) { waitsK 11 2 with status := .away }
     tally (takes 0 s) = some ([0], 1, 2) ∧ (takes 0 s).tasks.map (·.1) = [11]) := by decide +kernel

theorem witness_CancelsAndSaves_completion :
    next (exec (.cancelComplete 9) (completing (cancelOf 3 0 false []))) (completing (cancelOf 3 0 false [])) = true ∧
    (let t := completes (completing (cancelOf 0 0 false []))
     t.cancels = [] ∧ t.me.tok 2 = ⟨2, 0, false⟩) ∧
    (let t := completes (completing (cancelOf 0 0x200001000 false []))
     t.cancels = [] ∧ t.natAt 0x40001000 8 = 0x8000000000100002 ∧ t.me.tok 2 = ⟨2, 0, false⟩) ∧
    (completes (completing (cancelOf 0 0x200001000 true []))).natAt 0x40001000 8 = 0xC000000000100002 ∧
    (let t := completes (completing (cancelOf 0 0x300000000 false []))
     t.cancels = [] ∧ t.me.tok 2 = ⟨2, 0, true⟩ ∧ reportsOut t = 1) := by decide +kernel

/-- A task to be pre-empted, on strand 0 with no rows. -/
def preempted (st : TaskStatus) : State :=
  withMe (pool []) { waitsK 11 2 with status := .yielded, strands := [0], saving := some st } { Strand.idle with task := 11, wait := .idleYield }

theorem witness_CancelsAndSaves_saves :
    (let s := preempted .evicted
     s.taskEngines (s.task 11) = false ∧ (s.task 11).saving = some .evicted ∧ (s.strand 0).xlat = [] ∧ (s.strand 0).wq = [] ∧ (s.strand 0).lb = [] ∧
     (s.strand 0).handler = none ∧ s.locks = [] ∧ s.strands.map (fun e => e.2.inherit) = [0] ∧ s.frqFull = false) ∧
    (let s := { preempted .evicted with cores := [(0, { Core.idle with nq := [{ nop .put 8 with task := 11 }] })] }
     next (exec (.preemptSaveComplete 11) s) s = true) ∧
    { preempted .saved with dev := (State.reset.dev.set 0x510 10).set 0x518 1024 }.frqFull = true := by decide +kernel

def trapA : TrapInfo := ⟨.pgflt, 0, 0, noInfo, true⟩
def frozenA : Strand := { strandA with trap := some trapA, replay := some ⟨7, 3⟩ }
def commanded (t : Strand) : State := { at_ t with dev := State.reset.dev.set 0x528 (BitVec.ofNat 64 (2 ^ 62)) }
def errOf (s : State) : Bool × Bool := (bitAt (s.devReg 0x528) 61, bitAt (s.devReg 0x528) 62)
def me0 (i : Instr) (t : Strand) : Strand := (out (exec i (commanded t))).strand 0

theorem witness_StrandCommandsAndReturn :
    errOf (commanded strandA) = (false, true) ∧ errOf (out (exec (.strandcmdResume 0) (commanded strandA))) = (true, false) ∧
    errOf (out (exec (.strandcmdKill 8) (commanded frozenA))) = (true, false) ∧ errOf (out (exec (.strandcmdResume 0) (commanded frozenA))) = (false, false) ∧
    (me0 (.strandcmdResume 0) frozenA).trap = none ∧ (me0 (.strandcmdResume 0) frozenA).replay = some ⟨7, 3⟩ ∧
    errOf (out (exec (.strandcmdHandler 0 0x7FF) (commanded frozenA))) = (true, false) ∧
    (let t := me0 (.strandcmdHandler 0 0xA00) frozenA
     t.handler = some ⟨0x900, 100, 0, some ⟨7, 3⟩, none, [], trapA⟩ ∧ t.mpc = 0xA00 ∧ t.cw 0x010 = 0x900 ∧ t.trap = none) ∧
    (let s := { commanded { frozenA with braid := some 1 } with braids := [(1, ⟨1, [0, 8], [], none, []⟩)] }
     s.frozen 8 = false ∧ (s.strand 8).trap = none ∧ ((s.resumeGang 0).strand 0).trap = none) := by decide +kernel

theorem witness_StrandCommandsAndReturn_kills :
    (let t := out (exec (.strandcmdKill 0) (commanded frozenA))
     t.tasks = [] ∧ t.strand 0 = Strand.idle ∧ errOf t = (false, false)) ∧
    (let t := out (exec (.uncorrectableError 0) (commanded strandA))
     t.tasks = [] ∧ t.strand 0 = Strand.idle) ∧
    ((out (exec (.strandcmdPreempt 0) (commanded strandA))).task 1).saving = some .saved ∧
    (let s := withMe (commanded strandA) { taskA with kind := .ballast } strandA
     (out (exec (.strandcmdPreempt 0) s)).tasks = []) ∧
    next (exec (.uncorrectableError 3) (commanded strandA)) (commanded strandA) = true ∧
    (let s := { commanded strandA with strands := [(0x8000, { strandA with task := 0 })] }
     errOf (out (exec (.strandcmdPreempt 0x8000) s)) = (true, false)) := by decide +kernel

/-- A strand in handler mode, with a landing frozen in it. -/
def handling : Strand := { strandA with
  handler := some ⟨0x910, 90, 0, some ⟨7, 3⟩, none, [], trapA⟩, cr := [(0x010, 0x910)], latches := [⟨3, 0, 120, true, .g 4 5 false⟩] }

theorem witness_StrandCommandsAndReturn_return :
    (me0 .sysret handling).returning = true ∧ (me0 .sysret strandA).trap.map (·.cls) = some .accv ∧
    (let h : Handler := ⟨0x910, 90, 0, some ⟨7, 3⟩, none, [], trapA⟩
     let t := handling.sysReturn h
     t.vcc = 90 ∧ t.mpc = 0x910 ∧ t.replay = some ⟨7, 3⟩ ∧ t.handler = none ∧ t.latches.map (·.frozen) = [false] ∧
     ({ handling with cr := [(0x010, 0x950)] }.sysReturn h).mpc = 0x950 ∧ ({ handling with cr := [(0x010, 0x950)] }.sysReturn h).replay = none) ∧
    (((commanded { handling with returning := true }).closeOne 0).strand 0).vcc = 90 := by decide +kernel

/-- Context 0 waiting at its third record, with the address space 1 mapped. -/
def halted (w : CtxWait) : State :=
  let s := paged A
  { s with curCtx := 7, ctxs := [(0, { s.ctx 0 with state := 2, wait := w, issued := 5 })] }
def woken (i : Instr) (w : CtxWait) : Bool :=
  let t := out (exec i (halted w))
  decide ((t.ctx 0).state = 1 ∧ (t.ctx 0).wait = .none ∧ t.agenda = [.walker 0] ∧ (t.ctx 0).walker.gpc = 2 ^ 32 + 32)
def passed (s : State) : Bool := decide ((s.ctx 0).state = 1 ∧ (s.ctx 0).wait = .none ∧ s.agenda = [] ∧ (s.ctx 0).walker.gpc = 2 ^ 32 + 64)
def still (i : Instr) (s : State) : Bool := next (exec i s) s
def leaves (s : State) : State := { s with ctxs := [(0, { s.ctx 0 with leaving := true })] }
def lined (j : Nat) : State := { halted .alloc with
  clusters := [(2, { Cluster.idle with allocWait := [(0, j)], regions := ⟨[(3, 0)], []⟩ })] }

theorem witness_WalkerWaitsAndTraps :
    woken (.recordWaitEnd 0) .record = true ∧ woken (.handleRewritePerform 0) .rewrite = true ∧
    still (.recordWaitEnd 0) (halted .rewrite) = true ∧ still (.handleRewritePerform 0) (halted .record) = true ∧
    still (.recordWaitEnd 0) (leaves (halted .record)) = true ∧ passed (out (exec (.recordWaitEnd 0) (halted (.quiescent 9)))) = true ∧
    still (.recordWaitEnd 0) { halted (.quiescent 9) with cancels := [(9, cancelOf 3 0 false [])] } = true ∧
    passed (out (exec (.yieldTimerExpire 0) (halted (.timer 0)))) = true ∧ still (.yieldTimerExpire 0) (halted (.timer 1)) = true := by decide +kernel

theorem witness_WalkerWaitsAndTraps_doorbell :
    still (.doorbellChange 0) (halted (.bell 0x200001000 4)) = true ∧
    (let s := (halted (.bell 0x200001000 4)).writeNat 0x40001000 8 6
     (s.vplaces 0x100000 .load (pageCut 0x200001000 8)).toOption = some [(0x40001000, 8)] ∧ passed (out (exec (.doorbellChange 0) s)) = true ∧
     ((out (exec (.doorbellChange 0) s)).ctx 0).walker.d.get 0 4 = 6) ∧
    (let t := out (exec (.doorbellChange 0) (halted (.bell 0x300001000 4)))
     (t.ctx 0).state = 3 ∧ (t.ctx 0).trap = some (.pgflt, 1, 0)) := by decide +kernel

theorem witness_WalkerWaitsAndTraps_alloc :
    still (.allocGrant 2) (halted .alloc) = true ∧ still (.allocGrant 2) (lined 4) = true ∧
    (let t := out (exec (.allocGrant 2) (lined 2))
     (t.ctx 0).state = 1 ∧ t.agenda = [.walker 0]) := by decide +kernel

theorem witness_WalkerWaitsAndTraps_trap :
    (Tp.frqFull = false ∧ Tp.sysPa (0x200100000 + 32 * (Tp.devReg 0x518 % Tp.frqSize)) .store = some 0x40100000 ∧ Memory.wf Tp.mem = true ∧
     (let t := Tp.walkerTrap .illshape 7
      (t.ctx 0).trap = some (.illshape, 1, 7) ∧ t.tasks = Tp.tasks ∧
      t.natAt 0x40100000 32 = 2 ^ 160 + 7 * 2 ^ 148 + 3 * 2 ^ 64 + TrapClass.illshape.code * 2 ^ 48 + 8 * 2 ^ 44)) ∧
    (let c := { Tp.ctx 0 with issued := 5, walker := { (Tp.ctx 0).walker with j := [(2, 1)] } }
     let s := { Tp with
       records := [(5, ⟨5, 0, 1, true, some 2, false, false, 0, 3, 1, 12, 4, 0, []⟩), (6, ⟨6, 0, 0, false, none, false, false, 0, 3, 1, 12, 4, 0, []⟩)]
       tasks := [(1, taskA), (11, waitsK 11 2), (12, { waitsK 12 2 with record := 6 })], ctxs := [(0, c)] }
     let t := s.walkerTrap .illshape 7
     (t.ctx 0).state = 3 ∧ (t.records.get? 5).map (fun r => (r.join, r.issuing)) = some (none, false) ∧ t.records.get? 6 = s.records.get? 6 ∧ (t.ctx 0).walker.j.get 0 2 = 0 ∧ t.tasks.map (·.1) = [12] ∧ t.strand 0 = Strand.idle) ∧
    (let s := { Tp with dev := Tp.dev.set 0x518 1024 }
     s.frqFull = true ∧ s.walkerTrap .illshape 7 = { s with telem := { s.telem with holding := true } }) := by decide +kernel

/-- Context 0 (stopped or not) with a parameter block at 0x50000, and device registers. -/
def ctl (state : Nat) (regs : Map Word) : State :=
  let s := (((((paged A).writeNat 0x50000 8 0x1000).writeNat 0x50008 8 0x1020).writeNat 0x50010 8 0x100000).writeNat 0x50018 8 9).writeNat
    0x50028 8 0x200000000
  { s with
    dev := regs.foldl (fun m e => m.set e.1 e.2) (State.reset.dev.set 0x108 0x50000)
    ctxs := [(0, { s.ctx 0 with state := state })] }
def cmd (c action : Nat) (s : State) : State := { s with service := { s.service with command := some (c, action) } }
def busyC (action : Nat) : Map Word := [(0x100, BitVec.ofNat 64 (action * 2 ^ 56 + 2 ^ 62))]
def cmdOf (s : State) : Nat × Bool × Bool := (fieldN (s.devReg 0x100) 56 2, bitAt (s.devReg 0x100) 61, bitAt (s.devReg 0x100) 62)
def runEvent (i : Instr) (s : State) : State := out (exec i s)

theorem witness_ControlCoreCommands :
    cmdOf (runEvent (.ctxStart 0) (ctl 1 [])) = (0, true, true) ∧ cmdOf (runEvent (.ctxStop 0) (ctl 0 [])) = (1, true, true) ∧
    cmdOf (runEvent (.ctxPreemptKeep 0) (ctl 0 [])) = (2, true, true) ∧ cmdOf (runEvent (.ctxPreemptDiscard 0) (ctl 0 [])) = (3, true, true) ∧
    still (.ctxStart 0) (cmd 0 1 (ctl 0 (busyC 1))) = true ∧ still (.ctxStop 64) (ctl 1 []) = true ∧
    (let s := ctl 1 []
     still (.ctxStop 0) { s with boot := { s.boot with phase := 2 } } = true) ∧
    (let s := ctl 0 []
     s.freeScope = some 1 ∧ Memory.wf s.mem = true ∧
     (let t := runEvent (.ctxStart 0) s
      (t.ctx 0).state = 1 ∧ (t.ctx 0).walker = ⟨0x1020, 0x1000, 0x200000000, 9, 0x100000, [], [], 1, 0, 1, [], []⟩ ∧
      t.scopes.get? 1 = some ⟨0, false, false, 0, 0, 0⟩ ∧ t.natAt 0x50020 8 = 1)) ∧
    cmdOf (runEvent (.ctxStart 0) ((ctl 0 []).writeNat 0x50028 8 0x200000040)) = (0, true, true) := by decide +kernel

theorem witness_ControlCoreCommands_stop :
    (let t := runEvent (.ctxStop 0) (ctl 1 [])
     (t.ctx 0).state = 0 ∧ (t.ctx 0).discarded = true ∧ t.tasks = [] ∧ t.strand 0 = Strand.idle) ∧
    (let t := runEvent (.ctxPreemptDiscard 0) (ctl 1 [])
     (t.ctx 0).state = 0 ∧ (t.ctx 0).discarded = true ∧ t.tasks = []) ∧
    (let t := runEvent (.ctxPreemptKeep 0) (ctl 1 [])
     (t.ctx 0).leaving = true ∧ (t.task 1).saving = some .evicted) ∧
    still .ctxcmdComplete (ctl 1 []) = true ∧ cmdOf (runEvent .ctxcmdComplete (cmd 0 0 (ctl 1 (busyC 0)))) = (0, false, false) ∧
    [1, 2, 3].all (fun a => still .ctxcmdComplete (cmd 0 a (ctl 1 (busyC a)))) = true := by decide +kernel

theorem witness_ControlCoreCommands_completes :
    (let s := { cmd 0 1 (leaves (ctl 1 (busyC 1))) with tasks := [] }
     let t := runEvent .ctxcmdComplete s
     cmdOf t = (1, false, false) ∧ t.service.command = none ∧ t.scopes = [] ∧ (s.ctx 0).walker.root = 3) ∧
    cmdOf (runEvent .ctxcmdComplete { cmd 0 3 (ctl 0 (busyC 3)) with tasks := [] }) = (3, false, false) ∧
    (let s := ctl 0 (busyC 2)
     let t := runEvent .ctxcmdComplete (cmd 0 2 (s.setDev 0x100 (setField (s.devReg 0x100) 61 1 1)))
     cmdOf t = (2, true, false)) := by decide +kernel

theorem witness_ControlCoreCommands_saves :
    (let s := { leaves (ctl 1 (busyC 2)) with tasks := [] }
     (s.vbytes 0x100000 0x200000000 0x40000).toOption.isSome = true ∧ (s.ctx 0).leaving = true ∧ Memory.wf s.mem = true) ∧
    (let s := ctl 0 []
     ({ s with ctxs := [(0, { s.ctx 0 with saved := some ctxA.walker })] }.ctx 0).saved.isSome = true) := by decide +kernel

/-- Translations of the address spaces 1 and 2, and the count of a shoot-down at 0x60000. -/
def mapped : State := { ctl 1 [(0x310, 0x60000)] with
  tlb := [⟨0, 1, 0x200000000, 0x10000, 0x40000000, true, true⟩, ⟨0, 1, 0x200010000, 0x10000, 0x40010000, true, true⟩,
    ⟨0, 2, 0x200000000, 0x10000, 0x40000000, true, true⟩]
  cores := [(0, { Core.idle with l1 := [⟨1, 0x200000000, 0x40000000, true⟩, ⟨2, 0x200000000, 0x40000000, true⟩] })] }
def tlbOf (i : Instr) : List (Nat × Nat) × Nat := ((runEvent i mapped).tlb.map (fun e => (e.asid, e.va)), ((runEvent i mapped).core 0).l1.length)

theorem witness_ControlCoreCommands_shootDown :
    tlbOf (.tinvPage 1 0x200000000 0) = ([(1, 0x200010000), (2, 0x200000000)], 1) ∧ tlbOf (.tinvAsid 1) = ([(2, 0x200000000)], 1) ∧
    tlbOf .tinvAll = ([], 0) ∧ (runEvent (.tinvPage 1 0x200000000 3) mapped).natAt 0x60000 8 = 0xFFFFFFFFFFFFFFFF ∧
    still .shootdownComplete mapped = true ∧ still .tinvAll (runEvent .tinvAll mapped) = true ∧
    (let t := runEvent .shootdownComplete (runEvent (.tinvAsid 1) mapped)
     t.tinvWait = none ∧ t.natAt 0x60000 8 = 1 ∧ bitAt (t.devReg 0x300) 63 = false) ∧
    (let s := { onChan [{ lin with places := some ([], []) }] with tinvWait := some [7 + 2 ^ 70] }
     still .shootdownComplete s = true) := by decide +kernel

theorem witness_ControlCoreCommands_spares :
    errOf (runEvent (.strandcmdResume 99) (ctl 1 [])) = (true, false) ∧
    (let s := ctl 1 [(0x110, BitVec.ofNat 64 (2 ^ 62 + 261))]
     let t := runEvent (.spareMap 2 5) s
     t.service.mapping = some 165 ∧ s.coreFits 165 64 = some (1320, 0) ∧ t.coreFits 165 64 = none ∧ still (.spareMap 2 6) t = true ∧
     (let u := runEvent (.spareMap 2 5) t
      u.service.spares.get 0 2 = 1 ∧ fieldN (u.devReg 0) 24 6 = 31 ∧ u.devReg 0x110 = 261 ∧ u.service.mapping = none)) ∧
    (let t := runEvent (.spareMap 0 0) (ctl 1 [])
     (t.task 1).saving = some .evicted ∧ still (.spareMap 0 0) t = true) ∧
    (let t := runEvent (.spareMap 8 5) (ctl 1 [])
     bitAt (t.devReg 0x110) 61 = true) := by decide +kernel

/-- A write of a device register in a module that is stopped or runs a context. -/
def wr (state off v : Nat) (regs : Map Word) : State := out (execRegisterWrite off v (ctl state regs))
def regIs (state off v : Nat) : Nat := (wr state off v []).devReg off
def ones : Nat := 2 ^ 64 - 1
def starts (off v : Nat) : Bool × Bool :=
  let t := wr 0 off v []
  (t.agenda.any (fun x => match x with
    | .event _ => true
    | _ => false), decide (t.agenda.length = 1))

theorem witness_RegisterWritesAndHostLinks :
    regIs 1 0x108 ones = 0x1FFFFFFFFFFF000 ∧ regIs 1 0x200 ones = 0xFFFC00FFFFFF ∧ regIs 1 0x308 ones = 0x1FFFFFFFFFF0000 ∧
    regIs 1 0x310 ones = 0xFFFFFFFFFFFFFFF8 ∧ regIs 1 0x600 ones = 0xFFFF ∧ regIs 1 0x610 ones = 2800 ∧ regIs 1 0x610 399 = 400 ∧
    regIs 1 0x618 ones = 0x1FFFFFFFFFFF01F ∧ regIs 0 0x500 ones = 0x1FFFFFFFFF00000 ∧ regIs 0 0x508 ones = 0x1FFFFFFFFFF0000 ∧
    regIs 0 0x510 ones = 0x1FFFFFFFFFFF01F ∧ regIs 1 0x208 3 = 2 ∧ regIs 0 0x208 3 = 3 ∧ regIs 0 0x010 3 = 0 ∧
    still (.registerWrite 0x500 0x100000) (ctl 1 []) = true ∧ still (.registerWrite 0x700 1) (ctl 0 []) = true := by decide +kernel

theorem witness_RegisterWritesAndHostLinks_commands :
    starts 0x100 (2 ^ 63 + 2 ^ 56) = (true, true) ∧ starts 0x100 (2 ^ 56) = (false, false) ∧ starts 0x110 (2 ^ 63 + 5) = (true, true) ∧
    starts 0x528 (2 ^ 63 + 3 * 2 ^ 56) = (true, true) ∧ starts 0x300 (2 ^ 62 + 2 ^ 18) = (true, true) ∧ starts 0x300 (2 ^ 63 + 2 ^ 18) = (false, false) ∧
    regIs 0 0x100 (2 ^ 63 + 2 ^ 56 + 9) = 2 ^ 62 + 2 ^ 56 + 9 ∧
    (let t := wr 0 0x100 (2 ^ 63 + 2 ^ 57 + 3) (busyC 1)
     t.devReg 0x100 = 2 ^ 62 + 2 ^ 57 + 3 ∧ t.agenda = []) ∧
    still (.registerWrite 0x528 1) (ctl 0 [(0x528, BitVec.ofNat 64 (2 ^ 62))]) = true ∧
    still (.registerWrite 0x300 1) (ctl 0 [(0x300, BitVec.ofNat 64 (2 ^ 63))]) = true := by decide +kernel

/-- A fault report queue of 1,024 entries with a number of them in it, and reports that wait. -/
def ring (n : Nat) (held : List Report) : State := { ctl 0 [(0x510, 0x20010000A), (0x518, BitVec.ofNat 64 n)] with frqHeld := held, ctrl := [(0, (1, 0x100000))] }
def rep : Report := ⟨8, .illshape, 0, 1, 7, 0, 0, 3, 0, 0⟩

theorem witness_RegisterWritesAndHostLinks_queue :
    still (.frqheadWrite 6) (ring 5 []) = true ∧ (runEvent (.frqheadWrite 5) (ring 5 [])).devReg 0x520 = 5 ∧
    (runEvent (.frqheadWrite 0) (ring 1024 [rep])).frqHeld = [rep] ∧
    (let t := runEvent (.registerWrite 0x520 1) (ring 1024 [rep])
     t.frqHeld = [] ∧ t.devReg 0x518 = 1025 ∧ t.natAt 0x40100000 32 / 2 ^ 160 = 1) := by decide +kernel

theorem witness_RegisterWritesAndHostLinks_pool :
    (ctl 1 []).poolIdle = false ∧ still (.kvPoolConfigWrite 0x400 (2 ^ 30)) (ctl 1 []) = true ∧ regIs 0 0x400 ones = 0x1FFFFFFC0000000 ∧
    regIs 0 0x410 ones = 0x1FFFFFFFFFFFFC0 ∧ regIs 0 0x408 2 = 2 ∧ (wr 0 0x408 2 []).kv.blocks.free = [(14, 0), (14, 2 ^ 14)] ∧
    regIs 0 0x418 ones = 0x1FFFFFFFFFF0001 ∧
    (let t := runEvent (.pfxvaWrite 0) { ctl 0 [(0x418, 1)] with pfx := [node] }
     t.pfx = [] ∧ t.devReg 0x418 = 0) := by decide +kernel

theorem witness_RegisterWritesAndHostLinks_plans :
    (let s := planned (going 3) [launchOf 3 0 2 [] [] []]
     ((runEvent (.planStoreWrite 0 24 77) s).cluster 0).planHeld = [(24, 77)] ∧
     ((runEvent (.registerWrite 0x100028 77) s).cluster 0).plan.get 0 2 = BitVec.ofNat 128 (77 * 2 ^ 64 + ((s.cluster 0).plan.get 0 2).toNat % 2 ^ 64) ∧
     ((runEvent (.planStoreWrite 0 0x1007F 0xFFFFFFFF) s).cluster 0).slots.get 0 15 = 0xFFF1FFF ∧ still (.planStoreWrite 0 0x10080 1) s = true ∧
     still (.planStoreWrite 80 0 1) s = true) := by decide +kernel

theorem witness_RegisterWritesAndHostLinks_links :
    still (.hostAccess 2 false 0 9) (ctl 0 []) = true ∧ (runEvent (.hostAccess 0 true 0x600 9) (ctl 0 [])).devReg 0x600 = 9 ∧
    (let s := { ctl 0 [] with boot := { State.reset.boot with phase := 2 } }
     still (.hostAccess 0 true 0x600 9) s = true ∧ still (.frameTransmit 0) s = true ∧ still (.frameReceive 1 [1]) s = true) ∧
    still (.frameReceive 8 [1]) (ctl 0 []) = true ∧ still (.frameTransmit 8) (ctl 0 []) = true := by decide +kernel

theorem witness_RegisterWritesAndHostLinks_frames :
    ((runEvent (.frameReceive 3 []) (ctl 0 [])).ports.get ⟨[], []⟩ 3).rx = [(0, [])] := by decide +kernel

/-- A module with device registers, and its state in service. -/
def booted (phase : Nat) (regs : Map Word) : State :=
  let s := ctl 1 regs
  { s with boot := { s.boot with phase := phase } }
def info (s : State) (lo n : Nat) : Nat := fieldN (s.devReg 0) lo n
def used4 : State := { ctl 0 [] with service := { State.reset.service with spares := [(2, 4)] } }

theorem witness_BootPowerAndService :
    (let t := runEvent .powerOn (ctl 1 [])
     t.boot.phase = 2 ∧ t.strands = [] ∧ t.mem = []) ∧
    still (.attestationReport [1]) (booted 1 []) = true ∧ still (.attestationReport (List.replicate 32 0)) (booted 2 []) = true ∧
    (booted 1 []).boot.phase = 1 ∧ still (.flashSlotSwitch 0) (booted 1 []) = true ∧ still (.flashSlotSwitch 2) (booted 1 []) = true := by
  decide +kernel

theorem witness_BootPowerAndService_power :
    ((runEvent (.powerControlTick 2801) (ctl 1 [])).power.hold = true) ∧ ((runEvent (.powerControlTick 2800) (ctl 1 [])).power.hold = false) ∧
    ((runEvent (.powerControlTick 11) (ctl 1 [(0x600, 10)])).power.hold = true) ∧
    (let s := { ctl 1 [(0x608, 10), (0x200, BitVec.ofNat 64 (2 ^ 35))] with power := ⟨30, 0, 0, 0, false, 2⟩ }
     let t := runEvent (.powerControlTick 19) s
     (t.cluster 7).demand = 1 ∧ ((runEvent (.powerControlTick 20) t).cluster 7).demand = 0) := by decide +kernel

theorem witness_BootPowerAndService_telemetry :
    (let s := { ctl 1 [(0x608, 10)] with power := ⟨30, 40, 30, 2, false, 2⟩ }
     let t := runEvent .telemetryRecord s
     Memory.wf s.mem = true ∧ t.telem.seq = 1 ∧ t.telem.rampev = 0 ∧ t.power = ⟨20, 0, 0, 0, false, 3⟩) ∧
    ((runEvent .telemetryRecord { ctl 1 [(0x608, 9)] with power := ⟨30, 40, 30, 2, false, 2⟩ }).telem.rampev = 1) ∧
    ((runEvent (.ptpLockChange false) (ctl 1 [])).service.ptpLock = false) := by decide +kernel

theorem witness_BootPowerAndService_failover :
    (let s := { ctl 1 [] with now := 11999999 }
     still .failover s = true ∧ (runEvent .heartbeat s).boot.beats = 11999999 ∧ info (runEvent .failover { s with now := 12000000 }) 17 1 = 1) ∧
    (let s := ctl 1 [(0, BitVec.ofNat 64 (2 ^ 17))]
     still .failover s = true ∧ still .heartbeat s = true) := by decide +kernel

theorem witness_BootPowerAndService_links :
    still (.laneReplace 36) (ctl 1 []) = true ∧ still (.hawserLinkDown 36) (ctl 1 []) = true ∧
    (runEvent (.laneReplace 35) (ctl 1 [])).service.lanes.get 0 35 = 1 ∧
    (let t := runEvent (.hawserLinkDown 35) (ctl 1 [])
     t.service.down = [35] ∧ info t 18 6 = 35 ∧ info (runEvent (.hawserLinkUp 35) t) 18 6 = 36) ∧
    still (.channelRetire 512) (ctl 1 []) = true ∧
    (let t := runEvent (.channelRetire 511) (ctl 1 [])
     t.service.retired = [511] ∧ info t 30 10 = 1 ∧ still (.channelRetire 511) t = true) := by decide +kernel

theorem witness_BootPowerAndService_cores :
    still (.coreRetire 8 0) (ctl 1 []) = true ∧
    (let t := runEvent (.coreRetire 2 5) (ctl 1 [])
     t.service.spares.get 0 2 = 1 ∧ info t 24 6 = 31 ∧ info t 40 10 = 640) ∧
    (let t := runEvent (.coreRetire 2 5) used4
     (t.core 165).removed = true ∧ info t 40 10 = 639 ∧ used4.coreFits 165 64 = some (1320, 0) ∧ t.coreFits 165 64 = none ∧
     still (.coreRetire 2 5) t = true) := by decide +kernel

theorem witness_BootPowerAndService_removal :
    still (.moduleRemoval 0) (ctl 1 []) = true ∧ (runEvent (.moduleRemoval 0) (ctl 0 [])).service.removed = true ∧
    still (.moduleRemoval 288) (ctl 1 []) = true ∧ (runEvent (.moduleRemoval 287) (ctl 1 [])).service.absent = [287] ∧
    still (.moduleRemoval 287) (runEvent (.moduleRemoval 287) (ctl 1 [])) = true := by decide +kernel

/-! Clauses that the witnesses above leave out. -/

/-- An output that is split over two stage modules, with a stage queue of one place (R226). -/
def StP : State := St.writeNat 0x40200040 64 (tmpl + 2 ^ 128 + 2 ^ 141)

theorem witness_GraphOperators_stages :
    (StP.partsOf [opR]).toOption.map (fun ps => (StP.entersQueue ps, StP.groupBad ps [1, 2])) = some (true, none) ∧
    State.stageDepth StP.wk.mesh = 1 ∧ StP.stageq = [] ∧
    (let s := { StP with stageq := [(0, 1)] }
     next (exec (.gOp opR) s) (recordWaits s .record) = true ∧ (out (s.act (.stageTake 0))).stageq = [(0, 0)]) := by decide +kernel

/-- A DROPPED entry in a block with two owners, whose pending entry has settled, and a pool with no other block (R280). -/
def shared : State :=
  let s := { withJob 2 0 5 with kv := ⟨⟨[], [(0, 1)]⟩⟩, dev := Sq.dev.set 0x410 0x200100000 }
  (s.writeNat 0x40100008 8 2).writeNat 0x40010140 8 1

theorem witness_RecordsAndBackfill_copyOnWrite :
    statusOf (withJob 2 0 5) = [[.g 9 0 false]] ∧ shared.refCount 0x100000 (0, 1) = 2 ∧ statusOf shared = [[.g 9 1 false]] ∧
    statusOf (shared.writeNat 0x40010140 8 2) = [[.g 9 1 false]] := by decide +kernel

theorem witness_RecordsAndBackfill_noPool :
    statusOf { withJob 2 0 5 with dev := Sq.dev.set 0x408 0 } = [[.g 9 3 false]] := by decide +kernel

theorem witness_WaitsAndOrdering_held :
    (let s := Wt.updMe (fun t => { t with timer := some 2 })
     (s.waitTest (.sleep 0 5)).2.me.wait = .sleep 7 ∧ (({ s with now := 7 } : State).waitTest (.sleep 0 5)).1 = true) ∧
    (let s := Wt.updMe (fun t => { t with base := 16, wq := [⟨9, .order .acq 4 0 0, false⟩] })
     s.me.heldRead 0x1001000 8 = true ∧ s.waitTest (.waitw 2 1 0 0) = (false, s.updMe (fun t => { t with wait := .word (2 ^ 58 + 0x1000) 0x1000 7 0 }))) ∧
    (let s := { Wt with tlb := [] }
     next (exec (.acqh 8 3) s) (s.updMe (fun t => { t with xlat := [⟨0x200000040, 64, 0, .desc .acqh 3, false⟩] })) = true) ∧
    (let s := { Wt with tlb := [⟨0, 1, 0x200000000, 65536, 0x10000, false, true⟩] }
     next (exec (.relh 8 3) s) (s.raiseVa .accv 0x200000040 .load (sizeLevel 65536)) = true) ∧
    (let s := { at_ strandA with cores := [(0, { Core.idle with icache := [⟨1, 5, 0⟩], cs := [(3, [0])] })] }
     ((out (exec (.isync yes) s)).core 0).icache = [] ∧ ((out (exec (.isync yes) s)).core 0).cs = []) := by decide +kernel

theorem witness_SpawnsCancelsScopes_weight :
    (let s := { Sp with dev := Sp.dev.set 0x208 1, tasks := [(1, { taskA with weight := 1 })] }
     s.canSpawn 0 = false ∧ (out (exec (.spawnNb 4 1 2) s)).me.latches.map (·.val) = [.p 4 false] ∧
     ((out (exec (.spawnB 4 1 2) s)).task 1).saving = some .parked ∧ ((out (exec (.spawnB 4 1 2) s)).task 1).asker = 0) := by decide +kernel

theorem witness_StepRunsDecodedInstruction_recovery :
    (let s := { Wt with boot := { Wt.boot with phase := 2 }, agenda := [.strand 0] }
     next (step s) { s with agenda := [] } = true) ∧
    (let s := { A with boot := { A.boot with phase := 1, slot := 0 } }
     (out (s.act (.flashWrite 0 [[1], [2], [3]]))).boot.flash.map (fun f => (f.1, f.2.rootKey, f.2.image, f.2.sig)) = [(1, [1], [2], [3])] ∧
     next (({ s with boot := { s.boot with slot := 1 } } : State).act (.flashWrite 0 [[1], [2], [3]])) { s with boot := { s.boot with slot := 1 } } = true) := by
  decide +kernel

theorem witness_LandingsTakeEffect_late :
    (let s := A.updMe (fun t => { t with
       latches := [⟨3, 0, 100, false, .g 8 30 false⟩], lb := [⟨1, 99, [.g 8 70 false], false, false, .data, []⟩] })
     let u := (s.deliver 0).strand 0
     u.reg 8 = ⟨30, false⟩ ∧ u.lb.map (fun e => (e.id, e.vals, e.left 0)) = [(1, [.g 8 70 false], [])]) ∧
    (let s := { waiting (.fill 0x120) with parts := [⟨ucodeBase 0 0 + 512 * 0x120 + 64, 9, [(2, 0)]⟩] }
     ((out (exec (.controlStoreFill 0 0x120) s)).core 0).cs = [(0x120, [0, 9, 0, 0, 0, 0, 0, 0])]) := by decide +kernel

theorem witness_CommunicationStarts_held :
    (let s := { comm [toHbm (fresh .rtr 7)] with power := { State.reset.power with hold := true } }
     next (exec (.putMatch 0 7) s) s = true) ∧
    (let s := { planned (planOp 3) [] with power := { State.reset.power with hold := true } }
     next (exec (.planEntryStart 0 7) s) s = true) ∧
    (let s := { planned (going 3) [launchOf 3 0 2 [] [] []] with power := { State.reset.power with hold := true } }
     next (exec (.planEntryStart 0 7) s) s = true) ∧
    (let s := { comm [{ fresh .put 6 with started := true }, fresh .put 7, nop .rtr 8] with posts := [buffer 8] }
     s.putBehind (fresh .put 7) = true ∧ nqIs (out (exec (.putMatch 0 7) s)) = [(6, 0, true, false), (7, 0, true, false), (8, 0, true, false)]) ∧
    (let l := launchOf 4 2 2 [(2, 1), (3, 2)] [] []
     let s := planned (going 4) [l]
     let b := { s with
       clusters := s.clusters ++ [(1, { s.cluster 0 with launches := [{ launchOf 4 2 2 [(3, 1)] [] [] with id := 20, core := 8 }] })]
       posts := [post9 2 none] }
     s.sendBehind 0 l 3 = false ∧ b.sendBehind 0 l 3 = true ∧ next (exec (.planEntryComplete 0 7 3) b) b = true) := by decide +kernel

/-- The save area of strand 0, at 2^30, with numbers in it, and a strand saved with other ones. -/
def Area : State :=
  ((((Tp.writeNat 0x40000088 8 77).writeNat 0x40000280 8 4).writeNat 0x40000288 8 8).writeNat 0x400003C0 8 (2 + 2 * 2 ^ 24)).writeNat 0x40000700 16
    (0x905 + 2 ^ 64 * 0x906)
def keptA : Saved := ⟨0, { Strand.idle with task := 1, amRows := 1 }, List.replicate 512 7, List.replicate 512 false⟩

theorem witness_TasksDispatchAndResume_area :
    (Area.sysGet (Area.saveArea 0 + 0x80) 0xA80).isSome = true ∧ (Area.sysGet (Area.saveArea 0 + 0x1000) 0x4000).isSome = true ∧
    (Area.sysGet (Area.saveArea 0 + 0x10000) 512).isSome = true ∧
    (let y := Area.loadStrand keptA
     y.strand.reg 1 = ⟨77, false⟩ ∧ y.strand.reg 2 = ⟨0, true⟩ ∧ y.strand.pred 3 = true ∧ y.strand.depth = 2 ∧ y.strand.opened = 2 ∧
     y.strand.rstack = [0x905, 0x906] ∧ y.rows.length = 512 ∧ y.rows.take 1 = [0]) := by decide +kernel

/-- Strand 0 paused for a translation in the middle of a bundle. -/
def midBundle (s : State) : State := s.setStrand 0 { s.strand 0 with xlat := [accL 0x300000000] }

theorem witness_Kills_wait :
    (let s := midBundle (withMe (pool []) ballastK { Strand.idle with task := 10 })
     let t := out (exec (.ballastKill 10) s)
     s.atBoundary ballastK = false ∧ t.tasks = s.tasks ∧ t.isDoomed 10 0 = true) ∧
    (let s := midBundle (commanded strandA)
     let t := out (exec (.strandcmdKill 0) s)
     t.tasks = s.tasks ∧ t.strands = s.strands ∧ t.isDoomed 1 0 = true) ∧
    (let s := midBundle (felling (cancelOf 3 0 false []) (runningK 11 2))
     (takes 0 s).isDoomed 11 0 = true ∧ (takes 0 s).tasks.length = 1 ∧ tally (takes 0 s) = some ([0], 2, 2)) ∧
    (let s := { commanded frozenA with frqHeld := [⟨0, .pgflt, 0, 0, 0, 0, 0, 0, 0, 0⟩] }
     s.reportHeld 0 = true ∧ next (exec (.strandcmdResume 0) s) (s.busyCommand 0x528) = true ∧
     next (exec (.strandcmdHandler 0 0xA00) s) (s.busyCommand 0x528) = true) := by decide +kernel

theorem witness_StrandCommandsAndReturn_engines :
    (let t := out (execUncorrectableError (2 ^ 16) (mat [run2 0 12] []))
     mqOf t = [] ∧ t.me.fails = [⟨.mchk, 0, 0, 0⟩]) ∧
    (let t := out (execUncorrectableError (2 ^ 17) (mat [] [gready]))
     (t.core 0).gq = [] ∧ t.me.fails = [⟨.mchk, 0, 0, 0⟩]) := by decide +kernel

theorem witness_WalkerWaitsAndTraps_undo :
    (let s := { Gs with dev := State.reset.dev.set 0x518 1024 }
     s.walkerTrap .illenc 0 = { s with telem := { s.telem with holding := true } }) ∧
    (let t := Go1.walkerTrap .illenc 6
     Go1.tasks.map (·.1) = [1, 11] ∧ t.tasks.map (·.1) = [1] ∧ (t.ctx 0).state = 3 ∧ t.records.map (fun r => (r.1, r.2.total, r.2.returned)) = [(10, 1, 1)]) := by
  decide +kernel

theorem witness_TerminationAndStealing_order :
    (let s := { spare 1 none with steal := { (spare 1 none).steal with token := some (5, 0) } }
     next (exec (.stealTokenPass 0 0) s) s = true) := by decide +kernel

/-- A task of a SEQ record that appends position 3, over, in a module whose block of that position has two owners and no other is free. -/
def appends (desc : Nat) : Task := { ran (waitsK 10 2) with seq := some ⟨desc, 0, 1, 3, true⟩ }
def full (s : State) : State := { s with kv := ⟨⟨[], [(0, 1)]⟩⟩, dev := s.dev.set 0x410 0x200100000 }.writeNat 0x40100008 8 2

theorem witness_JobsTasksAndRecordsRetire_appends :
    (let s := full (endedOn (appends 0x200001000))
     next (exec (.taskRetire 10) s) s = true ∧ (out (exec (.taskRetire 10) (s.writeNat 0x40010140 8 1))).kvWait = [(1, 10)]) ∧
    (let s := endedOn (appends 0x200001010)
     ((retireK s).ctx 0).state = 3 ∧ (retireK s).tasks = []) := by decide +kernel

end Sys2Proof.Tests
end

section
/-! SUPPORT. What a strand's due results do when they land: the order in which they are taken, what each of them writes, and what a later
one leaves of an entry that is late (R60, R63, R68). It settles the statement about landings. -/

namespace Sys2Proof.Machine

open Sys2Proof

/-! Folds. -/

/-- In a list ordered by `R`, what `x` brings about stands at the end where each other element either keeps it or lies before `x`. -/
theorem foldl_of_last {σ α : Type} {f : σ → α → σ} {R : α → α → Prop} {P : σ → Prop} {x : α} {l : List α} (sorted : l.Pairwise R)
    (mem : x ∈ l) (sets : ∀ s, P (f s x)) (others : ∀ y ∈ l, y = x ∨ ¬ R x y ∨ ∀ s, P s → P (f s y)) (s : σ) : P (l.foldl f s) := by
  induction l generalizing s with
  | nil => cases mem
  | cons y l ih =>
    obtain ⟨hy, hl⟩ := List.pairwise_cons.1 sorted
    by_cases hx : x ∈ l
    · exact ih hl hx (fun z hz => others z (List.mem_cons_of_mem y hz)) (f s y)
    · obtain rfl : x = y := (List.mem_cons.1 mem).resolve_right hx
      refine List.foldlRecOn l f (sets s) (fun u hu z hz => ?_)
      rcases others z (List.mem_cons_of_mem x hz) with rfl | h | h
      · exact absurd hz hx
      · exact absurd (hy z hz) h
      · exact h u hu

/-! The order of R63. -/

/-- The order of landing steps, then of issue. -/
def landsNoLater {α : Type} (x y : Nat × Nat × α) : Prop := x.1 < y.1 ∨ x.1 = y.1 ∧ x.2.1 ≤ y.2.1

theorem mem_insertDue (x z : Nat × Nat × List LandVal) (l : List (Nat × Nat × List LandVal)) :
    z ∈ insertDue x l ↔ z = x ∨ z ∈ l := by
  induction l with
  | nil => simp [insertDue]
  | cons y l ih =>
    unfold insertDue
    split
    · exact List.mem_cons
    · rw [List.mem_cons, ih, List.mem_cons, or_left_comm]

theorem insertDue_pairwise (x : Nat × Nat × List LandVal) (l : List (Nat × Nat × List LandVal)) (h : l.Pairwise landsNoLater) :
    (insertDue x l).Pairwise landsNoLater := by
  induction l with
  | nil => exact List.pairwise_singleton _ x
  | cons y l ih =>
    obtain ⟨hy, hl⟩ := List.pairwise_cons.1 h
    unfold insertDue
    split <;> rename_i hxy <;> simp only [Bool.or_eq_true, Bool.and_eq_true, beq_iff_eq, decide_eq_true_eq] at hxy
    · refine List.pairwise_cons.2 ⟨fun z hz => ?_, h⟩
      rcases List.mem_cons.1 hz with rfl | hz
      · unfold landsNoLater; omega
      · have := hy z hz
        unfold landsNoLater at this ⊢; omega
    · refine List.pairwise_cons.2 ⟨fun z hz => ?_, ih hl⟩
      rcases (mem_insertDue x z l).1 hz with rfl | hz
      · unfold landsNoLater; omega
      · exact hy z hz

theorem mem_foldl_insertDue (l acc : List (Nat × Nat × List LandVal)) (z : Nat × Nat × List LandVal) :
    z ∈ l.foldl (fun acc x => insertDue x acc) acc ↔ z ∈ acc ∨ z ∈ l := by
  induction l generalizing acc with
  | nil => simp
  | cons x l ih => rw [List.foldl_cons, ih, mem_insertDue, List.mem_cons, or_comm (a := z = x), or_assoc]

theorem Strand.dueList_pairwise (t : Strand) (gid v : Nat) : (t.dueList gid v).Pairwise landsNoLater :=
  List.foldlRecOn (motive := List.Pairwise landsNoLater) _ _ List.Pairwise.nil (fun acc h x _ => insertDue_pairwise x acc h)

/-! The results that land, one by one. -/

/-- The single results due by a VCC, each with its step and its place of issue, in the order in which they land. -/
def Strand.landings (t : Strand) (gid v : Nat) : List (Nat × Nat × LandVal) :=
  (t.dueList gid v).flatMap (fun z => z.2.2.map (fun w => (z.1, z.2.1, w)))

theorem Strand.landings_pairwise (t : Strand) (gid v : Nat) : (t.landings gid v).Pairwise landsNoLater := by
  refine List.pairwise_flatMap.2 ⟨fun z _ => ?_, (t.dueList_pairwise gid v).imp (fun {a b} hab => ?_)⟩
  · exact List.pairwise_map.2 (List.pairwise_of_forall (fun _ _ => .inr ⟨rfl, le_rfl⟩))
  · intro x hx y hy
    obtain ⟨_, _, rfl⟩ := List.mem_map.1 hx
    obtain ⟨_, _, rfl⟩ := List.mem_map.1 hy
    exact hab

theorem Strand.mem_landings (t : Strand) (gid v : Nat) (x : Nat × Nat × LandVal) :
    x ∈ t.landings gid v ↔ x ∈ (t.latches.filter (Latch.lands v)).map (fun l => (l.due, l.id, l.val)) ++
      (t.lb.filter (LandEntry.lands v)).flatMap (fun e => (e.left gid).map (fun w => (e.due, e.id, w))) := by
  have flat : (t.latches.filter (Latch.lands v)).map (fun l => (l.due, l.id, l.val)) ++
      (t.lb.filter (LandEntry.lands v)).flatMap (fun e => (e.left gid).map (fun w => (e.due, e.id, w))) =
      ((t.latches.filter (Latch.lands v)).map (fun l => (l.due, l.id, [l.val])) ++
        (t.lb.filter (LandEntry.lands v)).map (fun e => (e.due, e.id, e.left gid))).flatMap
          (fun z => z.2.2.map (fun w => (z.1, z.2.1, w))) := by
    rw [List.flatMap_append, List.flatMap_map, List.flatMap_map, List.map_eq_flatMap]
    rfl
  simp only [flat, Strand.landings, Strand.dueList, List.mem_flatMap, mem_foldl_insertDue, List.not_mem_nil, false_or]

/-! Registers and predicates. -/

namespace Strand

theorem setReg_only (t : Strand) (r : Nat) (v : Word) (p : Bool) : ∃ g, t.setReg r v p = { t with g := g } := by
  unfold setReg
  split
  · exact ⟨t.g, rfl⟩
  · exact ⟨_, rfl⟩

theorem setPred_only (t : Strand) (n : Nat) (v : Bool) : ∃ p, t.setPred n v = { t with p := p } := by
  unfold setPred
  split
  · exact ⟨t.p, rfl⟩
  · exact ⟨_, rfl⟩

theorem reg_setPred (t : Strand) (n r : Nat) (v : Bool) : (t.setPred n v).reg r = t.reg r := by
  rw [reg, setPred_g, reg]

theorem pred_setReg (t : Strand) (n r : Nat) (v : Word) (p : Bool) : (t.setReg n v p).pred r = t.pred r := by
  rw [pred, setReg_p, pred]

end Strand

/-- A strand whose results due by a VCC are taken out of its latches and of its landing buffer. -/
def Strand.withoutDue (t : Strand) (v : Nat) : Strand :=
  { t with latches := t.latches.filter (fun l => !l.lands v), lb := t.lb.filter (fun e => !e.lands v) }

namespace State

/-- One result of a strand landing: the earlier entries lose its destination, and it is written there. -/
def landAt (sid : Nat) (s : State) (x : Nat × Nat × LandVal) : State :=
  (s.updStrand sid (fun t => t.supersede x.1 x.2.1 (landKey x.2.2) x.2.2.size)).applyVal sid x.2.2

theorem deliver_eq (s : State) (sid : Nat) :
    s.deliver sid = ((s.strand sid).landings (gidOf sid) (s.strand sid).vcc).foldl (landAt sid)
      (s.setStrand sid ((s.strand sid).withoutDue (s.strand sid).vcc)) := by
  simp only [Strand.landings, List.foldl_flatMap, List.foldl_map]
  rfl

/-! What one result writes. -/

/-- What a LATCH receives goes to memory or into the write queue. -/
theorem strand_landLatch (s : State) (sid va cell : Nat) (bs : List Byte) (po : List Bool) :
    (∃ wq, (s.landLatch sid va cell bs po).strand sid = { s.strand sid with wq := wq }) ∧
    ∀ n, n ≠ sid → (s.landLatch sid va cell bs po).strand n = s.strand n := by
  unfold landLatch
  dsimp only
  split
  · exact ⟨⟨_, strand_setStrand_same s sid _⟩, fun n h => strand_setStrand_other s sid n _ h⟩
  · exact ⟨⟨(s.strand sid).wq, rfl⟩, fun _ _ => rfl⟩

/-- What a landing does to its strand: it writes a general register or a predicate, or none of the two (R60, R213). -/
theorem strand_applyVal_cases (s : State) (sid : Nat) (w : LandVal) :
    let t := s.strand sid
    let u := (s.applyVal sid w).strand sid
    (∃ r v p, w = .g r v p ∧ u = t.setReg r v p) ∨ (∃ r v, w = .p r v ∧ u = t.setPred r v) ∨
    (∃ pd a c n b v wq x, w = .latch pd a c n b v ∧ u = { t with wq := wq }.setPred pd x) ∨
    ∃ cr f sc, u = { t with cr := cr, fmtr := f, scopeId := sc } := by
  cases w with
  | g r v p => exact .inl ⟨r, v, p, rfl, strand_updStrand_same s sid _⟩
  | p r v => exact .inr (.inl ⟨r, v, rfl, strand_updStrand_same s sid _⟩)
  | latch pd va cell n b v =>
    refine .inr (.inr (.inl ?_))
    simp only [applyVal]
    split
    · rename_i c _
      obtain ⟨⟨wq, hwq⟩, -⟩ := strand_landLatch s sid va cell (c.bytes.take n) (c.poison.take n)
      exact ⟨_, _, _, _, _, _, wq, true, rfl, by rw [strand_updStrand_same, hwq]⟩
    · exact ⟨_, _, _, _, _, _, (s.strand sid).wq, false, rfl, strand_updStrand_same s sid _⟩
  | creg n v => exact .inr (.inr (.inr ⟨_, _, _, strand_updStrand_same s sid _⟩))
  | fmtr v => exact .inr (.inr (.inr ⟨_, _, _, strand_updStrand_same s sid _⟩))
  | scope v => exact .inr (.inr (.inr ⟨_, _, _, strand_updStrand_same s sid _⟩))
  | row r bs po => exact .inr (.inr (.inr ⟨_, _, _, rfl⟩))
  | bytes a bs po => exact .inr (.inr (.inr ⟨_, _, _, rfl⟩))

/-- A landing leaves the rest of its strand alone. -/
theorem applyVal_only (s : State) (sid : Nat) (w : LandVal) : ∃ g p cr f sc wq,
    (s.applyVal sid w).strand sid = { s.strand sid with g := g, p := p, cr := cr, fmtr := f, scopeId := sc, wq := wq } := by
  rcases strand_applyVal_cases s sid w with ⟨r, v, p, -, h⟩ | ⟨r, v, -, h⟩ | ⟨pd, _, _, _, _, _, wq, x, -, h⟩ | ⟨cr, f, sc, h⟩
  · obtain ⟨g, hg⟩ := (s.strand sid).setReg_only r v p
    exact ⟨g, _, _, _, _, _, h.trans hg⟩
  · obtain ⟨p, hp⟩ := (s.strand sid).setPred_only r v
    exact ⟨_, p, _, _, _, _, h.trans hp⟩
  · obtain ⟨p, hp⟩ := ({ s.strand sid with wq := wq } : Strand).setPred_only pd x
    exact ⟨_, p, _, _, _, wq, h.trans hp⟩
  · exact ⟨_, _, cr, f, sc, _, h⟩

theorem strand_applyVal_other (s : State) (sid n : Nat) (w : LandVal) (h : n ≠ sid) : (s.applyVal sid w).strand n = s.strand n := by
  cases w with
  | row => rfl
  | bytes => rfl
  | latch pd va cell k b v =>
    simp only [applyVal]
    split
    · rw [strand_updStrand_other _ _ _ _ h, (strand_landLatch _ _ _ _ _ _).2 n h]
    · exact strand_updStrand_other _ _ _ _ h
  | g => exact strand_updStrand_other _ _ _ _ h
  | p => exact strand_updStrand_other _ _ _ _ h
  | creg => exact strand_updStrand_other _ _ _ _ h
  | fmtr => exact strand_updStrand_other _ _ _ _ h
  | scope => exact strand_updStrand_other _ _ _ _ h

theorem reg_applyVal_g (s : State) (sid r : Nat) (v : Word) (p : Bool) (h : r ≠ 0) :
    ((s.applyVal sid (.g r v p)).strand sid).reg r = ⟨v, p⟩ := by
  rw [applyVal, strand_updStrand_same, Strand.reg_setReg, if_pos ⟨rfl, h⟩]

theorem reg_applyVal_other (s : State) (sid r : Nat) (w : LandVal) (hg : ∀ v p, w ≠ .g r v p) :
    ((s.applyVal sid w).strand sid).reg r = (s.strand sid).reg r := by
  rcases strand_applyVal_cases s sid w with ⟨n, v, p, rfl, h⟩ | ⟨n, v, -, h⟩ | ⟨pd, _, _, _, _, _, wq, x, -, h⟩ | ⟨cr, f, sc, h⟩
  · have : r ≠ n := by rintro rfl; exact hg v p rfl
    rw [h, Strand.reg_setReg, if_neg (fun e => this e.1)]
  · rw [h, Strand.reg_setPred]
  · rw [h, Strand.reg_setPred]; rfl
  · rw [h]; rfl

theorem pred_applyVal_p (s : State) (sid r : Nat) (v : Bool) (h : r ≠ 0) : ((s.applyVal sid (.p r v)).strand sid).pred r = v := by
  rw [applyVal, strand_updStrand_same, Strand.pred_setPred, if_pos ⟨rfl, h⟩]

theorem pred_applyVal_other (s : State) (sid r : Nat) (w : LandVal) (hp : ∀ v, w ≠ .p r v) (hl : ∀ a c n b v, w ≠ .latch r a c n b v) :
    ((s.applyVal sid w).strand sid).pred r = (s.strand sid).pred r := by
  rcases strand_applyVal_cases s sid w with ⟨n, v, p, -, h⟩ | ⟨n, v, rfl, h⟩ | ⟨pd, a, c, n, b, v, wq, x, rfl, h⟩ | ⟨cr, f, sc, h⟩
  · rw [h, Strand.pred_setReg]
  · have : r ≠ n := by rintro rfl; exact hp v rfl
    rw [h, Strand.pred_setPred, if_neg (fun e => this e.1)]
  · have : r ≠ pd := by rintro rfl; exact hl a c n b v rfl
    rw [h, Strand.pred_setPred, if_neg (fun e => this e.1)]; rfl
  · rw [h]; rfl

/-! One landing. -/

theorem reg_landAt_g (s : State) (sid r due id : Nat) (v : Word) (p : Bool) (h : r ≠ 0) :
    ((s.landAt sid (due, id, .g r v p)).strand sid).reg r = ⟨v, p⟩ :=
  reg_applyVal_g _ sid r v p h

theorem reg_landAt_other (s : State) (sid r : Nat) (x : Nat × Nat × LandVal) (h : ∀ v p, x.2.2 ≠ .g r v p) :
    ((s.landAt sid x).strand sid).reg r = (s.strand sid).reg r := by
  rw [landAt, reg_applyVal_other _ _ _ _ h, strand_updStrand_same]
  rfl

theorem pred_landAt_p (s : State) (sid r due id : Nat) (v : Bool) (h : r ≠ 0) :
    ((s.landAt sid (due, id, .p r v)).strand sid).pred r = v :=
  pred_applyVal_p _ sid r v h

theorem pred_landAt_other (s : State) (sid r : Nat) (x : Nat × Nat × LandVal) (hp : ∀ v, x.2.2 ≠ .p r v)
    (hl : ∀ a c n b v, x.2.2 ≠ .latch r a c n b v) : ((s.landAt sid x).strand sid).pred r = (s.strand sid).pred r := by
  rw [landAt, pred_applyVal_other _ _ _ _ hp hl, strand_updStrand_same]
  rfl

theorem strand_landAt_other (s : State) (sid n : Nat) (x : Nat × Nat × LandVal) (h : n ≠ sid) :
    (s.landAt sid x).strand n = s.strand n := by
  rw [landAt, strand_applyVal_other _ _ _ _ h, strand_updStrand_other _ _ _ _ h]

end State

/-- What an entry of the landing buffer keeps when a result lands (R68). -/
def LandEntry.lose (e : LandEntry) (x : Nat × Nat × LandVal) : LandEntry :=
  if e.due < x.1 || (e.due == x.1 && decide (e.id < x.2.1)) then { e with newer := (landKey x.2.2, x.2.2.size) :: e.newer } else e

namespace State

theorem landAt_only (s : State) (sid : Nat) (x : Nat × Nat × LandVal) : ∃ g p cr f sc wq,
    (s.landAt sid x).strand sid = { s.strand sid with
      g := g, p := p, cr := cr, fmtr := f, scopeId := sc, wq := wq, lb := (s.strand sid).lb.map (fun e => e.lose x) } := by
  obtain ⟨g, p, cr, f, sc, wq, h⟩ :=
    applyVal_only (s.updStrand sid (fun t => t.supersede x.1 x.2.1 (landKey x.2.2) x.2.2.size)) sid x.2.2
  exact ⟨g, p, cr, f, sc, wq, by rw [landAt, h, strand_updStrand_same]; rfl⟩

/-! All the landings of a step. -/

theorem foldl_landAt_only (l : List (Nat × Nat × LandVal)) (s : State) (sid : Nat) : ∃ g p cr f sc wq,
    (l.foldl (landAt sid) s).strand sid = { s.strand sid with
      g := g, p := p, cr := cr, fmtr := f, scopeId := sc, wq := wq, lb := (s.strand sid).lb.map (fun e => l.foldl LandEntry.lose e) } := by
  induction l generalizing s with
  | nil =>
    refine ⟨(s.strand sid).g, (s.strand sid).p, (s.strand sid).cr, (s.strand sid).fmtr, (s.strand sid).scopeId, (s.strand sid).wq, ?_⟩
    simp only [List.foldl_nil, List.map_id']
  | cons x l ih =>
    obtain ⟨g, p, cr, f, sc, wq, h⟩ := ih (s.landAt sid x)
    obtain ⟨_, _, _, _, _, _, h1⟩ := s.landAt_only sid x
    refine ⟨g, p, cr, f, sc, wq, ?_⟩
    rw [List.foldl_cons, h, h1]
    simp only [List.map_map, List.foldl_cons, Function.comp_def]

/-- What a strand's step leaves of it besides the destinations of what lands. -/
theorem deliver_only (s : State) (sid : Nat) : let t := s.strand sid
    ∃ g p cr f sc wq, (s.deliver sid).strand sid = { t with
      g := g, p := p, cr := cr, fmtr := f, scopeId := sc, wq := wq
      latches := t.latches.filter (fun l => !l.lands t.vcc)
      lb := (t.lb.filter (fun e => !e.lands t.vcc)).map (fun e => (t.landings (gidOf sid) t.vcc).foldl LandEntry.lose e) } := by
  intro t
  obtain ⟨g, p, cr, f, sc, wq, h⟩ := foldl_landAt_only (t.landings (gidOf sid) t.vcc) (s.setStrand sid (t.withoutDue t.vcc)) sid
  refine ⟨g, p, cr, f, sc, wq, ?_⟩
  rw [deliver_eq, h, strand_setStrand_same]
  rfl

theorem strand_deliver_other (s : State) (sid n : Nat) (h : n ≠ sid) : (s.deliver sid).strand n = s.strand n := by
  rw [deliver_eq]
  exact List.foldlRecOn (motive := fun u => u.strand n = s.strand n) _ _ (strand_setStrand_other _ _ _ _ h)
    (fun u hu x _ => (strand_landAt_other u sid n x h).trans hu)

/-- The latest landing holds (R63), whatever is read off the state: `x` sets it, and no other landing both changes it and comes after `x`. -/
theorem deliver_of_last (s : State) (sid : Nat) {P : State → Prop} {x : Nat × Nat × LandVal}
    (mem : x ∈ (s.strand sid).landings (gidOf sid) (s.strand sid).vcc) (sets : ∀ u : State, P (u.landAt sid x))
    (others : ∀ y ∈ (s.strand sid).landings (gidOf sid) (s.strand sid).vcc,
      y = x ∨ (y.1 < x.1 ∨ y.1 = x.1 ∧ y.2.1 < x.2.1) ∨ ∀ u : State, P u → P (u.landAt sid y)) : P (s.deliver sid) := by
  rw [deliver_eq]
  refine foldl_of_last (Strand.landings_pairwise _ _ _) mem sets (fun y hy => ?_) _
  refine (others y hy).imp_right (Or.imp_left (fun h => ?_))
  unfold landsNoLater
  omega

/-- What no landing of a step changes stays (R60). -/
theorem deliver_of_kept (s : State) (sid : Nat) {P : State → Prop}
    (start : P (s.setStrand sid ((s.strand sid).withoutDue (s.strand sid).vcc)))
    (keeps : ∀ y ∈ (s.strand sid).landings (gidOf sid) (s.strand sid).vcc, ∀ u : State, P u → P (u.landAt sid y)) : P (s.deliver sid) := by
  rw [deliver_eq]
  exact List.foldlRecOn _ _ start (fun u hu y hy => keeps y hy u hu)

end State

/-! What is left of a late entry (R68). -/

theorem LandEntry.foldl_lose_only (l : List (Nat × Nat × LandVal)) (e : LandEntry) :
    ∃ ns, l.foldl LandEntry.lose e = { e with newer := ns } :=
  List.foldlRecOn (motive := fun e' : LandEntry => ∃ ns, e' = { e with newer := ns }) l _ ⟨e.newer, rfl⟩ (by
    rintro _ ⟨ns, rfl⟩ x _
    unfold LandEntry.lose
    split
    · exact ⟨_, rfl⟩
    · exact ⟨ns, rfl⟩)

theorem LandEntry.mem_newer_lose (e : LandEntry) (x : Nat × Nat × LandVal) (o : (Nat × Nat) × Nat) (h : o ∈ e.newer) :
    o ∈ (e.lose x).newer := by
  unfold LandEntry.lose
  split
  · exact List.mem_cons_of_mem _ h
  · exact h

theorem LandEntry.mem_newer_foldl_lose (l : List (Nat × Nat × LandVal)) (e : LandEntry) (x : Nat × Nat × LandVal) (hx : x ∈ l)
    (h : e.due < x.1 ∨ e.due = x.1 ∧ e.id < x.2.1) : (landKey x.2.2, x.2.2.size) ∈ (l.foldl LandEntry.lose e).newer := by
  obtain ⟨l1, l2, rfl⟩ := List.append_of_mem hx
  obtain ⟨ns, h1⟩ := LandEntry.foldl_lose_only l1 e
  rw [List.foldl_append, List.foldl_cons, h1]
  refine List.foldlRecOn (motive := fun e' : LandEntry => (landKey x.2.2, x.2.2.size) ∈ e'.newer) l2 _ ?_
    (fun e' he y _ => e'.mem_newer_lose y _ he)
  have : (decide (e.due < x.1) || (e.due == x.1 && decide (e.id < x.2.1))) = true := by
    simpa only [Bool.or_eq_true, Bool.and_eq_true, beq_iff_eq, decide_eq_true_eq] using h
  simp only [LandEntry.lose, this, if_true, List.mem_cons, true_or]

/-- A landed general register is no longer among what a late entry lands. -/
theorem LandEntry.g_not_mem_left (e : LandEntry) (gid r : Nat) (v : Word) (p : Bool) (h : ((0, r), 1) ∈ e.newer) :
    .g r v p ∉ e.left gid := by
  intro hm
  obtain ⟨w, -, hw⟩ := List.mem_filterMap.1 hm
  dsimp only at hw
  split at hw
  · rename_i h0
    obtain rfl := Option.some.inj hw
    have pos := foldl_of_last (R := fun _ _ => True) (P := (0 < ·)) (f := fun m (o : (Nat × Nat) × Nat) => Nat.max m o.2)
      (l := e.newer.filter (fun o => o.1 == landKey (.g r v p))) (List.pairwise_of_forall (fun _ _ => trivial))
      (List.mem_filter.2 ⟨h, beq_self_eq_true _⟩) (fun m => Nat.lt_of_lt_of_le Nat.one_pos (Nat.le_max_right m 1))
      (fun y _ => .inr (.inr (fun m hm => Nat.lt_of_lt_of_le hm (Nat.le_max_left m y.2)))) 0
    omega
  · cases w with
    | row =>
      dsimp only at hw
      split at hw <;> cases hw
    | _ => cases hw

/-! What the landings of a step leave in each destination. -/

section
variable (s : State) (sid r : Nat)

theorem State.reg_deliver_last {x : Nat × Nat × LandVal} {v : Word} {p : Bool}
    (hx : x ∈ (s.strand sid).landings (gidOf sid) (s.strand sid).vcc) (hv : x.2.2 = .g r v p) (hr : r ≠ 0)
    (last : ∀ y ∈ (s.strand sid).landings (gidOf sid) (s.strand sid).vcc,
      y = x ∨ (y.1 < x.1 ∨ y.1 = x.1 ∧ y.2.1 < x.2.1) ∨ ∀ v' p', y.2.2 ≠ .g r v' p') :
    ((s.deliver sid).strand sid).reg r = ⟨v, p⟩ := by
  obtain ⟨due, id, _⟩ := x
  obtain rfl := hv
  refine s.deliver_of_last sid (P := fun u => (u.strand sid).reg r = ⟨v, p⟩) hx (fun u => u.reg_landAt_g sid r due id v p hr) (fun y hy => ?_)
  exact (last y hy).imp_right (Or.imp_right (fun h u hu => (u.reg_landAt_other sid r y h).trans hu))

theorem State.reg_deliver_other
    (none : ∀ y ∈ (s.strand sid).landings (gidOf sid) (s.strand sid).vcc, ∀ v p, y.2.2 ≠ .g r v p) :
    ((s.deliver sid).strand sid).reg r = (s.strand sid).reg r :=
  s.deliver_of_kept sid (P := fun u => (u.strand sid).reg r = (s.strand sid).reg r) (by rw [State.strand_setStrand_same]; rfl)
    (fun y hy u hu => (u.reg_landAt_other sid r y (none y hy)).trans hu)

theorem State.pred_deliver_last {x : Nat × Nat × LandVal} {v : Bool}
    (hx : x ∈ (s.strand sid).landings (gidOf sid) (s.strand sid).vcc) (hv : x.2.2 = .p r v) (hr : r ≠ 0)
    (last : ∀ y ∈ (s.strand sid).landings (gidOf sid) (s.strand sid).vcc,
      y = x ∨ (y.1 < x.1 ∨ y.1 = x.1 ∧ y.2.1 < x.2.1) ∨ (∀ v', y.2.2 ≠ .p r v') ∧ ∀ a c n b v', y.2.2 ≠ .latch r a c n b v') :
    ((s.deliver sid).strand sid).pred r = v := by
  obtain ⟨due, id, _⟩ := x
  obtain rfl := hv
  refine s.deliver_of_last sid (P := fun u => (u.strand sid).pred r = v) hx (fun u => u.pred_landAt_p sid r due id v hr) (fun y hy => ?_)
  exact (last y hy).imp_right (Or.imp_right (fun ⟨hp, hl⟩ u hu => (u.pred_landAt_other sid r y hp hl).trans hu))

theorem State.pred_deliver_other
    (none : ∀ y ∈ (s.strand sid).landings (gidOf sid) (s.strand sid).vcc,
      (∀ v, y.2.2 ≠ .p r v) ∧ ∀ a c n b v', y.2.2 ≠ .latch r a c n b v') :
    ((s.deliver sid).strand sid).pred r = (s.strand sid).pred r :=
  s.deliver_of_kept sid (P := fun u => (u.strand sid).pred r = (s.strand sid).pred r) (by rw [State.strand_setStrand_same]; rfl)
    (fun y hy u hu => (u.pred_landAt_other sid r y (none y hy).1 (none y hy).2).trans hu)

theorem State.lb_ids_deliver : ((s.deliver sid).strand sid).lb.map (·.id) =
    ((s.strand sid).lb.filter (fun e => !e.lands (s.strand sid).vcc)).map (·.id) := by
  obtain ⟨_, _, _, _, _, _, hu⟩ := s.deliver_only sid
  rw [hu, List.map_map]
  refine List.map_congr_left (fun e _ => ?_)
  obtain ⟨ns, h⟩ := LandEntry.foldl_lose_only ((s.strand sid).landings (gidOf sid) (s.strand sid).vcc) e
  rw [Function.comp_apply, h]

/-- A late entry no longer lands a general register that a later result has taken (R63, R68). -/
theorem State.late_entry_deliver {x : Nat × Nat × LandVal} {v : Word} {p : Bool} {e : LandEntry}
    (hx : x ∈ (s.strand sid).landings (gidOf sid) (s.strand sid).vcc) (hv : x.2.2 = .g r v p)
    (he : e ∈ (s.strand sid).lb) (late : e.lands (s.strand sid).vcc = false) (earlier : e.due < x.1 ∨ e.due = x.1 ∧ e.id < x.2.1) :
    ∃ e2 ∈ ((s.deliver sid).strand sid).lb, e2.id = e.id ∧ e2.vals = e.vals ∧ ∀ v2 p2, .g r v2 p2 ∉ e2.left (gidOf sid) := by
  obtain ⟨_, _, _, _, _, _, hu⟩ := s.deliver_only sid
  obtain ⟨ns, h⟩ := LandEntry.foldl_lose_only ((s.strand sid).landings (gidOf sid) (s.strand sid).vcc) e
  have lost := LandEntry.mem_newer_foldl_lose _ e x hx earlier
  rw [hv] at lost
  refine ⟨_, ?_, by rw [h], by rw [h], fun v2 p2 => LandEntry.g_not_mem_left _ _ r v2 p2 lost⟩
  rw [hu]
  exact List.mem_map_of_mem (List.mem_filter.2 ⟨he, by rw [late, Bool.not_false]⟩)

end

/-! The updates of iterations (R82). -/

theorem State.applyNest_single (s : State) (sid r : Nat) (w : Bool) (v : Word) (h : (s.strand sid).nestUpd = [⟨r, w, v⟩]) :
    (s.applyNest sid).strand sid = { s.strand sid with nestUpd := [] }.setReg r
      (if w then v else (s.strand sid).val r + v) (if w then false else (s.strand sid).pois r) := by
  simp only [State.applyNest, State.strand_updStrand_same, h, List.foldl_cons, List.foldl_nil]
  cases w <;> rfl

/-! The statement. -/

/-- Settles O39: the landings of a step are one list in the order of R63, and each clause says what its last element for a destination
leaves there. That a rewind at a nest update clears poison is the model's choice, not R63's (log entry 53). -/
theorem landingsTakeEffect : Obligations.LandingsTakeEffect := by
  unfold Obligations.LandingsTakeEffect
  intro s sid t u ripe ready due before
  have mem : ∀ x, x ∈ t.landings (gidOf sid) t.vcc ↔ x ∈ due := t.mem_landings (gidOf sid) t.vcc
  obtain ⟨g, p, cr, f, sc, wq, hu⟩ := s.deliver_only sid
  change u = _ at hu
  refine ⟨fun x hx r v p hv hr last => s.reg_deliver_last sid r ((mem x).2 hx) hv hr (fun y hy => last y ((mem y).1 hy)),
    fun r none => s.reg_deliver_other sid r (fun y hy => none y ((mem y).1 hy)),
    fun x hx r v hv hr last => s.pred_deliver_last sid r ((mem x).2 hx) hv hr (fun y hy => last y ((mem y).1 hy)),
    fun r none => s.pred_deliver_other sid r (fun y hy => none y ((mem y).1 hy)),
    by rw [hu]; rfl, s.lb_ids_deliver sid,
    fun x hx r v p hv e he late earlier => s.late_entry_deliver sid r ((mem x).2 hx) hv he late earlier,
    by rw [hu], by rw [hu], by rw [hu], fun n => s.strand_deliver_other sid n, fun r v w hn hr => ?_⟩
  rw [State.applyNest_single s sid r w v hn]
  refine ⟨?_, Strand.setReg_nestUpd _ _ _ _, fun n h => ?_⟩
  · rw [Strand.reg_setReg, if_pos ⟨rfl, hr⟩]
    cases w <;> rfl
  · rw [Strand.reg_setReg, if_neg (fun e => h e.1)]
    rfl

end Sys2Proof.Machine
end

section
/-! SUPPORT. The integer operations of the S slot. Their meanings compute with numbers; what lands is a function of bit vectors as soon as the
two agree modulo the width, at every width (R88, R373). It settles the statement about sums, products, quotients and remainders. -/

namespace Sys2Proof.Machine

open Sys2Proof Sys2Proof.Spec

/-! Operands and results (R88, R373). -/

theorem sized_true (x : Nat) : sized true x = (BitVec.ofNat 32 x).setWidth 64 :=
  BitVec.eq_of_toNat_eq (by simp [sized, opWidth])

theorem sized_false (x : Nat) : sized false x = BitVec.ofNat 64 x :=
  BitVec.eq_of_toNat_eq (by simp [sized, opWidth])

theorem Strand.src_true (t : Strand) (r : Nat) : t.src true r = ((t.val r).setWidth 32).toNat :=
  (BitVec.toNat_setWidth 32 (t.val r)).symm

theorem Strand.src_false (t : Strand) (r : Nat) : t.src false r = (t.val r).toNat :=
  Nat.mod_eq_of_lt (t.val r).isLt

theorem guarded_of_not_guard (s : State) (G f) (h : s.me.guard G = false) : s.guarded G f = s := by
  simp [State.guarded, h]

/-- A function of two numbers agrees with one of bit vectors modulo every width. -/
def Computes2 (f : Nat → Nat → Nat → Nat) (F : (n : Nat) → BitVec n → BitVec n → BitVec n) : Prop :=
  ∀ n, 0 < n → ∀ x y : BitVec n, BitVec.ofNat n (f n x.toNat y.toNat) = F n x y

/-- The same for one operand. -/
def Computes1 (f : Nat → Nat → Nat) (F : (n : Nat) → BitVec n → BitVec n) : Prop :=
  ∀ n, 0 < n → ∀ x : BitVec n, BitVec.ofNat n (f n x.toNat) = F n x

section

variable {f : Nat → Nat → Nat → Nat} {F : (n : Nat) → BitVec n → BitVec n → BitVec n}

theorem Computes2.sized_eq (h : Computes2 f F) (t : Strand) (w : Bool) (a b : Nat) :
    sized w (f (opWidth w) (t.src w a) (t.src w b)) = both w F (t.val a) (t.val b) := by
  cases w with
  | false => rw [sized_false, t.src_false, t.src_false]; exact h 64 (by decide) _ _
  | true => rw [sized_true, t.src_true, t.src_true]; exact congrArg (BitVec.setWidth 64) (h 32 (by decide) _ _)

/-- An instruction whose meaning is `alu2` of such a function lands what the function of bit vectors gives. -/
theorem Computes2.lands {mk : Guard → Bool → BitVec 6 → BitVec 6 → BitVec 6 → Instr} {k : Nat} (h : Computes2 f F)
    (he : ∀ G w d a b s, exec (mk G w d a b) s = .next (s.alu2 G w d a b k f)) : Lands2 mk k F := by
  intro G w d a b s
  rw [he, State.alu2]
  refine ⟨fun hg => ?_, fun hg => by rw [guarded_of_not_guard s G _ hg]⟩
  rw [guarded_of_guard s G _ hg, h.sized_eq]

end

section

variable {f : Nat → Nat → Nat} {F : (n : Nat) → BitVec n → BitVec n}

theorem Computes1.sized_eq (h : Computes1 f F) (t : Strand) (w : Bool) (a : Nat) :
    sized w (f (opWidth w) (t.src w a)) = one w F (t.val a) := by
  cases w with
  | false => rw [sized_false, t.src_false]; exact h 64 (by decide) _
  | true => rw [sized_true, t.src_true]; exact congrArg (BitVec.setWidth 64) (h 32 (by decide) _)

theorem Computes1.lands {mk : Guard → Bool → BitVec 6 → BitVec 6 → Instr} (h : Computes1 f F)
    (he : ∀ G w d a s, exec (mk G w d a) s = .next (s.alu1 G w d a f)) : Lands1 mk F := by
  intro G w d a s _
  rw [he, State.alu1]
  refine ⟨fun hg => ?_, fun hg => by rw [guarded_of_not_guard s G _ hg]⟩
  rw [guarded_of_guard s G _ hg, h.sized_eq]

end

/-! Codes of integers. -/

theorem ofNat_codeN (n : Nat) (x : Int) : BitVec.ofNat n (codeN n x) = BitVec.ofInt n x := by
  apply BitVec.eq_of_toNat_eq
  rw [BitVec.toNat_ofNat, BitVec.toNat_ofInt, codeN, Nat.mod_eq_of_lt]
  have := Nat.two_pow_pos n
  omega

theorem codeN_eq_toNat (n : Nat) (x : Int) : codeN n x = (BitVec.ofInt n x).toNat := (BitVec.toNat_ofInt x).symm

/-- The high half of a double-width code. -/
theorem ofNat_toNat_div (n : Nat) (z : BitVec (2 * n)) : BitVec.ofNat n (z.toNat / 2 ^ n) = z.extractLsb' n n := by
  apply BitVec.eq_of_toNat_eq
  rw [BitVec.toNat_ofNat, BitVec.extractLsb'_toNat, Nat.shiftRight_eq_div_pow]

theorem toNat_eq_zero_iff {n : Nat} (y : BitVec n) : y.toNat = 0 ↔ y = 0 := BitVec.toNat_inj (y := 0)

theorem allOnes_eq_ofNat (n : Nat) : BitVec.allOnes n = BitVec.ofNat n (2 ^ n - 1) :=
  BitVec.eq_of_toNat_eq (by rw [BitVec.toNat_allOnes, BitVec.toNat_ofNat, Nat.mod_eq_of_lt (Nat.sub_one_lt (Nat.two_pow_pos n).ne')])

/-! The functions of the instructions (R134). -/

theorem computes_add : Computes2 (fun _ x y => x + y) (fun _ x y => x + y) := fun n _ x y => by
  rw [BitVec.ofNat_add, BitVec.ofNat_toNat, BitVec.ofNat_toNat, BitVec.setWidth_eq, BitVec.setWidth_eq]

theorem computes_sub : Computes2 (fun n x y => x + 2 ^ n - y) (fun _ x y => x - y) := fun n _ x y => by
  apply BitVec.eq_of_toNat_eq
  beta_reduce
  rw [BitVec.toNat_ofNat, BitVec.toNat_sub, Nat.add_comm x.toNat, Nat.sub_add_comm y.isLt.le]

theorem computes_mul : Computes2 (fun _ x y => x * y) (fun _ x y => x * y) := fun n _ x y =>
  BitVec.eq_of_toNat_eq (by rw [BitVec.toNat_ofNat, BitVec.toNat_mul])

theorem computes_mulHigh :
    Computes2 mulHigh (fun n x y => (x.signExtend (2 * n) * y.signExtend (2 * n)).extractLsb' n n) := fun n hn x y => by
  rw [mulHigh, signedN_toInt n hn, signedN_toInt n hn, codeN_eq_toNat, ofNat_toNat_div, BitVec.ofInt_mul]
  rfl

theorem computes_mulHighN : Computes2 (fun n x y => x * y / 2 ^ n)
    (fun n x y => (x.setWidth (2 * n) * y.setWidth (2 * n)).extractLsb' n n) := fun n _ x y => by
  beta_reduce
  rw [← ofNat_toNat_div, BitVec.toNat_mul, BitVec.toNat_setWidth_of_le (by omega), BitVec.toNat_setWidth_of_le (by omega),
    Nat.mod_eq_of_lt]
  rw [two_mul, pow_add]
  exact Nat.mul_lt_mul'' x.isLt y.isLt

theorem computes_scaled (c : BitVec 2) :
    Computes2 (fun _ x y => x + y * 2 ^ c.toNat) (fun _ x y => x + y <<< c.toNat) := fun n _ x y => by
  apply BitVec.eq_of_toNat_eq
  rw [BitVec.toNat_ofNat, BitVec.toNat_add, BitVec.toNat_shiftLeft, Nat.shiftLeft_eq, Nat.add_mod_mod]

theorem computes_divSigned : Computes2 divSigned (fun n x y => if y = 0 then BitVec.allOnes n else x.sdiv y) := fun n hn x y => by
  simp only [divSigned, toNat_eq_zero_iff]
  split
  · exact (allOnes_eq_ofNat n).symm
  · rw [signedN_toInt n hn, signedN_toInt n hn, ofNat_codeN]
    exact BitVec.eq_of_toInt_eq (by rw [BitVec.toInt_ofInt, BitVec.toInt_sdiv])

theorem computes_divUnsigned : Computes2 (fun n x y => if y = 0 then 2 ^ n - 1 else x / y)
    (fun n x y => if y = 0 then BitVec.allOnes n else x / y) := fun n _ x y => by
  simp only [toNat_eq_zero_iff]
  split
  · exact (allOnes_eq_ofNat n).symm
  · rw [← BitVec.toNat_udiv, BitVec.ofNat_toNat, BitVec.setWidth_eq]

theorem computes_remSigned : Computes2 remSigned (fun _ x y => if y = 0 then x else x.srem y) := fun n hn x y => by
  simp only [remSigned, toNat_eq_zero_iff]
  split
  · rw [BitVec.ofNat_toNat, BitVec.setWidth_eq]
  · rw [signedN_toInt n hn, signedN_toInt n hn, ofNat_codeN, ← BitVec.toInt_srem, BitVec.ofInt_toInt]

theorem computes_addImmediate (m : BitVec 16) :
    Computes1 (fun n x => x + codeN n (signedN 16 m.toNat)) (fun n x => x + m.signExtend n) := fun n _ x => by
  rw [BitVec.ofNat_add, BitVec.ofNat_toNat, BitVec.setWidth_eq, ofNat_codeN, signedN_toInt 16 (by decide)]
  rfl

/-- Settles O1: each meaning is `alu2` or `alu1` of a function of numbers that agrees with the statement's modulo every width; the cases of a
zero divisor are the branches of that function, and the most negative dividend over −1 is the bit vectors' own wrap. -/
theorem scalarArithmetic : Obligations.ScalarArithmetic := by
  unfold Obligations.ScalarArithmetic
  refine ⟨⟨?add, ?sub, ?mul, ?mulh, ?mulhn, fun c => ?agen⟩, ⟨?div, ?divn, ?rem⟩, fun m => ?addi⟩
  case add => exact computes_add.lands (fun _ _ _ _ _ _ => rfl)
  case sub => exact computes_sub.lands (fun _ _ _ _ _ _ => rfl)
  case mul => exact computes_mul.lands (fun _ _ _ _ _ _ => rfl)
  case mulh => exact computes_mulHigh.lands (fun _ _ _ _ _ _ => rfl)
  case mulhn => exact computes_mulHighN.lands (fun _ _ _ _ _ _ => rfl)
  case agen => exact (computes_scaled c).lands (fun _ _ _ _ _ _ => rfl)
  case div => exact computes_divSigned.lands (fun _ _ _ _ _ _ => rfl)
  case divn => exact computes_divUnsigned.lands (fun _ _ _ _ _ _ => rfl)
  case rem => exact computes_remSigned.lands (fun _ _ _ _ _ _ => rfl)
  case addi => exact (computes_addImmediate m).lands (fun _ _ _ _ _ => rfl)

end Sys2Proof.Machine
end

section
/-! SUPPORT. Rows as lists of lanes: the lanes and the poison that a row is read as, what a row built from lanes holds, and the roundings that
lanes take (R93, R101, R159, R195, R519). -/

namespace Sys2Proof.Machine

open Sys2Proof Sys2Proof.Spec

theorem nth_eq_getD {α : Type} (d : α) (l : List α) (i : Nat) : nth d l i = l.getD i d := by
  induction l generalizing i with
  | nil => rfl
  | cons x l ih =>
    cases i with
    | zero => rfl
    | succ i => exact ih i

/-! Lanes read from memory. -/

theorem cellsGet_add (m : List Host.Cell) (a k n : Nat) : cellsGet m a (k + n) = cellsGet m a k ++ cellsGet m (a + k) n := by
  induction k generalizing a with
  | zero => rw [Nat.zero_add]; rfl
  | succ k ih => rw [Nat.succ_add, cellsGet, cellsGet, ih, List.cons_append, Nat.succ_add_eq_add_succ]

theorem chunks_go_append {α : Type} {k : Nat} (hk : 0 < k) {l : List α} (hl : l.length = k) (r : List α) (fuel : Nat) :
    chunks.go k (fuel + 1) (l ++ r) = l :: chunks.go k fuel r := by
  subst hl
  cases l with
  | nil => exact absurd hk (Nat.lt_irrefl 0)
  | cons x l =>
    rw [List.cons_append, chunks.go, ← List.cons_append, List.take_left, List.drop_left]

theorem chunks_go_cellsGet (m : List Host.Cell) {k : Nat} (hk : 0 < k) (n fuel a : Nat) (h : n ≤ fuel) :
    chunks.go k fuel (cellsGet m a (k * n)) = (List.range n).map (fun i => cellsGet m (a + k * i) k) := by
  induction n generalizing fuel a with
  | zero => cases fuel <;> rfl
  | succ n ih =>
    obtain ⟨fuel, rfl⟩ := Nat.exists_eq_succ_of_ne_zero (Nat.ne_of_gt (Nat.lt_of_lt_of_le n.succ_pos h))
    rw [Nat.mul_succ, Nat.add_comm, cellsGet_add, chunks_go_append hk (cellsGet_length m a k), ih fuel (a + k) (Nat.le_of_succ_le_succ h),
      List.range_succ_eq_map, List.map_cons, List.map_map]
    refine congrArg₂ _ rfl (List.map_congr_left (fun i _ => ?_))
    rw [Function.comp_apply, Nat.mul_succ, Nat.add_comm (k * i), Nat.add_assoc]

theorem chunks_cellsGet (m : List Host.Cell) {k : Nat} (hk : 0 < k) (n a : Nat) :
    chunks k (cellsGet m a (k * n)) = (List.range n).map (fun i => cellsGet m (a + k * i) k) :=
  chunks_go_cellsGet m hk n _ a (by rw [cellsGet_length]; exact Nat.le_mul_of_pos_left n hk)

theorem laneBytes_pos (ty : Nat) : 0 < laneBits ty / 8 := by
  unfold laneBits; split <;> decide

theorem laneBytes_mul_laneCount (ty : Nat) : laneBits ty / 8 * laneCount ty = 512 := by
  unfold laneBits laneCount; split <;> rfl

theorem laneCount_pos (ty : Nat) : 0 < laneCount ty := by
  unfold laneCount; split <;> decide

theorem pow_laneBytes (ty : Nat) : 256 ^ (laneBits ty / 8) = 2 ^ laneBits ty := by
  unfold laneBits; split <;> rfl

theorem lanesOf_eq_map_lane (s : State) (row ty : Nat) : s.lanesOf row ty = (List.range (laneCount ty)).map (lane s row ty) := by
  rw [State.lanesOf, State.rowAt, State.bytesAt, ← laneBytes_mul_laneCount ty, chunks_cellsGet s.mem (laneBytes_pos ty), List.map_map]
  rfl

theorem wordsPois_eq_map_badWord (s : State) (row : Nat) : s.wordsPois row = (List.range 64).map (badWord s row) := by
  rw [State.wordsPois, span_range]
  rfl

theorem lane_lt (s : State) (row ty i : Nat) : lane s row ty i < 2 ^ laneBits ty := by
  have h := leNat_lt (s.bytesAt (rowBase (gidOf s.cur) row + laneBits ty / 8 * i) (laneBits ty / 8))
  rwa [State.bytesAt, cellsGet_length, pow_laneBytes] at h

theorem nth_lanesOf_zero (s : State) (row ty : Nat) : nth 0 (s.lanesOf row ty) 0 = lane s row ty 0 := by
  rw [lanesOf_eq_map_lane, nth_eq_getD, List.getD_eq_getElem _ _ (by simpa using laneCount_pos ty), List.getElem_map, List.getElem_range]

theorem mem_lanesOf {s : State} {row ty x : Nat} : x ∈ s.lanesOf row ty ↔ ∃ i, i < laneCount ty ∧ x = lane s row ty i := by
  simp [lanesOf_eq_map_lane, eq_comm]

theorem vrow_eq_vr (s : State) (r : BitVec 6) : s.me.vrow r.toNat = vr s r := rfl

/-! Rows built from lanes. -/

theorem take_drop_flatMap {α β : Type} {f : α → List β} {k : Nat} (hf : ∀ x, (f x).length = k) (l : List α) (j : Nat)
    (hj : j < l.length) : ((l.flatMap f).drop (k * j)).take k = f l[j] := by
  induction l generalizing j with
  | nil => exact absurd hj (Nat.not_lt_zero j)
  | cons x l ih =>
    rw [List.flatMap_cons]
    cases j with
    | zero => exact List.take_left' (hf x)
    | succ j =>
      rw [Nat.mul_succ, Nat.add_comm, ← List.drop_drop, List.drop_left' (hf x)]
      exact ih j (Nat.lt_of_succ_lt_succ hj)

theorem length_flatMap_of_length {α β : Type} {f : α → List β} {k : Nat} (hf : ∀ x, (f x).length = k) (l : List α) :
    (l.flatMap f).length = k * l.length := by
  rw [List.length_flatMap, List.map_congr_left (fun x _ => hf x), List.map_const', List.sum_replicate, smul_eq_mul, Nat.mul_comm]

theorem flatMap_replicate_eight (bad : Nat → Bool) (n : Nat) :
    (List.range n).flatMap (fun w => List.replicate 8 (bad w)) = (List.range (8 * n)).map (fun x => bad (x / 8)) := by
  induction n with
  | zero => rfl
  | succ n ih =>
    have last : (List.range 8).map (fun i => bad ((8 * n + i) / 8)) = List.replicate 8 (bad n) := by
      rw [List.map_congr_left (g := fun _ => bad n), List.map_const', List.length_range]
      intro i hi
      rw [Nat.mul_add_div (by decide), Nat.div_eq_of_lt (List.mem_range.1 hi), Nat.add_zero]
    rw [List.range_succ, List.flatMap_append, ih, Nat.mul_succ, List.range_add, List.map_append, List.map_map, List.flatMap_singleton]
    exact congrArg _ last.symm

/-- Every lane of a type landed, each below its width, with the poison of every word. -/
theorem rowLands_of_landLanes {i : Instr} {o : VFields} {s t : State} {k ty : Nat} {f : Nat → Nat} {bad : Nat → Bool}
    (hd : t.me.vrow o.d.toNat = vr s o.d) (hf : ∀ j, f j < 2 ^ laneBits ty)
    (he : exec i s = .next (t.landLanes o k ty ((List.range (laneCount ty)).map f) ((List.range 64).map bad))) :
    RowLands i o s t k ty f bad := by
  have len : ∀ x, (leBytes (laneBits ty / 8) x).length = laneBits ty / 8 := leBytes_length _
  rw [State.landLanes, State.landRow, hd, List.foldr_append_eq_append, List.append_nil, ← List.flatMap_def,
    List.foldr_append_eq_append, List.append_nil, ← List.flatMap_def] at he
  refine ⟨_, _, he, ?_, fun j hj => ?_, ?_⟩
  · rw [length_flatMap_of_length len, List.length_map, List.length_range, laneBytes_mul_laneCount]
  · rw [laneIn, take_drop_flatMap len _ j (by simpa using hj), leNat_leBytes, pow_laneBytes, List.getElem_map, List.getElem_range,
      Nat.mod_eq_of_lt (hf j)]
  · rw [List.flatMap_map]
    exact flatMap_replicate_eight bad 64

/-! Roundings (R101, R116). -/

theorem srDraws_length (n st : Nat) : (srDraws n st).1.length = n := by
  induction n generalizing st with
  | zero => rfl
  | succ n ih => exact congrArg Nat.succ (ih _)

/-- The rows that a state's vector registers name, and their poison, are those of another state. -/
structure KeepsRows (s t : State) : Prop where
  cur    : t.cur = s.cur
  poison : t.poison = s.poison
  vrow   : ∀ r, t.me.vrow r = s.me.vrow r

theorem KeepsRows.refl (s : State) : KeepsRows s s := ⟨rfl, rfl, fun _ => rfl⟩

theorem KeepsRows.wordsPois {s t : State} (h : KeepsRows s t) (row : Nat) : t.wordsPois row = s.wordsPois row := by
  rw [State.wordsPois, State.wordsPois, h.cur, h.poison]

theorem keepsRows_takeDraws (s : State) (n : Nat) : KeepsRows s (s.takeDraws n).2 := by
  refine ⟨rfl, rfl, fun r => ?_⟩
  rw [State.takeDraws, State.me_updMe]
  simp only [Strand.vrow, Strand.vwb, Strand.cwn, Strand.cw, get_set_other _ _ 0x106 0x006 _ (by decide)]

theorem roundings_eq_elim_rounds (s : State) (rnd : Nat) (narrow sat : Bool) (n : Nat) (go : State → List Rnd → State) :
    s.roundings rnd narrow sat n go = (rounds s rnd narrow sat n).elim (s.raise .illfmt) (fun x => go x.1 x.2) := by
  rw [State.roundings, rounds]
  split
  · next h => rw [h]; rfl
  · next h => rw [h]; rfl
  · next m h5 h =>
    have : m ≠ 5 := fun e => h5 e
    rw [h, Option.map_some, if_neg this]
    rfl

theorem rounds_spec {s t : State} {rnd : Nat} {narrow sat : Bool} {n : Nat} {rs : List Rnd}
    (h : rounds s rnd narrow sat n = some (t, rs)) : KeepsRows s t ∧ rs.length = n := by
  obtain ⟨m, _, h⟩ := Option.map_eq_some_iff.1 h
  split at h <;> obtain ⟨rfl, rfl⟩ := Prod.mk.inj h
  · exact ⟨keepsRows_takeDraws s n, by rw [List.length_map]; exact srDraws_length n _⟩
  · exact ⟨KeepsRows.refl s, List.length_replicate⟩

/-- An instruction that takes roundings lands a row as soon as it does so with every list of `n` of them. -/
theorem rowRounds_of_roundings {i : Instr} {o : VFields} {s : State} {k ty : Nat} {narrow sat : Bool} {n : Nat}
    {f : (Nat → Rnd) → Nat → Nat} {bad : Nat → Bool} {go : State → List Rnd → State}
    (he : exec i s = .next (s.roundings o.rnd.toNat narrow sat n go))
    (hgo : ∀ t rs, KeepsRows s t → rs.length = n → exec i s = .next (go t rs) →
      RowLands i o s t k ty (f (fun j => rs.getD j (Rnd.rne false))) bad) :
    RowRounds i o s k ty narrow sat n f bad := by
  rw [roundings_eq_elim_rounds] at he
  unfold RowRounds
  cases h : rounds s o.rnd.toNat narrow sat n with
  | none => rw [h] at he; exact he
  | some x =>
    rw [h] at he
    obtain ⟨keeps, len⟩ := rounds_spec h
    exact hgo x.1 x.2 keeps len he

end Sys2Proof.Machine
end

section
/-! SUPPORT. The sums of rows: VRSUM's tree and VSCAN's prefixes by the roundings they take, and the codes they stay below (R120, R130,
R195). -/

namespace Sys2Proof.Machine

open Sys2Proof Sys2Proof.Spec

/-! The tree of R130. -/

theorem pairUp_map_range (f : Rnd → Nat → Nat → Nat) (d : Rnd) (m : Nat) (rs : List Rnd) (g : Nat → Nat) (h : m ≤ rs.length) :
    pairUp f rs ((List.range (2 * m)).map g) = (List.range m).map (fun i => f (rs.getD i d) (g (2 * i)) (g (2 * i + 1))) := by
  induction m generalizing rs g with
  | zero => cases rs <;> rfl
  | succ m ih =>
    cases rs with
    | nil => exact absurd h (Nat.not_succ_le_zero m)
    | cons r rs =>
      rw [Nat.mul_succ, List.range_succ_eq_map, List.range_succ_eq_map, List.range_succ_eq_map]
      simp only [List.map_cons, List.map_map, pairUp]
      exact congrArg _ (ih rs _ (Nat.le_of_succ_le_succ h))

/-- Levels left over leave the one sum as it is. -/
theorem treeSum_singleton (f : Rnd → Nat → Nat → Nat) (k : Nat) (rs : List Rnd) (x : Nat) : treeSum f k rs [x] = x := by
  induction k generalizing rs with
  | zero => rfl
  | succ k ih =>
    have : pairUp f rs [x] = [x] := by cases rs <;> rfl
    rw [treeSum, this, ih]

/-- From the nodes of level `l` of a row of 2^(l + k) lanes on, `k` levels and any more give the top node. -/
theorem treeSum_map_treeNode (f : Rnd → Nat → Nat → Nat) (d : Rnd) (rs : List Rnd) (x : Nat → Nat) (more k l n : Nat)
    (hn : n = 2 ^ (l + k)) (len : rs.length = n - 1) :
    treeSum f (k + more) (rs.drop (n - 2 ^ k)) ((List.range (2 ^ k)).map (treeNode f n (fun j => rs.getD j d) x l)) =
      treeNode f n (fun j => rs.getD j d) x (l + k) 0 := by
  induction k generalizing l with
  | zero => exact treeSum_singleton f _ _ _
  | succ k ih =>
    have le : 2 ^ (k + 1) ≤ n := hn ▸ Nat.pow_le_pow_right (by decide) (Nat.le_add_left _ _)
    have pos := Nat.two_pow_pos k
    have level : n / 2 ^ l = 2 * 2 ^ k := by
      rw [hn, pow_add, Nat.mul_div_cancel_left _ (Nat.two_pow_pos l), pow_succ, Nat.mul_comm]
    rw [pow_succ, Nat.mul_comm] at le ⊢
    have next : (rs.drop (n - 2 * 2 ^ k)).drop (2 ^ k) = rs.drop (n - 2 ^ k) := by
      rw [List.drop_drop]
      congr 1
      omega
    rw [Nat.succ_add, treeSum, pairUp_map_range f d (2 ^ k) _ _ (by rw [List.length_drop, len]; omega), List.length_map, List.length_range,
      Nat.mul_div_cancel_left _ (by decide), next, ← Nat.succ_add_eq_add_succ l k, ← ih (l + 1) (by rw [hn, Nat.succ_add_eq_add_succ])]
    congr 1
    refine List.map_congr_left (fun i _ => ?_)
    rw [treeNode, level, List.getD_eq_getElem?_getD, List.getElem?_drop, List.getD_eq_getElem?_getD]

/-- The tree over a whole row. -/
theorem treeSum_eq_treeNode (f : Rnd → Nat → Nat → Nat) (d : Rnd) (rs : List Rnd) (x : Nat → Nat) (more k : Nat)
    (len : rs.length = 2 ^ k - 1) :
    treeSum f (k + more) rs ((List.range (2 ^ k)).map x) = treeNode f (2 ^ k) (fun j => rs.getD j d) x k 0 := by
  have h := treeSum_map_treeNode f d rs x more k 0 (2 ^ k) (by rw [Nat.zero_add]) len
  rw [Nat.sub_self, List.drop_zero, Nat.zero_add] at h
  exact h

/-! Prefixes (R130, R195). -/

/-- The sum of the lanes up to lane `k`: each adds its lane to the sum before, with a rounding of its own. -/
def prefixNode (f : Rnd → Nat → Nat → Nat) (rs : Nat → Rnd) (x : Nat → Nat) : Nat → Nat
  | 0 => x 0
  | k + 1 => f (rs k) (prefixNode f rs x k) (x (k + 1))

theorem prefixNode_eq_rec (f : Rnd → Nat → Nat → Nat) (rs : Nat → Rnd) (x : Nat → Nat) (i : Nat) :
    prefixNode f rs x i = Nat.rec (x 0) (fun k acc => f (rs k) acc (x (k + 1))) i := by
  induction i with
  | zero => rfl
  | succ k ih => rw [prefixNode, ih]

/-- A scan that has reached lane `k` goes on with the prefixes of the lanes after it. -/
theorem scanSum_map_range' (f : Rnd → Nat → Nat → Nat) (d : Rnd) (rs : List Rnd) (x : Nat → Nat) (m k : Nat) (len : rs.length = k + m) :
    scanSum f (prefixNode f (fun j => rs.getD j d) x k) (rs.drop k) ((List.range' (k + 1) m).map x) =
      (List.range' (k + 1) m).map (prefixNode f (fun j => rs.getD j d) x) := by
  induction m generalizing k with
  | zero => rw [List.range'_zero, List.map_nil, scanSum, List.map_nil]
  | succ m ih =>
    have lt : k < rs.length := by omega
    have here : f rs[k] (prefixNode f (fun j => rs.getD j d) x k) (x (k + 1)) = prefixNode f (fun j => rs.getD j d) x (k + 1) := by
      rw [prefixNode, List.getD_eq_getElem _ _ lt]
    rw [List.drop_eq_getElem_cons lt, List.range'_succ, List.map_cons, List.map_cons, scanSum, here, ih (k + 1) (by omega)]

/-- The scan of a whole row. -/
theorem scanSum_eq_map_prefixNode (f : Rnd → Nat → Nat → Nat) (d : Rnd) (rs : List Rnd) (x : Nat → Nat) (n : Nat) (pos : 0 < n)
    (len : rs.length = n - 1) : x 0 :: scanSum f (x 0) rs (((List.range n).map x).drop 1) =
      (List.range n).map (prefixNode f (fun j => rs.getD j d) x) := by
  obtain ⟨m, rfl⟩ := Nat.exists_eq_succ_of_ne_zero (Nat.ne_of_gt pos)
  have h := scanSum_map_range' f d rs x m 0 (by rw [len, Nat.zero_add]; rfl)
  rw [List.range_eq_range', List.range'_succ, List.map_cons, List.map_cons, List.drop_one, List.tail_cons]
  exact congrArg _ h

theorem scanPois_map_range' (p : Nat → Bool) (m k : Nat) :
    scanPois ((List.range k).any p) ((List.range' k m).map p) = (List.range' k m).map (fun w => (List.range (w + 1)).any p) := by
  induction m generalizing k with
  | zero => rfl
  | succ m ih =>
    have here : ((List.range k).any p || p k) = (List.range (k + 1)).any p := by
      rw [List.range_succ, List.any_append, List.any_cons, List.any_nil, Bool.or_false]
    rw [List.range'_succ, List.map_cons, List.map_cons, scanPois, here, ih]

theorem scanPois_eq_map (p : Nat → Bool) (n : Nat) :
    scanPois false ((List.range n).map p) = (List.range n).map (fun w => (List.range (w + 1)).any p) := by
  rw [List.range_eq_range']
  exact scanPois_map_range' p n 0

/-! Codes stay below their format's width (R108, R114, R120). -/

namespace Fmt

theorem signed_lt {f : Fmt} {c : Nat} (h : c < 2 ^ (f.e + f.m)) (neg : Bool) : f.signed neg c < 2 ^ f.width := by
  have : 2 ^ f.width = 2 * 2 ^ (f.e + f.m) := by rw [width, Nat.add_assoc, pow_add, pow_one]
  unfold signed
  split <;> omega

theorem maxCode_lt (f : Fmt) : f.maxCode < 2 ^ (f.e + f.m) := by
  have pe := Nat.two_pow_pos f.e
  have pm := Nat.two_pow_pos f.m
  have := Nat.two_pow_pos (f.e + f.m)
  unfold maxCode
  split
  · omega
  · rw [pow_add] at this ⊢
    exact Nat.lt_of_le_of_lt (Nat.sub_le_sub_right (Nat.mul_le_mul_right _ (Nat.sub_le _ _)) 1) (Nat.sub_one_lt this.ne')

theorem nan_lt {f : Fmt} (hm : 0 < f.m) : f.nan < 2 ^ (f.e + f.m) := by
  have pe := Nat.two_pow_pos f.e
  have half : 2 ^ (f.m - 1) < 2 ^ f.m := Nat.pow_lt_pow_right (by decide) (by omega)
  unfold nan
  split
  · exact Nat.sub_one_lt (Nat.two_pow_pos _).ne'
  · calc (2 ^ f.e - 1) * 2 ^ f.m + 2 ^ (f.m - 1) < (2 ^ f.e - 1) * 2 ^ f.m + 2 ^ f.m := Nat.add_lt_add_left half _
      _ = 2 ^ (f.e + f.m) := by rw [← Nat.succ_mul, Nat.succ_eq_add_one, Nat.sub_add_cancel pe, pow_add]

theorem inf_lt {f : Fmt} (hm : 0 < f.m) (neg : Bool) : f.inf neg < 2 ^ f.width := by
  unfold inf
  split
  · exact signed_lt (nan_lt hm) false
  · have : (2 ^ f.e - 1) * 2 ^ f.m < 2 ^ (f.e + f.m) := by
      rw [pow_add]
      exact Nat.mul_lt_mul_of_pos_right (Nat.sub_one_lt (Nat.two_pow_pos _).ne') (Nat.two_pow_pos _)
    exact signed_lt this neg

theorem round_lt {f : Fmt} (hm : 0 < f.m) (r : Rnd) (neg : Bool) (mag : Nat) (exp : Int) : f.round r neg mag exp < 2 ^ f.width := by
  unfold round
  extract_lets
  have zero : f.signed neg 0 < 2 ^ f.width := signed_lt (Nat.two_pow_pos _) neg
  split_ifs with h0 hbig hsat hftz
  · exact zero
  · exact signed_lt f.maxCode_lt neg
  · exact inf_lt hm neg
  · exact zero
  · exact signed_lt (Nat.lt_of_le_of_lt (Nat.le_of_not_lt hbig) f.maxCode_lt) neg

theorem write_lt {f : Fmt} (hm : 0 < f.m) (r : Rnd) (v : FVal) : f.write r v < 2 ^ f.width := by
  cases v with
  | nan => exact signed_lt (nan_lt hm) false
  | inf neg =>
    rw [write]
    split
    · exact signed_lt f.maxCode_lt neg
    · exact inf_lt hm neg
  | fin neg mag exp => exact round_lt hm r neg mag exp

end Fmt

theorem laneFmt_m_pos (ty : Nat) : 0 < (laneFmt ty).m := by
  unfold laneFmt; split <;> decide

theorem laneFmt_width {ty : Nat} (h : ty < 2) : (laneFmt ty).width = laneBits ty := by
  interval_cases ty <;> rfl

theorem laneAdd_lt (ty : Nat) (r : Rnd) (a b : Nat) : laneAdd ty r a b < 2 ^ laneBits ty := by
  unfold laneAdd
  split
  · next h => exact laneFmt_width h ▸ Fmt.write_lt (laneFmt_m_pos ty) r _
  · next h =>
    have : laneBits ty = 32 := if_neg (by omega)
    rw [this]
    exact Nat.mod_lt _ (Nat.two_pow_pos 32)

theorem treeNode_lt {b : Nat} {f : Rnd → Nat → Nat → Nat} {x : Nat → Nat} (hf : ∀ r u v, f r u v < b) (hx : ∀ i, x i < b) (n : Nat)
    (rs : Nat → Rnd) (k i : Nat) : treeNode f n rs x k i < b := by
  cases k with
  | zero => exact hx i
  | succ k => exact hf _ _ _

theorem prefixNode_lt {b : Nat} {f : Rnd → Nat → Nat → Nat} {x : Nat → Nat} (hf : ∀ r u v, f r u v < b) (hx : ∀ i, x i < b)
    (rs : Nat → Rnd) (i : Nat) : prefixNode f rs x i < b := by
  cases i with
  | zero => exact hx 0
  | succ k => exact hf _ _ _

end Sys2Proof.Machine
end

section
/-! SUPPORT. The order of values, the lanes that VRMAX and VRMIN choose by it, and what each reduction lands (R107, R129, R130, R195). It settles
the statement about vector reductions. -/

namespace Sys2Proof.Machine

open Sys2Proof Sys2Proof.Spec

/-! The order of values (R129, R344). -/

namespace FVal

/-- The number that a value stands for, with the infinities below and above all others; a NaN has none, and stands at the bottom. -/
def value : FVal → WithBot (WithTop ℚ)
  | .nan => ⊥
  | .inf true => ⊥
  | .inf false => ((⊤ : WithTop ℚ) : WithBot (WithTop ℚ))
  | .fin s m e => (((if s then -1 else 1) * m * 2 ^ e : ℚ) : WithTop ℚ)

/-- A value's place in the order of VMAX and VMIN: its number, and −0 before +0. -/
def rank (v : FVal) : WithBot (WithTop ℚ) ×ₗ Bool := toLex (v.value, !v.sign)

theorem units_mul_pow {q e : Int} (h : q ≤ e) (s : Bool) (m : Nat) :
    ((FVal.fin s m e).units q : ℚ) * 2 ^ q = (if s then -1 else 1) * m * 2 ^ e := by
  have : (2 : ℚ) ^ (e - q).toNat * 2 ^ q = 2 ^ e := by
    rw [← zpow_natCast, Int.toNat_of_nonneg (Int.sub_nonneg_of_le h), ← zpow_add₀ two_ne_zero, Int.sub_add_cancel]
  rw [units, ← this]
  cases s <;> push_cast <;> ring

theorem units_lt_units {q e g : Int} (he : q ≤ e) (hg : q ≤ g) (s t : Bool) (m n : Nat) :
    (FVal.fin s m e).units q < (FVal.fin t n g).units q ↔ (FVal.fin s m e).value < (FVal.fin t n g).value := by
  rw [value, value, WithBot.coe_lt_coe, WithTop.coe_lt_coe, ← units_mul_pow he, ← units_mul_pow hg,
    mul_lt_mul_iff_left₀ (zpow_pos two_pos q), Int.cast_lt]

/-- Where neither is a NaN, `cmp` compares the numbers. -/
theorem cmp_eq_compare {a b : FVal} (ha : a.isNan = false) (hb : b.isNan = false) : a.cmp b = some (compare a.value b.value) := by
  cases a with
  | nan => exact absurd ha (by decide)
  | inf s =>
    cases b with
    | nan => exact absurd hb (by decide)
    | inf t => cases s <;> cases t <;> rfl
    | fin t n g => cases s <;> rfl
  | fin s m e =>
    cases b with
    | nan => exact absurd hb (by decide)
    | inf t => cases t <;> rfl
    | fin t n g =>
      have lt := units_lt_units (min_le_left e g) (min_le_right e g) s t m n
      have gt := units_lt_units (min_le_right e g) (min_le_left e g) t s n m
      refine congrArg some ?_
      rcases lt_trichotomy (FVal.fin s m e).value (FVal.fin t n g).value with h | h | h
      · rw [compare_lt_iff_lt.2 h]
        exact compare_lt_iff_lt.2 (lt.2 h)
      · rw [compare_eq_iff_eq.2 h]
        exact compare_eq_iff_eq.2 (le_antisymm (not_lt.1 (fun x => (gt.1 x).ne' h)) (not_lt.1 (fun x => (lt.1 x).ne h)))
      · rw [compare_gt_iff_gt.2 h]
        exact compare_gt_iff_gt.2 (gt.2 h)

/-- A relation of values that, where neither is a NaN, is the order of their ranks. -/
def Ranks {β : Type} [LinearOrder β] (rank : FVal → β) (before : FVal → FVal → Bool) : Prop :=
  ∀ {a b : FVal}, a.isNan = false → b.isNan = false → (before a b = true ↔ rank a < rank b)

theorem ranks_below : Ranks rank below := fun {a b} ha hb => by
  rw [below, cmp_eq_compare ha hb, rank, rank, Prod.Lex.toLex_lt_toLex]
  rcases lt_trichotomy a.value b.value with h | h | h
  · simp [compare_lt_iff_lt.2 h, h]
  · simp [h, Bool.lt_iff]
  · simp [compare_gt_iff_gt.2 h, h.le, h.ne']

theorem ranks_above : Ranks (fun v => OrderDual.toDual v.rank) (fun a b => b.below a) := fun ha hb =>
  (ranks_below hb ha).trans OrderDual.toDual_lt_toDual.symm

theorem value_ofInt (x : Int) : (ofInt x).value = (((x : ℚ) : WithTop ℚ) : WithBot (WithTop ℚ)) := by
  rw [ofInt, value, zpow_zero, mul_one, ← Int.cast_natCast, Int.natCast_natAbs]
  by_cases h : x < 0
  · simp [h, abs_of_neg h]
  · simp [h, abs_of_nonneg (Int.not_lt.1 h)]

theorem below_ofInt (x y : Int) : (ofInt x).below (ofInt y) = decide (x < y) := by
  rw [Bool.eq_iff_iff, ranks_below rfl rfl, rank, rank, Prod.Lex.toLex_lt_toLex, value_ofInt, value_ofInt, decide_eq_true_eq]
  simp only [WithBot.coe_lt_coe, WithTop.coe_lt_coe, WithBot.coe_inj, WithTop.coe_inj, Int.cast_lt, Int.cast_inj]
  exact or_iff_left (fun ⟨e, h⟩ => by subst e; exact lt_irrefl _ h)

end FVal

/-! The largest and the smallest lane (R129, R130). -/

theorem laneVal_isNan {ty : Nat} (h : ty < 4) (x : Nat) : (laneVal ty x).isNan = (decide (ty < 2) && ((laneFmt ty).read x).isNan) := by
  interval_cases ty <;> rfl

theorem any_laneVal_isNan {ty : Nat} (h : ty < 4) (l : List Nat) (a : Nat → Nat) : l.any (fun i => (laneVal ty (a i)).isNan) =
    (decide (ty < 2) && l.any (fun i => ((laneFmt ty).read (a i)).isNan)) := by
  rw [List.and_any_distrib_left]
  simp only [laneVal_isNan h]

theorem laneVal_nan {ty : Nat} (h : ty < 2) : (laneVal ty (laneFmt ty).nan).isNan = true := by
  interval_cases ty <;> decide

theorem ofInt_isNan (x : Int) : (ofInt x).isNan = false := rfl

/-- What VRMAX and VRMIN choose: a NaN's canonical code from a NaN, else the later of two lanes in an order of values. -/
def Picks (ty : Nat) (before : FVal → FVal → Bool) (pick : Nat → Nat → Nat) : Prop :=
  ∀ x y, pick x y = if (laneVal ty x).isNan || (laneVal ty y).isNan then (laneFmt ty).nan
    else if before (laneVal ty x) (laneVal ty y) then y else x

theorem picks_laneMax {ty : Nat} (h : ty < 4) : Picks ty FVal.below (laneMax ty) := fun x y => by
  interval_cases ty
  · rfl
  · rfl
  · simp [laneMax, laneVal, FVal.below_ofInt, ofInt_isNan]
  · simp [laneMax, laneVal, FVal.below_ofInt, ofInt_isNan]

theorem picks_laneMin {ty : Nat} (h : ty < 4) : Picks ty (fun u v => v.below u) (laneMin ty) := fun x y => by
  interval_cases ty
  · rfl
  · rfl
  · simp [laneMin, laneVal, FVal.below_ofInt, ofInt_isNan]
  · simp [laneMin, laneVal, FVal.below_ofInt, ofInt_isNan]

theorem signedN_mod (n x : Nat) : signedN n (x % 2 ^ n) = signedN n x := by
  rw [signedN, signedN, Nat.mod_mod]

theorem signedN_eq_toInt_ofNat (x : Nat) : signedN 32 x = (BitVec.ofNat 32 x).toInt := by
  rw [← signedN_toInt 32 (by decide), BitVec.toNat_ofNat, signedN_mod]

/-- The order of the lanes of a type, as the statement writes it. -/
theorem below_laneVal {ty : Nat} (h : ty < 4) (x y : Nat) : (laneVal ty x).below (laneVal ty y) =
    if ty = 2 then (BitVec.ofNat 32 x).slt (BitVec.ofNat 32 y)
    else if ty = 3 then decide (x < y) else ((laneFmt ty).read x).below ((laneFmt ty).read y) := by
  interval_cases ty
  · rfl
  · rfl
  · rw [laneVal, laneVal, FVal.below_ofInt, signedN_eq_toInt_ofNat, signedN_eq_toInt_ofNat]
    rfl
  · rw [show laneVal 3 x = ofInt x from rfl, show laneVal 3 y = ofInt y from rfl, FVal.below_ofInt]
    exact decide_eq_decide.2 Int.ofNat_lt

/-- A choice that answers a NaN as soon as it meets one ends in it. -/
theorem foldl_eq_of_nan {val : Nat → FVal} {pick : Nat → Nat → Nat} {c : Nat} (hc : (val c).isNan = true)
    (hp : ∀ x y, ((val x).isNan || (val y).isNan) = true → pick x y = c) (l : List Nat) (x : Nat)
    (h : l.any (fun y => (val y).isNan) = true) : l.foldl pick x = c := by
  have stays : ∀ l : List Nat, l.foldl pick c = c := fun l => by
    induction l with
    | nil => rfl
    | cons y l ih => rw [List.foldl_cons, hp c y (by rw [hc, Bool.true_or]), ih]
  induction l generalizing x with
  | nil => exact absurd h Bool.false_ne_true
  | cons y l ih =>
    rw [List.any_cons, Bool.or_eq_true] at h
    rw [List.foldl_cons]
    rcases h with hy | hl
    · rw [hp x y (by rw [hy, Bool.or_true]), stays]
    · exact ih _ hl

/-- A choice of the later one of two in an order ends in one that none comes after. -/
theorem foldl_mem_and_le {β : Type} [LinearOrder β] {pick : Nat → Nat → Nat} (rank : Nat → β) (l : List Nat) (x : Nat)
    (hp : ∀ u ∈ x :: l, ∀ v ∈ x :: l, pick u v = if rank u < rank v then v else u) :
    l.foldl pick x ∈ x :: l ∧ ∀ y ∈ x :: l, rank y ≤ rank (l.foldl pick x) := by
  induction l generalizing x with
  | nil => simp
  | cons z l ih =>
    have step := hp x (by simp) z (by simp)
    have mem : pick x z = x ∨ pick x z = z := by rw [step]; split <;> simp
    have up : rank x ≤ rank (pick x z) ∧ rank z ≤ rank (pick x z) := by
      rw [step]
      split
      · next h => exact ⟨h.le, le_rfl⟩
      · next h => exact ⟨le_rfl, not_lt.1 h⟩
    have sub : ∀ u ∈ pick x z :: l, u ∈ x :: z :: l := by
      rcases mem with h | h <;> rw [h] <;> simp +contextual
    obtain ⟨hm, hle⟩ := ih (pick x z) (fun u hu v hv => hp u (sub u hu) v (sub v hv))
    refine ⟨sub _ hm, fun y hy => ?_⟩
    have top := hle (pick x z) List.mem_cons_self
    rcases List.mem_cons.1 hy with rfl | hy
    · exact up.1.trans top
    · rcases List.mem_cons.1 hy with rfl | hy
      · exact up.2.trans top
      · exact hle y (List.mem_cons_of_mem _ hy)

section

variable {ty : Nat} {before : FVal → FVal → Bool} {pick : Nat → Nat → Nat} {β : Type} [LinearOrder β] {rank : FVal → β}
  (h : Picks ty before pick) (order : FVal.Ranks rank before)
include h

theorem Picks.foldl_nan (hty : ty < 4) (l : List Nat) (x : Nat) (nan : l.any (fun y => (laneVal ty y).isNan) = true) :
    ty < 2 ∧ l.foldl pick x = (laneFmt ty).nan := by
  obtain ⟨y, _, hy⟩ := List.any_eq_true.1 nan
  rw [laneVal_isNan hty, Bool.and_eq_true, decide_eq_true_eq] at hy
  exact ⟨hy.1, foldl_eq_of_nan (laneVal_nan hy.1) (fun x y hn => by rw [h, if_pos hn]) l x nan⟩

include order

theorem Picks.foldl_best (l : List Nat) (x : Nat) (hx : x ∈ l) (num : l.any (fun y => (laneVal ty y).isNan) = false) :
    l.foldl pick x ∈ l ∧ ∀ y ∈ l, before (laneVal ty (l.foldl pick x)) (laneVal ty y) = false := by
  have sub : ∀ y ∈ x :: l, y ∈ l := fun y hy => (List.mem_cons.1 hy).elim (fun e => e ▸ hx) id
  have real : ∀ y ∈ l, (laneVal ty y).isNan = false := fun y hy => Bool.eq_false_iff.2 (List.any_eq_false.1 num y hy)
  obtain ⟨mem, le⟩ := foldl_mem_and_le (fun y => rank (laneVal ty y)) l x (pick := pick) (fun u hu v hv => by
    have hu := real u (sub u hu)
    have hv := real v (sub v hv)
    simp only [h u v, hu, hv, order hu hv, Bool.or_self, Bool.false_eq_true, if_false])
  refine ⟨sub _ mem, fun y hy => Bool.eq_false_iff.2 (fun later => ?_)⟩
  exact not_lt_of_ge (le y (List.mem_cons_of_mem x hy)) ((order (real _ (sub _ mem)) (real y hy)).1 later)

end

/-! Rows that hold one result in lane 0 (R130, R195). -/

theorem map_range_ite_zero {α : Type} (x d : α) (n : Nat) (pos : 0 < n) :
    (List.range n).map (fun i => if i = 0 then x else d) = x :: List.replicate (n - 1) d := by
  obtain ⟨n, rfl⟩ := Nat.exists_eq_succ_of_ne_zero (Nat.ne_of_gt pos)
  rw [List.range_succ_eq_map, List.map_cons, List.map_map, Nat.succ_sub_one, List.map_congr_left (g := fun _ => d), List.map_const',
    List.length_range]
  · rfl
  · intro i _
    rfl

/-- The poison of a reduction: that of any word of a, in the first word. -/
def firstBad (s : State) (row : Nat) (w : Nat) : Bool := w == 0 && (List.range 64).any (badWord s row)

theorem map_firstBad (s : State) (row : Nat) :
    (List.range 64).map (firstBad s row) = (s.wordsPois row).any id :: List.replicate 63 false := by
  have all : (s.wordsPois row).any id = (List.range 64).any (badWord s row) := by
    rw [wordsPois_eq_map_badWord, List.any_map, Function.id_comp]
  rw [all, ← map_range_ite_zero ((List.range 64).any (badWord s row)) false 64 (by decide)]
  refine List.map_congr_left (fun w _ => ?_)
  cases w <;> simp [firstBad]

theorem rowLands_of_reduceRow {i : Instr} {o : VFields} {s t : State} {x : Nat} (keeps : KeepsRows s t) (hx : x < 2 ^ laneBits o.ty.toNat)
    (he : exec i s = .next (t.reduceRow o x)) :
    RowLands i o s t 2 o.ty.toNat (fun i => if i = 0 then x else 0) (firstBad s (vr s o.a)) := by
  have row : t.reduceRow o x = t.landLanes o 2 o.ty.toNat ((List.range (laneCount o.ty.toNat)).map (fun i => if i = 0 then x else 0))
      ((List.range 64).map (firstBad s (vr s o.a))) := by
    rw [map_range_ite_zero x 0 _ (laneCount_pos _), map_firstBad, ← keeps.wordsPois, ← vrow_eq_vr, ← keeps.vrow]
    rfl
  refine rowLands_of_landLanes ((keeps.vrow _).trans (vrow_eq_vr s o.d)) (fun j => ?_) (row ▸ he)
  split
  · exact hx
  · exact Nat.two_pow_pos _

/-- The result of VRMAX or VRMIN. -/
theorem Picks.rowLands {i : Instr} {o : VFields} {s : State} {before : FVal → FVal → Bool} {pick : Nat → Nat → Nat} {β : Type}
    [LinearOrder β] {rank : FVal → β} (h : Picks o.ty.toNat before pick)
    (order : FVal.Ranks rank before) (hty : o.ty.toNat < 4)
    (he : exec i s = .next (s.reduceRow o ((s.lanesOf (vr s o.a) o.ty.toNat).foldl pick (nth 0 (s.lanesOf (vr s o.a) o.ty.toNat) 0)))) :
    let ty := o.ty.toNat
    let a := lane s (vr s o.a) ty
    let nan := (List.range (laneCount ty)).any (fun i => (laneVal ty (a i)).isNan)
    ∃ m, RowLands i o s s 2 ty (fun i => if i = 0 then m else 0) (firstBad s (vr s o.a)) ∧ (nan = true → m = (laneFmt ty).nan) ∧
      (nan = false → (∃ i, i < laneCount ty ∧ m = a i) ∧ ∀ i, i < laneCount ty → before (laneVal ty m) (laneVal ty (a i)) = false) := by
  intro ty a nan
  have any : (s.lanesOf (vr s o.a) ty).any (fun y => (laneVal ty y).isNan) = nan := by
    rw [lanesOf_eq_map_lane]
    exact List.any_map
  have ofNan := h.foldl_nan hty (s.lanesOf (vr s o.a) ty) (a 0)
  have ofNum := h.foldl_best order (s.lanesOf (vr s o.a) ty) (a 0) (mem_lanesOf.2 ⟨0, laneCount_pos ty, rfl⟩)
  rw [any] at ofNan ofNum
  rw [nth_lanesOf_zero] at he
  refine ⟨_, rowLands_of_reduceRow (KeepsRows.refl s) ?_ he, fun hn => (ofNan hn).2, fun hn => ?_⟩
  · cases hn : nan with
    | true =>
      obtain ⟨float, e⟩ := ofNan hn
      rw [e, ← laneFmt_width float]
      exact Fmt.signed_lt (Fmt.nan_lt (laneFmt_m_pos ty)) false
    | false =>
      obtain ⟨i, _, e⟩ := mem_lanesOf.1 (ofNum hn).1
      exact e ▸ lane_lt s _ ty i
  · obtain ⟨mem, best⟩ := ofNum hn
    exact ⟨mem_lanesOf.1 mem, fun i hi => best _ (mem_lanesOf.2 ⟨i, hi, rfl⟩)⟩

/-! VRSUM and VSCAN with their roundings. -/

theorem treeSum_lanes (s : State) (row ty : Nat) (rs : List Rnd) (len : rs.length = laneCount ty - 1) :
    treeSum (laneAdd ty) 7 rs (s.lanesOf row ty) =
      treeNode (laneAdd ty) (laneCount ty) (fun j => rs.getD j (Rnd.rne false)) (lane s row ty) (if ty = 1 then 6 else 7) 0 := by
  rw [lanesOf_eq_map_lane]
  by_cases h : ty = 1
  · have : laneCount ty = 2 ^ 6 := if_pos h
    rw [if_pos h, this]
    exact treeSum_eq_treeNode _ _ _ _ 1 6 (this ▸ len)
  · have : laneCount ty = 2 ^ 7 := if_neg h
    rw [if_neg h, this]
    exact treeSum_eq_treeNode _ _ _ _ 0 7 (this ▸ len)

/-- VSCAN's landing in a state that has taken the roundings. -/
def landScan (s : State) (o : VFields) (t : State) (rs : List Rnd) : State :=
  let xs := s.lanesOf (vr s o.a) o.ty.toNat
  t.landLanes o 2 o.ty.toNat (nth 0 xs 0 :: scanSum (laneAdd o.ty.toNat) (nth 0 xs 0) rs (xs.drop 1))
    (scanPois false (s.wordsPois (vr s o.a)))

section

variable {o : VFields} {s t : State} {rs : List Rnd} (keeps : KeepsRows s t) (len : rs.length = laneCount o.ty.toNat - 1)
include keeps len

theorem rowLands_vrsum (he : exec (.vrsum o) s = .next (t.reduceRow o (treeSum (laneAdd o.ty.toNat) 7 rs (s.lanesOf (vr s o.a) o.ty.toNat)))) :
    RowLands (.vrsum o) o s t 2 o.ty.toNat (fun i => if i = 0 then
      treeNode (laneAdd o.ty.toNat) (laneCount o.ty.toNat) (fun j => rs.getD j (Rnd.rne false)) (lane s (vr s o.a) o.ty.toNat)
        (if o.ty.toNat = 1 then 6 else 7) 0 else 0) (firstBad s (vr s o.a)) := by
  rw [treeSum_lanes _ _ _ _ len] at he
  exact rowLands_of_reduceRow keeps (treeNode_lt (laneAdd_lt _) (lane_lt s _ _) _ _ _ _) he

theorem rowLands_vscan (he : exec (.vscan o) s = .next (landScan s o t rs)) :
    RowLands (.vscan o) o s t 2 o.ty.toNat
      (prefixNode (laneAdd o.ty.toNat) (fun j => rs.getD j (Rnd.rne false)) (lane s (vr s o.a) o.ty.toNat))
      (fun w => (List.range (w + 1)).any (badWord s (vr s o.a))) := by
  simp only [landScan] at he
  rw [nth_lanesOf_zero, lanesOf_eq_map_lane, wordsPois_eq_map_badWord, scanPois_eq_map,
    scanSum_eq_map_prefixNode _ (Rnd.rne false) rs _ _ (laneCount_pos _) len] at he
  exact rowLands_of_landLanes (keeps.vrow _) (prefixNode_lt (laneAdd_lt _) (lane_lt s _ _) _) he

end

/-! What the instructions do, their guard true. -/

section

variable {o : VFields} {s : State} (guard : s.me.guard o.G = true)
include guard

theorem exec_vrsum : exec (.vrsum o) s = .next (if o.ty.toNat < 2
    then s.roundings o.rnd.toNat false false (laneCount o.ty.toNat - 1)
      (fun t rs => t.reduceRow o (treeSum (laneAdd o.ty.toNat) 7 rs (s.lanesOf (vr s o.a) o.ty.toNat)))
    else s.reduceRow o (treeSum (laneAdd o.ty.toNat) 7 (List.replicate (laneCount o.ty.toNat - 1) (Rnd.rne false))
      (s.lanesOf (vr s o.a) o.ty.toNat))) :=
  congrArg _ (guarded_of_guard s o.G _ guard)

theorem exec_vrmax : exec (.vrmax o) s = .next (s.reduceRow o ((s.lanesOf (vr s o.a) o.ty.toNat).foldl (laneMax o.ty.toNat)
    (nth 0 (s.lanesOf (vr s o.a) o.ty.toNat) 0))) :=
  congrArg _ (guarded_of_guard s o.G _ guard)

theorem exec_vrmin : exec (.vrmin o) s = .next (s.reduceRow o ((s.lanesOf (vr s o.a) o.ty.toNat).foldl (laneMin o.ty.toNat)
    (nth 0 (s.lanesOf (vr s o.a) o.ty.toNat) 0))) :=
  congrArg _ (guarded_of_guard s o.G _ guard)

theorem exec_vscan : exec (.vscan o) s = .next (if o.ty.toNat < 2
    then s.roundings o.rnd.toNat false false (laneCount o.ty.toNat - 1) (fun t rs => landScan s o t rs)
    else landScan s o s (List.replicate (laneCount o.ty.toNat - 1) (Rnd.rne false))) :=
  congrArg _ (guarded_of_guard s o.G _ guard)

end

/-! The statement. -/

/-- Settles O13: VRSUM's list of lanes is folded level by level into the statement's nodes, VSCAN's lane by lane, and the choice of VRMAX and
VRMIN is the later lane in the order of the values' ranks, or the NaN. -/
theorem vectorReductions : Obligations.VectorReductions := by
  unfold Obligations.VectorReductions
  intro o s guard hty ty n f a add bad0 sum above nan
  have keeps := KeepsRows.refl s
  have len : (List.replicate (laneCount ty - 1) (Rnd.rne false)).length = laneCount ty - 1 := List.length_replicate
  have unrounded : (fun j => (List.replicate (laneCount ty - 1) (Rnd.rne false)).getD j (Rnd.rne false)) = fun _ => Rnd.rne false := by
    funext j
    simp
  have order : ∀ x y, above x y = (laneVal ty y).below (laneVal ty x) := fun x y => (below_laneVal hty y x).symm
  have anyNan : nan = (List.range (laneCount ty)).any (fun i => (laneVal ty (a i)).isNan) :=
    (any_laneVal_isNan hty _ a).symm
  simp only [order, anyNan]
  refine ⟨fun fl => ?sumFloat, fun int => ?sumInt, ?max, ?min, fun fl => ?scanFloat, fun int => ?scanInt⟩
  case sumFloat =>
    have h := exec_vrsum guard
    rw [if_pos fl] at h
    exact rowRounds_of_roundings h (fun t rs keeps len => rowLands_vrsum keeps len)
  case sumInt =>
    have h := exec_vrsum guard
    rw [if_neg (Nat.not_lt.2 int)] at h
    exact unrounded ▸ rowLands_vrsum keeps len h
  case max => exact (picks_laneMax hty).rowLands FVal.ranks_below hty (exec_vrmax guard)
  case min => exact (picks_laneMin hty).rowLands FVal.ranks_above hty (exec_vrmin guard)
  case scanFloat =>
    have h := exec_vscan guard
    rw [if_pos fl] at h
    refine rowRounds_of_roundings h (fun t rs keeps len => ?_)
    simp only [← prefixNode_eq_rec]
    exact rowLands_vscan keeps len
  case scanInt =>
    have h := exec_vscan guard
    rw [if_neg (Nat.not_lt.2 int)] at h
    simp only [← prefixNode_eq_rec]
    exact unrounded ▸ rowLands_vscan keeps len h

end Sys2Proof.Machine
end
